-- ==== Sys2Proof/Word.lean ====
section
/-! DEFINITION. Byte, word and operand types that the commands carry (00_scope R15, R16, R24). -/

namespace Sys2Proof

/-- One byte. Multi-byte fields are little-endian (R16). -/
abbrev Byte := BitVec 8

/-- A sparse table: entries in rising key order; a key with no entry holds the table's default value. -/
abbrev Tab (α : Type) := List (Nat × α)

/-- The strap pins of Table 17.4. Left open, every strap reads 0 (R527). -/
structure StrapPins where
  role : BitVec 2
  profile : BitVec 2
  boot : BitVec 2
  hlw : Bool
  id : BitVec 12
deriving DecidableEq, Repr, Inhabited

/-- What a Zhenlink peer answers to an identity challenge (R308, R504): its certificate chain and signature block, its
committed group settings, its slot, its port and that port's direction. -/
structure PeerReply where
  chain : List Byte
  sigBlock : List Byte
  groupId : Nat
  sizes : List Nat
  slot : Nat
  port : Nat
  dir : Nat
deriving DecidableEq, Repr

/-- The Tolni messages that travel in TC0 between hubs (Table 8.7, Table 8.11). -/
inductive GroupMsg where
  /-- A worker's stretch demand, sent to the manager at every frame tick, with the profile in force there (R52, R65; log entry 104). -/
  | stretchReport (slot ns profile : Nat)
  /-- The manager's stretch, applied at the first tick at or after a time at least two frame periods ahead (R52). -/
  | stretchApply (ns tick : Nat)
  /-- The frame-tick epoch named at group formation (R402). -/
  | epoch (tick : Nat)
  /-- The start of a group step at the workers, at the first tick at or after a time (R67). -/
  | stepStart (stepIndex startTick : Nat)
  /-- The commit of a group step, flipped at the first tick at or after a time (R69). -/
  | stepCommit (flipTick : Nat)
  /-- The replay of a group step on every panel (R70). -/
  | stepReplay (stepIndex startTick : Nat)
  /-- The manager has accepted a step, which is RUNNING from now on: a commit that R72 holds back waits on every panel (log entry 104). -/
  | stepTaken
  /-- The group's step has left RUNNING by a time, so that a commit held back by R72 takes effect at the first tick after it. -/
  | stepLeft (tick : Nat)
  /-- The manager's time beacon, every 1 ms: its slot, its stamp, its next frame tick, its committed FRAME_TICKS, GUARD_CYCLES and
  ENVELOPE_STRETCH and the stretch in force (R330, R382, R400). -/
  | beacon (manager stamp next frameTicks guardCycles envelopeStretch stretch : Nat)
  /-- A worker's plan is gone (R65, R235). -/
  | planLost (slot : Nat)
  /-- A worker's failure with its core, reported to the manager (R61, R216, R446). -/
  | failure (slot frame status core detail : Nat)
  /-- The manager's order to stop the step at a tick (R61). -/
  | stepStop (slot status tick : Nat)
  /-- A commit of group-wide keys with its effective tick; `waits` says that the whole set at the manager changes a key of R72 (R72, R382). -/
  | commit (entries : List (Nat × Nat)) (tick : Nat) (waits : Bool)
  /-- A worker's health, sent up the tree every second: its step state, its port status words and its count entries as unit, code and
  count (R330, R334). -/
  | health (slot state : Nat) (ports : List Nat) (counts : List (Nat × Nat × Nat))
  /-- A worker has joined (R331). -/
  | joined (slot : Nat)
  /-- A worker's outcome of a group PLAN_LOAD (R86). -/
  | loaded (slot status detail : Nat)
  /-- A plan image on its way down one edge of the management tree, with the slots beyond that edge that it is for (R332). -/
  | planImage (slots : List Nat) (bytes : List Byte)
  /-- A destination hub's acknowledgement of one TC3 transfer to the hub that sent it; `inside` is false when rows were refused (R356). -/
  | copyAck (slot to_ xferId : Nat) (inside : Bool)
  /-- A relayed WINDOW_OPEN, WINDOW_CLOSE or ZL_RETRAIN order from the manager for a slot, with its place in the manager's acceptance order and its
  FLAGS (R352, R361). -/
  | relayed (slot seq opcode flags : Nat) (payload : List Byte)
  /-- A worker's outcome of a relayed command (R352). -/
  | relayAnswer (slot seq status detail result : Nat)
  /-- A worker has run its step's frames to the end (R68, R87). -/
  | stepDone (slot : Nat)
  /-- A message for another slot, relayed one tree hop (R330). -/
  | transit (slot : Nat)
deriving DecidableEq, Repr

/-- One PMBus converter's answer to a poll: its key (segment × 128 + address), whether every transaction had a valid PEC byte, READ_PIN or READ_POUT and
READ_IOUT in LINEAR11, and STATUS_WORD (Table 12.3, R418). -/
structure PmbusAnswer where
  key : Nat
  pec : Bool
  power : BitVec 16
  current : BitVec 16 := 0
  status : BitVec 16 := 0
deriving DecidableEq, Repr

end Sys2Proof
end

