-- ==== Sys2Proof/Syntax.lean ====
section
/-! DEFINITION. The commands of the panel: one constructor per row of spec/opcode_table.json, in the table's order. The table gives
no operand fields, so each operand is what the row's rule says the event carries. -/

namespace Sys2Proof

/-- One command: an operation that host software or the panel's surroundings ask for, a core instruction, or an event inside the panel. -/
inductive Instr where
  /-- INFO (R353). Query command that writes the INFO block of Table 9.11 to host memory. -/
  | info (slot : Nat)
  /-- STAGE (R372). Control command that reads entries from host memory and adds them to the staged settings set, optionally clearing the set first. -/
  | stage (slot : Nat)
  /-- PROOF (R374). Control command that checks the candidate settings set against Table 10.4 without changing anything. -/
  | proof (slot : Nat)
  /-- COMMIT (R377). Control command that proofs the staged set, fixes the effective tick and moves the set into the pending commit (or applies it at once before the first tick, by R539). -/
  | commit (slot : Nat)
  /-- READ (R381). Query command that returns the committed value of one setting key. -/
  | read (slot : Nat)
  /-- PLAN_LOAD (R85). Control command that checks a plan image by Table 2.11 and, only if all checks pass, writes programs, constants, routers and the alias table. -/
  | planLoad (slot : Nat)
  /-- STEP_START (R65). Control command that checks the start conditions and starts a step's input transfers, frames and output transfers. -/
  | stepStart (slot : Nat)
  /-- STEP_COMMIT (R69). Control command that commits a step awaiting commit and fixes the flip tick. -/
  | stepCommit (slot : Nat)
  /-- STEP_REPLAY (R70). Control command that reruns the step awaiting commit or failed, from the beginning under the same FRAME_BASE. -/
  | stepReplay (slot : Nat)
  /-- DMA_WRITE (R354). Transfer command that moves and converts elements from host memory into panel memory in pieces. -/
  | dmaWrite (slot : Nat)
  /-- DMA_READ (R354). Transfer command that moves and converts elements from panel memory to host memory in pieces. -/
  | dmaRead (slot : Nat)
  /-- HEALTH_ERRORS (R353). Query command that writes up to MAX error records, oldest first, optionally consuming them. -/
  | healthErrors (slot : Nat)
  /-- HEALTH_CONGESTION (R295). Query command that writes the congestion map of Table 7.11. -/
  | healthCongestion (slot : Nat)
  /-- HEALTH_PORTS (R310). Query command that writes the 64 Zhenlink port status words. -/
  | healthPorts (slot : Nat)
  /-- HEALTH_UNITS (R388). Query command that writes the unit state table header and entries. -/
  | healthUnits (slot : Nat)
  /-- HEALTH_SENSORS (R451). Query command that writes the sensor block of Table 13.5. -/
  | healthSensors (slot : Nat)
  /-- ENVELOPE_REPORT (R433). Query command that writes up to MINUTES energy records, newest first. -/
  | envelopeReport (slot : Nat)
  /-- ATTEST (R515). Query command that writes a signed attestation report from a snapshot taken at its start. -/
  | attest (slot : Nat)
  /-- CERT_READ (R502). Query command that writes the panel's identity certificate chain. -/
  | certRead (slot : Nat)
  /-- KEY_ADD (R511). Control command that verifies a signed payload bound to this panel and POLICY_COUNTER and changes the owner policy. -/
  | keyAdd (slot : Nat)
  /-- DEBUG_UNLOCK (R514). Control command that verifies a signed payload and opens the debug port to a scope, or locks it with SCOPE 0. -/
  | debugUnlock (slot : Nat)
  /-- FW_UPDATE (R507). Control command that verifies a Tolni image and stores it in flash after copying copy A into copy B. -/
  | fwUpdate (slot : Nat)
  /-- COMPUTE_RESET (R475). Control command that resets the crumb from the next frame tick, optionally retaining SRAM, and reruns the compute stages. -/
  | computeReset (slot : Nat)
  /-- PANEL_RESET (R351). Control command that ends every other in-flight command with 0x020F, writes its own record and then resets the whole panel. -/
  | panelReset (slot : Nat)
  /-- ZL_RETRAIN (R307). Relayable control command that starts training on each Zhenlink port named in PORT_MASK. -/
  | zlRetrain (slot : Nat)
  /-- WINDOW_OPEN (R336). Relayable control command that opens or replaces the state-load window on an HBM range for named slots. -/
  | windowOpen (slot : Nat)
  /-- WINDOW_CLOSE (R336). Relayable control command that closes the state-load window. -/
  | windowClose (slot : Nat)
  /-- GROUP_COPY (R356). Transfer command that sends an HBM range to another panel's HBM as TC3 transfers. -/
  | groupCopy (slot : Nat)
  /-- COMMAND_RELAY (R352). A manager relays a command whose DEST_SLOT names a slot along the management tree and records the target's outcome. -/
  | commandRelay (slot seq status detail result : Nat)
  /-- LOG_ENABLE_WRITE (R359). Host write to the completion-log block's ENABLE bit, which from 0 to 1 resets the record count and starts command acceptance and record writing. -/
  | logEnableWrite (value : Bool)
  /-- CONS_WRITE (R358). Host write of CONS, which frees room in the completion log for held records. -/
  | consWrite (value : BitVec 32)
  /-- HOST_WINDOW_WRITE (R343). Host write to any other window register or mailbox slot byte, including W1C clears and accesses discarded as bad or owned. -/
  | hostWindowWrite (isWrite : Bool) (offset : Nat) (bytes : List Byte)
  /-- COMPLETION_RECORD_WRITE (R358). The panel writes a completion or event record to the host log, once room exists, and then the producer count. -/
  | completionRecordWrite
  /-- INTERRUPT_MESSAGE (R364). The panel sends an MSI-X interrupt message when a fault event, the coalesce count or the holdoff time calls for one. -/
  | interruptMessage
  /-- NOP (R187). Instruction that occupies the scalar unit for one cycle and does nothing. -/
  | nop (core : Nat) (body : BitVec 56)
  /-- LOOP (R185). Instruction that opens a loop over the next BODY words for COUNT trips, or skips the body when COUNT is zero. -/
  | loop (core : Nat) (body : BitVec 56)
  /-- ENDF (R186). Instruction that marks the end of a core's frame work and fixes the word at which the next frame resumes. -/
  | endf (core : Nat) (body : BitVec 56)
  /-- ENDF_RETIRE (R173). ENDF retires once every unit has finished, every reply slot is free and every local write has landed, after which the core is clock-gated. -/
  | endfRetire (core : Nat)
  /-- SLOT (R187). Instruction that sets the slot limit from a g register, saturating at 65,535. -/
  | slot (core : Nat) (body : BitVec 56)
  /-- WAIT (R171). Instruction that waits until a sync counter reaches a value. -/
  | wait (core : Nat) (body : BitVec 56)
  /-- WAIT_COMPLETE (R171). A waiting WAIT completes in the first cycle in which its counter is at least the value. -/
  | waitComplete (core : Nat)
  /-- SCALAR_REGISTER_FORM (R188). Scalar instruction with a register second operand computing one function of Table 5.6. -/
  | scalarRegisterForm (core : Nat) (body : BitVec 56)
  /-- SCALAR_IMMEDIATE_FORM (R188). Scalar instruction with a sign-extended immediate operand computing one function of Table 5.6, including LDHI. -/
  | scalarImmediateForm (core : Nat) (body : BitVec 56)
  /-- RDTB (R189). System read of the die's timebase into a g register. -/
  | rdtb (core : Nat) (body : BitVec 48)
  /-- RDFI (R189). System read of the frame index within the step. -/
  | rdfi (core : Nat) (body : BitVec 48)
  /-- RDCYC (R189). System read of the frame's cycle count. -/
  | rdcyc (core : Nat) (body : BitVec 48)
  /-- RDID (R189). System read of the core index. -/
  | rdid (core : Nat) (body : BitVec 48)
  /-- RDST (R178). System read of the core status word, after earlier TDRAIN and VCVT finish. -/
  | rdst (core : Nat) (body : BitVec 48)
  /-- CLRST (R178). Instruction that clears the named sticky conversion bits of the status word. -/
  | clrst (core : Nat) (body : BitVec 48)
  /-- RDCTR (R189). System read of a sync counter. -/
  | rdctr (core : Nat) (body : BitVec 48)
  /-- TWLOAD (R191). Instruction that loads a weight buffer from scratchpad value, metadata and scale rows and records the group flags. -/
  | twload (core : Nat) (body : BitVec 56)
  /-- TMAC (R193). Instruction that feeds M activation rows through a weight buffer and accumulates the exact group sums into accumulator rows. -/
  | tmac (core : Nat) (body : BitVec 56)
  /-- TDRAIN (R195). Instruction that drains accumulator rows through the output stage into scratchpad rows with scaling, bias, clipping and one rounding. -/
  | tdrain (core : Nat) (body : BitVec 56)
  /-- VECTOR_FP32 (R198). Vector FP32 lane operation of Table 5.10. -/
  | vectorFp32 (core : Nat) (body : BitVec 56)
  /-- VECTOR_BF16 (R198). Vector BF16 lane operation of Table 5.10. -/
  | vectorBf16 (core : Nat) (body : BitVec 56)
  /-- VECTOR_INT32 (R198). Vector INT32 lane operation of Table 5.10. -/
  | vectorInt32 (core : Nat) (body : BitVec 56)
  /-- VECTOR_FP32_FUNCTIONS (R200). Vector reciprocal, reciprocal square root, exp2 or log2, correctly rounded. -/
  | vectorFp32Functions (core : Nat) (body : BitVec 56)
  /-- VRED (R200). Vector lane reduction into lane 0 by a fixed pairwise tree. -/
  | vred (core : Nat) (body : BitVec 56)
  /-- VCVT (R201). Vector conversion of 64 elements between FP32 or INT32 and another format, optionally block-scaled. -/
  | vcvt (core : Nat) (body : BitVec 56)
  /-- VLD (R203). Instruction that loads a scratchpad row into a v register pair. -/
  | vld (core : Nat) (body : BitVec 56)
  /-- VST (R203). Instruction that stores a v register pair to a scratchpad row. -/
  | vst (core : Nat) (body : BitVec 56)
  /-- GETL (R203). Instruction that copies 8 bytes of a v register into a g register. -/
  | getl (core : Nat) (body : BitVec 56)
  /-- PUTL (R203). Instruction that writes a g register into 8 bytes of a v register. -/
  | putl (core : Nat) (body : BitVec 56)
  /-- ROWCP (R204). Instruction that copies N rows within the scratchpad or between it and the cluster memory. -/
  | rowcp (core : Nat) (body : BitVec 56)
  /-- RGET (R205). Instruction that requests a remote row into a local scratchpad row on a request route. -/
  | rget (core : Nat) (body : BitVec 56)
  /-- RPUT (R205). Instruction that writes a local row to a remote panel address, including a DMA launch window. -/
  | rput (core : Nat) (body : BitVec 56)
  /-- SEND (R207). Instruction that sends scratchpad rows on a unicast class-2 route. -/
  | send (core : Nat) (body : BitVec 56)
  /-- MCROW (R207). Instruction that multicasts scratchpad rows along a logical row. -/
  | mcrow (core : Nat) (body : BitVec 56)
  /-- MCCOL (R207). Instruction that multicasts scratchpad rows along a logical column. -/
  | mccol (core : Nat) (body : BitVec 56)
  /-- REDSEND (R209). Instruction that injects a scratchpad row as the local input of a reduction tree. -/
  | redsend (core : Nat) (body : BitVec 56)
  /-- SIG (R210). Instruction that sends one increment flit on a class-2 route. -/
  | sig (core : Nat) (body : BitVec 56)
  /-- CYCLE_LIMIT_OVERRUN (R59). A core's cycle count reaches its frame-table entry before ENDF retires, failing the step with 0x0110. -/
  | cycleLimitOverrun (core : Nat)
  /-- REMOTE_REQUEST_ARRIVAL (R232). A GET or PUT request arrives whole at its target, which serves it and sends a reply or fault reply. -/
  | remoteRequestArrival (pkt cycle : Nat)
  /-- REPLY_ARRIVAL (R167). A reply, acknowledgement or fault reply returns to the requesting core, landing the row, freeing the slot and incrementing or faulting. -/
  | replyArrival (pkt cycle : Nat)
  /-- FABRIC_PACKET_ARRIVAL (R261). A packet arrives at a router, which checks its header and forwards, forks or delivers it by its path. -/
  | fabricPacketArrival (pkt cycle : Nat) (headerOk payloadOk : Bool) (lane : Option Nat)
  /-- ROW_DELIVERY (R271). A row packet or increment is delivered through the local output into a delivery slot or counter. -/
  | rowDelivery (pkt cycle : Nat)
  /-- EXTERNAL_WRITE_LAND (R225). An arrived external row lands in its bank once the write port is free and no unit reads the row. -/
  | externalWriteLand (memory cycle : Nat)
  /-- REDUCE_INPUT_ARRIVAL (R282). A REDUCE input lands in its entry's slot and, when FANIN slots are filled, the router combines and forwards or delivers the result. -/
  | reduceInputArrival (pkt : Nat)
  /-- TC0_WINDOW_START (R274). A new 256-fabric-cycle TC0 window begins and the TC0 caps restart. -/
  | tc0WindowStart
  /-- ARBITER_WINDOW_START (R288). A weighted-share arbiter's 256-cycle window begins and its counts reload from weights and quotas. -/
  | arbiterWindowStart (arbiter : Nat)
  /-- DMA_LAUNCH (R237). An I/O die receives a launch row on a DMA window, checks each valid descriptor slot and queues them or answers with a fault reply. -/
  | dmaLaunch (pkt : Nat)
  /-- DMA_TRANSFER_START (R242). A planned transfer starts when it is in the queue and its channel's previous transfer has completed. -/
  | dmaTransferStart (io channel : Nat)
  /-- DMA_TRANSFER_COMPLETE (R243). A planned transfer completes when every destination unit has landed, then writes its completion row and increment. -/
  | dmaTransferComplete (io channel : Nat)
  /-- HOST_PIECE_START (R245). A piece of a host-requested transfer starts on a host channel and is tested against Table 6.9. -/
  | hostPieceStart (tag : Nat)
  /-- HOST_PIECE_COMPLETE (R355). A host-requested piece finishes and, when it is the last, the command's merged completion is made. -/
  | hostPieceComplete (tag piece : Nat)
  /-- SCRUB_ROW (R231). The die agent scrubs a row in a free port cycle, writing back a correction or marking the row poisoned. -/
  | scrubRow (memory row outcome word : Nat)
  /-- FRAME_TICK (R49). The timebase reaches the next frame tick and every core, die agent and block performs its tick actions. -/
  | frameTick
  /-- STEP_INPUTS_DONE (R67). The step's input transfers have placed their last byte in HBM. -/
  | stepInputsDone
  /-- STEP_OUTPUTS_DONE (R68). After the last frame the outputs reach the host, the completion record is made and the step becomes AWAIT_COMMIT, FAILED or auto-commits. -/
  | stepOutputsDone
  /-- CONGESTION_MAP_ASSEMBLE (R295). Tolni assembles the congestion map from the die agents' reports once every second. -/
  | congestionMapAssemble
  /-- PORT_TRAINING (R307). A Zhenlink port starts a training attempt and, on success with width 4 or more, moves to VERIFYING. -/
  | portTraining (port : Nat) (goodLanes : BitVec 8) (roundTripNs : Nat)
  /-- PORT_RETRY_TIMER (R307). A port that failed training or verification tries again after 10 ms. -/
  | portRetryTimer (port : Nat)
  /-- PEER_VERIFICATION (R308). A port's peer reply is checked and the port moves to ACTIVE or back to DOWN with 0x0504. -/
  | peerVerification (port : Nat) (reply : PeerReply)
  /-- IDENTITY_REQUEST (R504). A hub receives a peer's identity challenge and answers with its chain and a signature. -/
  | identityRequest (port : Nat) (challenge : List Byte)
  /-- LINK_FLIT_RECEIVE (R311). A port receives a link flit, checks its CRC and sequence, takes ACK and credits, and NAKs on error. -/
  | linkFlitReceive (port : Nat) (ctl : BitVec 64) (payload : List Byte) (codewordOk : Bool) (worstLane : Nat)
  /-- LANE_RETIRE (R313). A lane found permanently faulty is retired and its port retrains at a narrower width, or the port is retired. -/
  | laneRetire (port lane : Nat)
  /-- PORT_SIGNAL_LOSS (R307). An ACTIVE port loses signal or falls below four good lanes and leaves ACTIVE. -/
  | portSignalLoss (port : Nat)
  /-- TC3_INGRESS (R320). A TC3 packet for another panel crosses from ingress to egress once egress room is reserved. -/
  | tc3Ingress (io : Nat)
  /-- OUTBOUND_TRANSFER_COMPLETE (R324). The ingress I/O die completes a cross-panel transfer by count and XFER_ID order and sends its increment. -/
  | outboundTransferComplete (io route xferId : Nat)
  /-- TC3_TRANSFER_TIMEOUT (R326). A TC3 transfer incomplete at the second tick after its first packet is discarded, and the sender resends or reports 0x0405. -/
  | tc3TransferTimeout (srcSlot xferId : Nat)
  /-- TC3_ROW_WRITE (R327). The destination hub writes a TC3 row into an open window range or discards it as a security event. -/
  | tc3RowWrite
  /-- GROUP_MESSAGE_RECEIVE (R330). A hub receives a TC0 management message and acts on it or relays it one tree hop. -/
  | groupMessageReceive (msg : GroupMsg)
  /-- TIME_BEACON (R400). The manager sends a time beacon every 1 ms, and each hub corrects its timebase and rate trim from it. -/
  | timeBeacon (stamp roundTrip received : Nat)
  /-- WORKER_JOIN (R331). A worker joins its group once its ports, beacons and alignment conditions hold, stepping its timebase once. -/
  | workerJoin
  /-- MANAGER_LOST (R333). A worker that receives no beacon for 8 ms stops any step with 0x0406 and runs on alone. -/
  | managerLost
  /-- WORKER_SILENT (R334). A worker that stops reporting health for 2 s makes the manager stop the group step with 0x0405. -/
  | workerSilent (slot : Nat)
  /-- HEALTH_GATHER (R330). Every second the group gathers each worker's counters, port status and state up the tree. -/
  | healthGather
  /-- HOST_LINK_TRAINING (R340). The host link trains, or retrains every 10 ms while down, or narrows to four lanes on a lane fault. -/
  | hostLinkTraining (goodLanes : BitVec 8)
  /-- HOST_LINK_DOWN (R342). The host link goes down, stopping host pieces and holding completion records. -/
  | hostLinkDown
  /-- REFERENCE_LOST (R390). The hub's monitor declares the reference lost and the PLL enters holdover. -/
  | referenceLost
  /-- REFERENCE_HOLDOVER_EXPIRE (R390). The reference has been lost for 100 ms, so any running step stops with 0x0408. -/
  | referenceHoldoverExpire
  /-- REFERENCE_RETURNED (R390). The reference returns within tolerance and the PLL slews onto it until lock is declared. -/
  | referenceReturned
  /-- CLOCK_PARENT_SWITCH (R392). A die whose parent's reference fails switches to the next neighbour within 20 µs. -/
  | clockParentSwitch (die : Nat)
  /-- TIMING_BEACON (R398). Every 64 µs the hub's intra-panel beacon lets each die measure and slew its timebase offset. -/
  | timingBeacon (die : Nat) (beacon : Nat × Nat) (seps : List (Nat × Nat))
  /-- DROOP_EVENT (R404). A droop detector fires and the cluster's oscillator slows, or its clock is held until the supply recovers. `droop` gives the lowest frequency
  and whether the clock is held; `failed` the phases whose test the load step's signature fails (R421). -/
  | droopEvent (cluster : Nat) (droop : Nat × Bool) (failed : List Nat)
  /-- PHASE_LOST (R421). A regulator phase fails four tests in a row and the cluster is capped, the die derated, or the cluster goes dark. -/
  | phaseLost (cluster phase : Nat)
  /-- DERATED_EXPIRY (R423). A die derated for 24 h without a plan load is retired at the next tick outside RUNNING. -/
  | deratedExpiry (site : Nat)
  /-- PMBUS_POLL (R418). Every 10 ms the hub reads the intake and rail converters over PMBus. -/
  | pmbusPoll (readings : List PmbusAnswer)
  /-- POWER_SECOND (R426). At the end of each second the power controller computes its stretch demand and judges the second over or under limits. -/
  | powerSecond
  /-- ZONE_CURRENT_WARNING (R431). A PMB1 alert for an IOUT warning drops every cluster of the zone to its f_floor point. -/
  | zoneCurrentWarning (zone : Nat)
  /-- ENERGY_MINUTE (R433). At the end of each minute Tolni stores an energy record. -/
  | energyMinute
  /-- SENSOR_SAMPLE (R434). A die sensor pair is sampled every 100 µs and the governed reading formed, with sensor-fault detection. -/
  | sensorSample (pair : Nat) (primary secondary : Int)
  /-- HBM_TEMPERATURE_READ (R251). Every 1 ms an HBM controller reads its stack temperature and sets normal or double refresh. -/
  | hbmTemperatureRead (stack : Nat) (reading : Int) (errors : List (Nat × Nat))
  /-- FLOW_PULSE (R435). A pulse from the flow meter is counted toward the flow reading. -/
  | flowPulse
  /-- THERMAL_DEMAND_UPDATE (R439). Every 100 ms the thermal controller raises or lowers its stretch demand td. -/
  | thermalDemandUpdate
  /-- THERMAL_SECOND (R441). At the end of each second Tolni forms θs, θ and the thermal cap CapT. -/
  | thermalSecond
  /-- COOLANT_LOSS_DETECT (R444). No flow pulse for 500 ms, or an unexplained rapid rise, begins the coolant-loss response. -/
  | coolantLossDetect (condition : Nat)
  /-- HARD_LIMIT (R448). Two samples at or above a hard limit make the hub write the shutdown record and drive PWR_SHDN_N low. -/
  | hardLimit (unit : Nat) (reading : Int)
  /-- PWR_OK_RISE (R457). PWR_OK rises with PANEL_RESET_N high, sampling the straps and starting bring-up. -/
  | pwrOkRise (straps : StrapPins)
  /-- PWR_OK_FALL (R458). PWR_OK falls and the panel stops at once, keeping only the AUX domain. -/
  | pwrOkFall
  /-- PANEL_RESET_N (R474). PANEL_RESET_N held low for 1 µs or more resets the whole panel, and its release begins bring-up. -/
  | panelResetN (lowNs : Nat) (released : Bool) (straps : StrapPins)
  /-- AUX_FALL (R535). AUX falls, stopping the AUX domain and losing the shutdown record. -/
  | auxFall
  /-- STAGE_COMPLETE (R459). A bring-up stage finishes, passes or fails, and the next stage begins. -/
  | stageComplete (code unit : Nat) (pass : Bool) (found : List Nat)
  /-- STAGE_TIMEOUT (R459). A bring-up stage that has not finished by its limit fails with the outcome its table row names. `late` are the units that have not
  finished; for an I/O-die stage it begins with the die's number. -/
  | stageTimeout (code : Nat) (late : List Nat)
  /-- RECOVERY_BOOT (R464). The starter fetches a Tolni image from slot 0's FW_UPDATE and runs it if it passes stage 0x04. -/
  | recoveryBoot
  /-- FIRMWARE_BLOCK_RECEIVE (R465). A die agent receives a broadcast firmware or microcode block, checks its digest and asks again on failure. -/
  | firmwareBlockReceive (site : Nat) (block digest : List Byte)
  /-- DATA_PATH_MARK (R385). A data-path unit marks another unit failed on a permanent fault, effective in the same cycle. -/
  | dataPathMark (unit code reporter : Nat)
  /-- UNIT_REPROBE (R387). Tolni re-probes a unit whose mark disagrees with the table and retires the smallest failing unit at the next tick. -/
  | unitReprobe (unit found : Nat)
  /-- LEDGER_WRITE (R468). A permanent fault found in operation is added to the defect ledger within 1 s. -/
  | ledgerWrite (unit action source detail : Nat)
  /-- ENGINE_SIDEBAND_ACCESS (R516). An optical engine's sideband transaction is admitted within its allow-list and rate limit or refused and counted. -/
  | engineSidebandAccess (engine target offset length : Nat) (isWrite : Bool) (data : List Byte)
  /-- AUX_RISE (R527). AUX comes into tolerance, powering the hub's management domain and PMBus interfaces, and the starter checks its ROM, holds the shutdown record and waits without running any stage. -/
  | auxRise
  /-- DEBUG_PORT_ACCESS (R530). An IEEE 1149.1 operation on the DBG pins runs BYPASS or IDCODE while the port is locked, or reads, scans, halts or writes within the scope unlocked by R513. -/
  | debugPortAccess (op address : Nat) (data : List Byte)
  /-- IDENTITY_REPLY_TIMEOUT (R504). A port in VERIFYING that has had no identity reply 10 ms after its challenge fails verification with 0x0504 and returns to DOWN. -/
  | identityReplyTimeout (port : Nat)
deriving DecidableEq, Repr

end Sys2Proof
end

