-- ==== Sys2Proof/Config.lean ====
section
/-! DEFINITION. What an implementation fixes and what the spec leaves open: values that nothing constrains. -/

namespace Sys2Proof

/-- A free byte: data the spec calls unspecified (Table 6.9), drawn by a counter of the state (log entry 14). -/
opaque Config.freeByte : Nat → BitVec 8

/-- A free 64-bit word: the word fetched beyond a program (R214), the syndrome of an ECC event (log entry 14). -/
opaque Config.freeWord : Nat → BitVec 64

/-- The levels of the strap pins at a panel reset that no event of a pin brings (R351, R454; log entry 61). -/
opaque Config.strapPins : Nat → StrapPins

/-- The hub's entropy source, byte by byte (R498): what a hedged signature draws (log entry 8). -/
opaque Config.entropy : Nat → BitVec 8

/-- The number of redundant lanes of a UCIe module (Table 8.2, Table 14.5), which the spec does not give (log entry 14). -/
opaque Config.moduleSpares : Nat

end Sys2Proof
end

