-- ==== Sys2Proof/Machine/Num.lean ====
section
/-! DEFINITION. Exact values: the numbers of 03_number_formats.md as sign, significand and exponent of two, and the arithmetic
that forms them without rounding (R24, R107, R119). -/

namespace Sys2Proof.Machine

/-- An exact value: a NaN, an infinity, or (−1)^neg × m × 2^e. A zero keeps its sign (R93, R114). -/
inductive FVal where
  | nan
  | inf (neg : Bool)
  | fin (neg : Bool) (m : Nat) (e : Int)
deriving DecidableEq, Repr

/-- The value of an integer with no sign of zero. -/
def fOfInt (i : Int) (e : Int) : FVal := .fin (decide (i < 0)) i.natAbs e

/-- The signed significand of a finite value scaled to exponent `lo`, with `lo ≤ e`. -/
def sigAt (neg : Bool) (m : Nat) (e lo : Int) : Int :=
  let t : Nat := m <<< (e - lo).toNat
  if neg then -(t : Int) else (t : Int)

/-- The exact product (R107, R119). -/
def fmulExact : FVal → FVal → FVal
  | .nan, _ => .nan
  | _, .nan => .nan
  | .inf s, .inf t => .inf (s != t)
  | .inf s, .fin t m _ => if m = 0 then .nan else .inf (s != t)
  | .fin s m _, .inf t => if m = 0 then .nan else .inf (s != t)
  | .fin s m e, .fin t n d => .fin (s != t) (m * n) (e + d)

/-- The exact sum. An exactly-zero sum is −0 only when every addend is −0 (R107). -/
def faddExact : FVal → FVal → FVal
  | .nan, _ => .nan
  | _, .nan => .nan
  | .inf s, .inf t => if s = t then .inf s else .nan
  | .inf s, .fin _ _ _ => .inf s
  | .fin _ _ _, .inf t => .inf t
  | .fin s m e, .fin t n d =>
    let lo := min e d
    let i := sigAt s m e lo + sigAt t n d lo
    if i = 0 then .fin (s && m == 0 && t && n == 0) 0 0
    else fOfInt i lo

/-- The value with its sign turned. -/
def fneg : FVal → FVal
  | .nan => .nan
  | .inf s => .inf !s
  | .fin s m e => .fin (!s) m e

/-- The value times 2^k. -/
def fscale (k : Int) : FVal → FVal
  | .fin s m e => .fin s m (e + k)
  | v => v

/-- Whether `a < b`; false when either is a NaN, and −0 equals +0 (R120, R199). -/
def flt : FVal → FVal → Bool
  | .nan, _ => false
  | _, .nan => false
  | .inf s, .inf t => s && !t
  | .inf s, .fin _ _ _ => s
  | .fin _ _ _, .inf t => !t
  | .fin s m e, .fin t n d => decide (sigAt s m e (min e d) < sigAt t n d (min e d))

/-- Whether `a = b`; false when either is a NaN (R199). -/
def feq : FVal → FVal → Bool
  | .nan, _ => false
  | _, .nan => false
  | .inf s, .inf t => s == t
  | .inf _, .fin _ _ _ => false
  | .fin _ _ _, .inf _ => false
  | .fin s m e, .fin t n d => decide (sigAt s m e (min e d) = sigAt t n d (min e d))

/-- Whether the value is a zero of either sign. -/
def fisZero : FVal → Bool
  | .fin _ m _ => m == 0
  | _ => false

/-- Whether the sign is negative; a NaN has none. -/
def fisNeg : FVal → Bool
  | .nan => false
  | .inf s => s
  | .fin s _ _ => s

/-- Maximum by R126: a NaN is ignored, and max(+0, −0) is +0. -/
def fmax (a b : FVal) : FVal :=
  match a, b with
  | .nan, _ => b
  | _, .nan => a
  | _, _ => if flt a b then b else if flt b a then a else if fisNeg a then b else a

/-- Minimum by R126: a NaN is ignored, and min(+0, −0) is −0. -/
def fmin (a b : FVal) : FVal :=
  match a, b with
  | .nan, _ => b
  | _, .nan => a
  | _, _ => if flt a b then a else if flt b a then b else if fisNeg a then a else b

/-- floor(log2 |v|) of a finite non-zero value. -/
def flog2 (m : Nat) (e : Int) : Int := (Nat.log2 m : Int) + e

/-- ⌊√n⌋ found bit by bit below 2^`bits`. -/
def isqrtAux (n : Nat) : Nat → Nat → Nat
  | 0, r => r
  | b + 1, r =>
    let c := r + 2 ^ b
    isqrtAux n b (if c * c ≤ n then c else r)

/-- ⌊√n⌋. -/
def isqrt (n : Nat) : Nat := isqrtAux n (Nat.log2 n / 2 + 1) 0

/-- 1/v: the quotient to 32 bits more than the divisor, with a sticky bit for the remainder (R164). -/
def frcpExact : FVal → FVal
  | .nan => .nan
  | .inf s => .fin s 0 0
  | .fin s m e =>
    if m = 0 then .inf s
    else
      let k := Nat.log2 m + 32
      let q := 2 ^ k / m
      .fin s (2 * q + if q * m = 2 ^ k then 0 else 1) (-(k : Int) - 1 - e)

/-- 1/√v with a sticky bit (R164): rSqrt(±0) is ±∞ and a negative non-zero value gives a NaN. -/
def frsqExact : FVal → FVal
  | .nan => .nan
  | .inf s => if s then .nan else .fin false 0 0
  | .fin s m e =>
    if m = 0 then .inf s
    else if s then .nan
    else
      let odd := e % 2 == 1
      let m' := if odd then 2 * m else m
      let e' := if odd then e - 1 else e
      let k := Nat.log2 m' + 32
      let r := isqrt (2 ^ (2 * k) / m')
      .fin false (2 * r + if r * r * m' = 2 ^ (2 * k) then 0 else 1) (-(k : Int) - 1 - e' / 2)

/-- Working precision of `fexp2Exact` and `flog2Exact`, in bits (log entry 12). -/
def fnPrec : Nat := 256

/-- 2^f to `fnPrec` bits, from the bits of f below the binary point, most significant first: one square root a bit. -/
def exp2Frac : Nat → Nat → Nat → Nat → Nat
  | 0, _, _, acc => acc
  | n + 1, f, r, acc =>
    let r' := isqrt (r <<< fnPrec)
    exp2Frac n f r' (if f.testBit n then (acc * r') >>> fnPrec else acc)

/-- 2^v, exact for an integer v, otherwise to `fnPrec` bits with a sticky bit (R164). -/
def fexp2Exact : FVal → FVal
  | .nan => .nan
  | .inf s => if s then .fin false 0 0 else .inf false
  | .fin s m e =>
    if m = 0 then .fin false 1 0
    else if e ≥ 0 ∨ flog2 m e ≥ 9 then
      if flog2 m e ≥ 9 then (if s then .fin false 1 (-400) else .inf false)
      else .fin false 1 (sigAt s m e 0)
    else
      let w := (-e).toNat
      let i := sigAt s m 0 0
      let n := i / (2 ^ w : Int)
      let f := (i % (2 ^ w : Int)).toNat
      if f = 0 then .fin false 1 n
      else .fin false (2 * exp2Frac w f (2 <<< fnPrec) (1 <<< fnPrec) + 1) (n - fnPrec - 1)

/-- The first `n` binary digits of log2 y for y = Y / 2^`fnPrec` in [1, 2), by repeated squaring. -/
def log2Digits : Nat → Nat → Nat → Nat
  | 0, _, acc => acc
  | n + 1, y, acc =>
    let y2 := (y * y) >>> fnPrec
    if y2 ≥ 2 ^ (fnPrec + 1) then log2Digits n (y2 >>> 1) (2 * acc + 1) else log2Digits n y2 (2 * acc)

/-- log2 v, exact for a power of two, otherwise to 110 binary digits with a sticky bit (R164). -/
def flog2Exact : FVal → FVal
  | .nan => .nan
  | .inf s => if s then .nan else .inf false
  | .fin s m e =>
    if m = 0 then .inf true
    else if s then .nan
    else
      let k := Nat.log2 m
      let n : Int := (k : Int) + e
      if m = 2 ^ k then fOfInt n 0
      else fOfInt (2 * (n * (2 ^ 110 : Int) + (log2Digits 110 (m <<< (fnPrec - k)) 0 : Nat)) + 1) (-111)

end Sys2Proof.Machine
end

