-- ==== Sys2Proof/Machine/Formats.lean ====
section
/-! DEFINITION. The eleven formats, packing in rows, rounding and conversion, and the stochastic-rounding generator
(03_number_formats.md R89 to R112). -/

namespace Sys2Proof.Machine

/-! ### Formats -/

/-- Whether the code names a format of Table 3.1. -/
def fmtValid (f : Nat) : Bool := decide (f ≤ 10)

/-- Whether the format is an integer format (R95). -/
def fmtIsInt (f : Nat) : Bool := f == 8 || f == 9 || f == 10

/-- Element width in bits (Table 3.1). -/
def fmtWidth (f : Nat) : Nat :=
  match f with
  | 0 => 32 | 1 => 16 | 2 => 16 | 3 => 8 | 4 => 8 | 5 => 6 | 6 => 6 | 7 => 4 | 8 => 8 | 9 => 4 | _ => 32

/-- Mantissa bits (Table 3.2). -/
def fmtMant (f : Nat) : Nat :=
  match f with
  | 0 => 23 | 1 => 7 | 2 => 10 | 3 => 3 | 4 => 2 | 5 => 2 | 6 => 3 | _ => 1

/-- Exponent bits (Table 3.2). -/
def fmtExp (f : Nat) : Nat :=
  match f with
  | 0 => 8 | 1 => 8 | 2 => 5 | 3 => 4 | 4 => 5 | 5 => 3 | _ => 2

/-- Exponent bias (Table 3.2). -/
def fmtBias (f : Nat) : Int :=
  match f with
  | 0 => 127 | 1 => 127 | 2 => 15 | 3 => 7 | 4 => 15 | 5 => 3 | _ => 1

/-- Whether the format has infinities (Table 3.3). -/
def fmtHasInf (f : Nat) : Bool := f == 0 || f == 1 || f == 2 || f == 4

/-- Whether the format has a NaN (Table 3.3). -/
def fmtHasNan (f : Nat) : Bool := fmtHasInf f || f == 3

/-- The canonical NaN pattern (Table 3.3); +0 where the format has none (R104). -/
def fmtNan (f : Nat) : Nat :=
  match f with
  | 0 => 0x7FC00000 | 1 => 0x7FC0 | 2 => 0x7E00 | 3 => 0x7F | 4 => 0x7E | _ => 0

/-- The pattern of the largest finite magnitude (Table 3.2). -/
def fmtMax (f : Nat) : Nat :=
  match f with
  | 0 => 0x7F7FFFFF | 1 => 0x7F7F | 2 => 0x7BFF | 3 => 0x7E | 4 => 0x7B | 5 => 0x1F | 6 => 0x1F | _ => 0x7

/-- q of Table 3.2: the exponent of the least bit of a subnormal; 0 for an integer format (R114). -/
def fmtQ (f : Nat) : Int := if fmtIsInt f then 0 else 1 - fmtBias f - fmtMant f

/-- The value of a pattern (R91 to R95). -/
def decodeFmt (f bits : Nat) : FVal :=
  let w := fmtWidth f
  let b := bits % 2 ^ w
  if fmtIsInt f then
    if b < 2 ^ (w - 1) then .fin false b 0 else .fin true (2 ^ w - b) 0
  else
    let s := b.testBit (w - 1)
    let mb := fmtMant f
    let m := b % 2 ^ mb
    let e := (b / 2 ^ mb) % 2 ^ fmtExp f
    if fmtHasInf f && e == 2 ^ fmtExp f - 1 then (if m = 0 then .inf s else .nan)
    else if f == 3 && b % 128 == 127 then .nan
    else if e = 0 then .fin s m (fmtQ f)
    else .fin s (2 ^ mb + m) ((e : Int) - fmtBias f - mb)

/-! ### Rounding -/

/-- Sticky conversion flags NV, OF, WR (R106). -/
structure ConvFlags where
  nv : Bool := false
  of : Bool := false
  wr : Bool := false
deriving DecidableEq, Repr

/-- Either set of flags. -/
def orFlags (a b : ConvFlags) : ConvFlags := { nv := a.nv || b.nv, of := a.of || b.of, wr := a.wr || b.wr }

/-- 32-bit fraction of R110: floor((|x| − lo) / (hi − lo) × 2^32), saturated to u32, where |x| = m × 2^e, lo = `lo` × 2^u
and hi − lo = 2^u. -/
def srFrac (m : Nat) (e : Int) (lo : Nat) (u : Int) : Nat :=
  let d := min e u
  let x := m <<< (e - d).toNat
  let l := lo <<< (u - d).toNat
  min (((x - l) <<< 32) >>> (u - d).toNat) 0xFFFFFFFF

/-- Whether the mode takes the magnitude above `lo` × 2^u for |x| = m × 2^e (R101, R110); `rnd` is the draw under SR. -/
def roundUp (rm : Nat) (neg : Bool) (m : Nat) (e : Int) (lo : Nat) (u : Int) (rnd : Nat) : Bool :=
  let d := min e u
  let x := m <<< (e - d).toNat
  let l := lo <<< (u - d).toNat
  let ulp := 1 <<< (u - d).toNat
  let exact := x == l
  if exact then false
  else
    match rm with
    | 0 => decide (2 * (x - l) > ulp) || (decide (2 * (x - l) = ulp) && lo % 2 == 1)
    | 1 => false
    | 2 => neg
    | 3 => !neg
    | _ => decide (rnd < srFrac m e lo u)

/-- floor of |x| = m × 2^e in units of 2^u. -/
def floorAt (m : Nat) (e u : Int) : Nat := if u ≤ e then m <<< (e - u).toNat else m >>> (u - e).toNat

/-- The significand and exponent of the largest finite magnitude. -/
def fmtMaxSig (f : Nat) : Nat × Int :=
  match decodeFmt f (fmtMax f) with
  | .fin _ m e => (m, e)
  | _ => (0, 0)

/-- The pattern of the magnitude n × 2^u, which the format represents, with its sign. -/
def encodeMag (f : Nat) (neg : Bool) (n : Nat) (u : Int) : Nat :=
  let mb := fmtMant f
  let s := if neg then 2 ^ (fmtWidth f - 1) else 0
  if n < 2 ^ mb then s + n
  else
    let k := Nat.log2 n - mb
    s + ((u + k + mb + fmtBias f).toNat) * 2 ^ mb + ((n >>> k) - 2 ^ mb)

/-- The pattern of an infinity, or of the largest finite value where the format has none or the conversion saturates. -/
def encodeInf (f : Nat) (neg satur : Bool) : Nat :=
  let s := if neg then 2 ^ (fmtWidth f - 1) else 0
  if fmtHasInf f && !satur then s + (2 ^ fmtExp f - 1) * 2 ^ fmtMant f else s + fmtMax f

/-- Table 3.7: whether overflow gives an infinity (R103). Under SR the magnitude above the maximum was chosen. -/
def overflowToInf (rm : Nat) (neg : Bool) : Bool :=
  match rm with
  | 0 => true
  | 1 => false
  | 2 => neg
  | 3 => !neg
  | _ => true

/-- Rounds a finite non-zero magnitude to a floating-point format (R103, R110). `satur` is the saturation of R99. -/
def roundFloat (f rm : Nat) (satur neg : Bool) (m : Nat) (e : Int) (rnd : Nat) : Nat × ConvFlags :=
  let mx := fmtMaxSig f
  let above := decide (sigAt false m e (min e mx.2) > sigAt false mx.1 mx.2 (min e mx.2))
  let u := if above && decide (rm ≥ 4) then mx.2 else max (flog2 m e - fmtMant f) (fmtQ f)
  let lo := if above && decide (rm ≥ 4) then mx.1 else floorAt m e u
  let n := if roundUp rm neg m e lo u rnd then lo + 1 else lo
  let beyond := decide (sigAt false n u (min u mx.2) > sigAt false mx.1 mx.2 (min u mx.2))
  if beyond then (encodeInf f neg (satur || !overflowToInf rm neg), { of := true })
  else (encodeMag f neg n u, {})

/-- Wraps or clamps an exact integer to a two's-complement width (R95), with OF on a clamp and WR on a wrap (R106). -/
def narrowInt (w : Nat) (sat : Bool) (i : Int) : Nat × ConvFlags :=
  let lo : Int := -(2 ^ (w - 1) : Int)
  let hi : Int := (2 ^ (w - 1) : Int) - 1
  if lo ≤ i ∧ i ≤ hi then ((i % (2 ^ w : Int)).toNat, {})
  else if sat then (((if i < lo then lo else hi) % (2 ^ w : Int)).toNat, { of := true })
  else ((i % (2 ^ w : Int)).toNat, { wr := true })

/-- Rounds a value to an integer format (R105, R110). -/
def roundInt (f rm : Nat) (sat neg : Bool) (m : Nat) (e : Int) (rnd : Nat) : Nat × ConvFlags :=
  let lo := floorAt m e 0
  let n := if roundUp rm neg m e lo 0 rnd then lo + 1 else lo
  narrowInt (fmtWidth f) sat (if neg then -(n : Int) else n)

/-- One conversion of an exact value to a format (R103 to R106). `satur` marks a conversion into a block (R99, R104). -/
def convert (f rm : Nat) (sat satur : Bool) (rnd : Nat) (v : FVal) : Nat × ConvFlags :=
  match v with
  | .nan => (fmtNan f, { nv := !fmtHasNan f })
  | .inf s =>
    if fmtIsInt f then
      (if s then 2 ^ (fmtWidth f - 1) else 2 ^ (fmtWidth f - 1) - 1, { of := true })
    else (encodeInf f s satur, { of := satur || !fmtHasInf f })
  | .fin s m e =>
    if fmtIsInt f then (if m = 0 then (0, {}) else roundInt f rm (sat || satur) s m e rnd)
    else if m = 0 then ((if s then 2 ^ (fmtWidth f - 1) else 0), {})
    else roundFloat f rm satur s m e rnd

/-- Rounds to the format under RNE with no flags: the arithmetic of R102. -/
def rne (f : Nat) (v : FVal) : Nat := (convert f 0 false false 0 v).1

/-! ### Block scales -/

/-- Whether the format may be block-scaled (Table 3.5). -/
def fmtScalable (f : Nat) : Bool := decide (3 ≤ f ∧ f ≤ 8)

/-- The exponent that block scaling adds to an element: −6 for MXINT8 (Table 3.5), else 0. -/
def mxImplied (f : Nat) : Int := if f = 8 then -6 else 0

/-- emax of R99. -/
def mxEmax (f : Nat) : Int :=
  match f with
  | 3 => 8 | 4 => 15 | 5 => 4 | 6 => 2 | 7 => 2 | _ => 0

/-- An element of a block with scale byte s: its value times 2^(s − 127), or a NaN for s = 0xFF (R97, R99). -/
def mxValue (f : Nat) (scale : Nat) (bits : Nat) : FVal :=
  if scale = 255 then .nan else fscale ((scale : Int) - 127 + mxImplied f) (decodeFmt f bits)

/-- One element converted into a block of scale byte s (R99, R202). -/
def mxConvert (f rm : Nat) (rnd : Nat) (scale : Nat) (v : FVal) : Nat × ConvFlags :=
  convert f rm true true rnd (fscale (127 - (scale : Int) - mxImplied f) v)

/-- The larger magnitude of two finite values, as (m, e). -/
def maxMag (a : Nat × Int) (v : FVal) : Nat × Int :=
  match v with
  | .fin _ m e => if sigAt false a.1 a.2 (min a.2 e) < sigAt false m e (min a.2 e) then (m, e) else a
  | _ => a

/-- The block scale byte of R99, with the flags that a NaN or an infinity in the block sets. -/
def mxScale (f : Nat) (vs : List FVal) : Nat × ConvFlags :=
  let anyNan := vs.any (· == .nan)
  let anyInf := vs.any (fun v => v == .inf false || v == .inf true)
  if anyNan || anyInf then (255, { nv := anyNan, of := anyInf })
  else
    let a := vs.foldl maxMag (0, 0)
    if a.1 = 0 then (0, {})
    else
      let x := flog2 a.1 a.2 - mxEmax f
      let x := if x < -127 then -127 else if x > 127 then 127 else x
      ((x + 127).toNat, {})

/-- A whole block converted: scale byte, elements and flags (R99). `rnds` gives the draw of each element. -/
def mxBlock (f rm : Nat) (rnds : List Nat) (vs : List FVal) : Nat × List Nat × ConvFlags :=
  let s := mxScale f vs
  if s.1 = 255 then (255, vs.map (fun _ => 0), s.2)
  else
    let es := (vs.zip rnds).map (fun p => mxConvert f rm p.2 (if s.1 = 0 && vs.all fisZero then 127 else s.1) p.1)
    (s.1, es.map (·.1), es.foldl (fun a e => orFlags a e.2) {})

/-! ### Stochastic rounding -/

/-- rotl64 of R109. -/
def rotl64 (v : BitVec 64) (n : Nat) : BitVec 64 := v.rotateLeft n

/-- One round of sr_draw (R109). -/
def srRound (ab : BitVec 64 × BitVec 64) (rot : Nat) : BitVec 64 × BitVec 64 :=
  let a := ab.1 + ab.2
  let b := rotl64 ab.2 rot ^^^ a
  let a := a * 0x9E3779B97F4A7C15#64
  (a ^^^ (a >>> 29), b)

/-- sr_draw of R109. -/
def srDraw (seed : Nat) (frame : Nat) (stream elem : Nat) : Nat :=
  let a := BitVec.ofNat 64 seed ^^^ BitVec.ofNat 64 frame
  let b := BitVec.ofNat 64 (seed / 2 ^ 64) ^^^ (BitVec.ofNat 64 stream <<< 32 ||| BitVec.ofNat 64 (elem % 2 ^ 32))
  let r := [13, 29, 41, 7, 53, 17].foldl srRound (a, b)
  ((r.1 ^^^ r.2) >>> 32).toNat

/-! ### Packing -/

/-- The little-endian value of a byte list (R16). -/
def leNat : List Byte → Nat
  | [] => 0
  | b :: bs => b.toNat + 256 * leNat bs

/-- The low `n` bytes of a number, little-endian (R16). -/
def toLE : Nat → Nat → List Byte
  | 0, _ => []
  | n + 1, v => BitVec.ofNat 8 v :: toLE n (v / 256)

/-- Elements per 512 B (Table 3.4). -/
def perRow (f : Nat) : Nat :=
  match fmtWidth f with
  | 32 => 128 | 16 => 256 | 8 => 512 | 6 => 672 | _ => 1024

/-- Element i of packed bytes (R96). -/
def getElem (f : Nat) (bs : List Byte) (i : Nat) : Nat :=
  match fmtWidth f with
  | 32 => leNat ((bs.drop (4 * i)).take 4)
  | 16 => leNat ((bs.drop (2 * i)).take 2)
  | 8 => leNat ((bs.drop i).take 1)
  | 4 => leNat ((bs.drop (i / 2)).take 1) / 16 ^ (i % 2) % 16
  | _ => leNat ((bs.drop (24 * (i / 32))).take 24) / 2 ^ (6 * (i % 32)) % 64

/-- `n` elements from element `i` on (R96). -/
def getElems (f : Nat) (bs : List Byte) (i n : Nat) : List Nat := (List.range n).map (fun j => getElem f bs (i + j))

/-- Elements packed into one little-endian number of their width. -/
def packNat (w : Nat) : List Nat → Nat
  | [] => 0
  | x :: xs => x % 2 ^ w + 2 ^ w * packNat w xs

/-- A list cut into pieces of `n`, at most `fuel` of them. -/
def chunksOf (n : Nat) : Nat → List α → List (List α)
  | 0, _ => []
  | fuel + 1, xs => if xs.isEmpty then [] else xs.take n :: chunksOf n fuel (xs.drop n)

/-- Elements packed contiguously into bytes (R96): 6-bit formats in 24-byte blocks of 32. -/
def packElems (f : Nat) (xs : List Nat) : List Byte :=
  if fmtWidth f = 6 then
    (chunksOf 32 (xs.length / 32 + 1) xs).flatMap (fun c => toLE 24 (packNat 6 c))
  else if fmtWidth f = 4 then
    (chunksOf 2 (xs.length / 2 + 1) xs).flatMap (fun c => toLE 1 (packNat 4 c))
  else xs.flatMap (fun x => toLE (fmtWidth f / 8) x)

/-- A byte list cut or filled with zeros to `n` bytes. -/
def fitBytes (n : Nat) (bs : List Byte) : List Byte := bs.take n ++ List.replicate (n - bs.length) 0

/-- One 512 B row of packed elements, filled with zeros (R96). -/
def packRow (f : Nat) (xs : List Nat) : List Byte := fitBytes 512 (packElems f xs)

/-- Replaces bytes from offset `o` on by `new`. -/
def patchBytes (o : Nat) (new bs : List Byte) : List Byte := bs.take o ++ new ++ bs.drop (o + new.length)

end Sys2Proof.Machine
end

