-- ==== Sys2Proof/Machine/Crypto.lean ====
section
/-! DEFINITION. SHAKE256, which the spec names for its digests (R84, R498), by FIPS 202 (PRESUMED: log entry 7). -/

namespace Sys2Proof.Machine

/-- The 24 round constants of Keccak-f[1600]. -/
def keccakRc : List (BitVec 64) :=
  [0x0000000000000001, 0x0000000000008082, 0x800000000000808A, 0x8000000080008000, 0x000000000000808B, 0x0000000080000001,
   0x8000000080008081, 0x8000000000008009, 0x000000000000008A, 0x0000000000000088, 0x0000000080008009, 0x000000008000000A] ++
  [0x000000008000808B, 0x800000000000008B, 0x8000000000008089, 0x8000000000008003, 0x8000000000008002, 0x8000000000000080,
   0x000000000000800A, 0x800000008000000A, 0x8000000080008081, 0x8000000000008080, 0x0000000080000001, 0x8000000080008008]

/-- Rotation of lane x + 5y. -/
def keccakRot : List Nat :=
  [0, 1, 62, 28, 27, 36, 44, 6, 55, 20, 3, 10, 43] ++ [25, 39, 41, 45, 15, 21, 8, 18, 2, 61, 56, 14]

/-- Lane i of the state. -/
def laneAt (a : List (BitVec 64)) (i : Nat) : BitVec 64 := a.getD i 0

/-- One round: theta, rho, pi, chi and iota. -/
def keccakRound (a : List (BitVec 64)) (rc : BitVec 64) : List (BitVec 64) :=
  let c := (List.range 5).map fun x => laneAt a x ^^^ laneAt a (x + 5) ^^^ laneAt a (x + 10) ^^^ laneAt a (x + 15) ^^^ laneAt a (x + 20)
  let d := (List.range 5).map fun x => laneAt c ((x + 4) % 5) ^^^ (laneAt c ((x + 1) % 5)).rotateLeft 1
  let t := (List.range 25).map fun i => laneAt a i ^^^ laneAt d (i % 5)
  let b := (List.range 25).map fun i =>
    let x := i % 5
    let y := i / 5
    let j := (x + 3 * y) % 5 + 5 * x
    (laneAt t j).rotateLeft (keccakRot.getD j 0)
  let e := (List.range 25).map fun i =>
    let y := i / 5 * 5
    laneAt b i ^^^ (~~~(laneAt b ((i % 5 + 1) % 5 + y)) &&& laneAt b ((i % 5 + 2) % 5 + y))
  match e with
  | x :: xs => (x ^^^ rc) :: xs
  | [] => []

/-- Keccak-f[1600]. -/
def keccakF (a : List (BitVec 64)) : List (BitVec 64) := keccakRc.foldl keccakRound a

/-- Adds one block of `rate` bytes to the state. -/
def keccakAbsorb (rate : Nat) (a : List (BitVec 64)) (blk : List Byte) : List (BitVec 64) :=
  keccakF ((a.zip (List.range 25)).map fun p =>
    if p.2 < rate / 8 then p.1 ^^^ BitVec.ofNat 64 (leNat ((blk.drop (8 * p.2)).take 8)) else p.1)

/-- The message padded to whole blocks: 0x1F, zeros, and 0x80 in the last byte. -/
def shakePad (rate : Nat) (m : List Byte) : List Byte :=
  let n := rate - m.length % rate
  if n = 1 then m ++ [0x9F] else m ++ [0x1F] ++ List.replicate (n - 2) 0 ++ [0x80]

/-- The output blocks, `n` of them. -/
def shakeSqueeze (rate : Nat) : Nat → List (BitVec 64) → List Byte
  | 0, _ => []
  | n + 1, a => (a.take (rate / 8)).flatMap (fun l => toLE 8 l.toNat) ++ shakeSqueeze rate n (keccakF a)

/-- A SHAKE of FIPS 202 by its rate, `n` bytes. -/
def shake (rate n : Nat) (m : List Byte) : List Byte :=
  let p := shakePad rate m
  let a := (chunksOf rate (p.length + 1) p).foldl (keccakAbsorb rate) (List.replicate 25 0)
  (shakeSqueeze rate (n / rate + 1) a).take n

/-- SHAKE256 of a message, `n` bytes. -/
def shake256 (n : Nat) (m : List Byte) : List Byte := shake 136 n m

/-- SHAKE128, which FIPS 204 draws its matrix from. -/
def shake128 (n : Nat) (m : List Byte) : List Byte := shake 168 n m

/-- The 64-byte digest of R84 and R498. -/
def digest64 (m : List Byte) : List Byte := shake256 64 m

end Sys2Proof.Machine
end

