-- ==== Sys2Proof/Machine/MlDsa.lean ====
section
/-! DEFINITION. ML-DSA-65 by FIPS 204, which the spec names for every signature (R498), and signature blocks (R84, R499). The standard is taken from outside the spec
(PRESUMED: log entry 8). A polynomial is the list of its 256 coefficients modulo q. -/

namespace Sys2Proof.Machine

/-- The modulus q. -/
def mlQ : Nat := 8380417

/-- A value reduced to the symmetric range of a modulus: above -m/2, at most m/2. -/
def symMod (m : Nat) (a : Int) : Int := if a % m > m / 2 then a % m - m else a % m

/-- A value as a coefficient. -/
def toCoeff (a : Int) : Nat := (a % mlQ).toNat

/-! ### The number-theoretic transform -/

/-- A byte's bits in reverse order. -/
def bitRev8 (i : Nat) : Nat := (List.range 8).foldl (fun a k => 2 * a + i / 2 ^ k % 2) 0

/-- The points at which a transform evaluates, in its order: the odd powers of the 512th root of unity 1753. -/
def nttPoints : List Nat := (List.range 256).map fun i => 1753 ^ (2 * bitRev8 i + 1) % mlQ

/-- The transform: the polynomial's value at each point. -/
def ntt (w : List Nat) : List Nat := nttPoints.map fun z => w.foldr (fun c acc => (c + z * acc) % mlQ) 0

/-- Coefficients from sums of the values times growing powers of the inverse points. -/
def invNttGo (inv : List Nat) : Nat → List Nat → List Nat
  | 0, _ => []
  | n + 1, v => 8347681 * v.foldl (· + ·) 0 % mlQ :: invNttGo inv n (List.zipWith (fun a b => a * b % mlQ) v inv)

/-- The inverse transform; 8347681 is the inverse of 256. -/
def invNtt (v : List Nat) : List Nat := invNttGo (nttPoints.map fun z => z ^ 511 % mlQ) 256 v

def polyAdd (a b : List Nat) : List Nat := List.zipWith (fun x y => (x + y) % mlQ) a b
def polySub (a b : List Nat) : List Nat := List.zipWith (fun x y => (x + mlQ - y) % mlQ) a b
/-- The product of two transforms. -/
def polyMul (a b : List Nat) : List Nat := List.zipWith (fun x y => x * y % mlQ) a b

/-- A matrix of transforms times a vector of transforms. -/
def matVec (m : List (List (List Nat))) (v : List (List Nat)) : List (List Nat) :=
  m.map fun row => (List.zipWith polyMul row v).foldl polyAdd (List.replicate 256 0)

/-! ### Rounding -/

/-- Power2Round with d = 13: high part, low part. -/
def power2Round (r : Nat) : Nat × Int :=
  let r0 := symMod 8192 r
  ((((r : Int) - r0) / 8192).toNat, r0)

/-- Decompose with 2 times gamma2 = 523,776: high part, low part. -/
def decompose (r : Nat) : Nat × Int :=
  let r0 := symMod 523776 r
  if (r : Int) - r0 = mlQ - 1 then (0, r0 - 1) else ((((r : Int) - r0) / 523776).toNat, r0)

/-- UseHint. -/
def useHint (h : Bool) (r : Nat) : Nat :=
  let d := decompose r
  if !h then d.1 else if d.2 > 0 then (d.1 + 1) % 16 else (d.1 + 15) % 16

/-- The largest absolute value among the coefficients of some polynomials. -/
def maxNorm (v : List (List Nat)) : Nat := (v.flatMap id).foldl (fun m c => max m (symMod mlQ c).natAbs) 0

/-! ### Encodings -/

/-- Values of `w` bits each, packed from the low bit on. -/
def packBits (w : Nat) (xs : List Nat) : List Byte := toLE (w * xs.length / 8) (xs.foldr (fun x a => x + 2 ^ w * a) 0)

/-- 256 values of `w` bits each. -/
def unpackBits (w : Nat) (bs : List Byte) : List Nat := (List.range 256).map fun i => leNat bs / 2 ^ (w * i) % 2 ^ w

/-- The places of a polynomial's hints. -/
def hintPlaces (h : List Bool) : List Nat := (h.zip (List.range 256)).filterMap fun p => if p.1 then some p.2 else none

/-- HintBitPack with omega = 55. -/
def packHints (hs : List (List Bool)) : List Byte :=
  let ps := hs.flatMap hintPlaces
  let ends := (List.range 6).map fun i => ((hs.take (i + 1)).flatMap hintPlaces).length
  (ps ++ List.replicate (55 - ps.length) 0 ++ ends).map (BitVec.ofNat 8)

/-- Whether places rise. -/
def rising : List Nat → Bool
  | a :: b :: t => decide (a < b) && rising (b :: t)
  | _ => true

/-- HintBitUnpack: none for a form that the packing does not make. -/
def unpackHints (y : List Byte) : Option (List (List Bool)) :=
  let ps := y.map (·.toNat)
  let ends := (List.range 6).map fun i => ps.getD (55 + i) 0
  let starts := 0 :: ends
  let part := fun i => (ps.take (ends.getD i 0)).drop (starts.getD i 0)
  if (List.range 6).all (fun i => decide (starts.getD i 0 ≤ ends.getD i 0) && decide (ends.getD i 0 ≤ 55) && rising (part i)) &&
      ((ps.take 55).drop (ends.getD 5 0)).all (· == 0) then
    some ((List.range 6).map fun i => (List.range 256).map (fun n => (part i).contains n))
  else none

/-! ### Sampling -/

/-- A coefficient of the matrix from three bytes. -/
def coeffFromThree (b : List Byte) : Option Nat :=
  match b with
  | [x, y, z] => let v := x.toNat + 256 * y.toNat + 65536 * (z.toNat % 128)
                 if v < mlQ then some v else none
  | _ => none

/-- RejNTTPoly: 336 tries, of which all but a few are taken. -/
def rejNtt (seed : List Byte) : List Nat := ((chunksOf 3 337 (shake128 1008 seed)).filterMap coeffFromThree).take 256

/-- RejBoundedPoly with eta = 4. -/
def rejBounded (seed : List Byte) : List Nat :=
  (((shake256 680 seed).flatMap fun b => [b.toNat % 16, b.toNat / 16]).filterMap fun (n : Nat) => if n < 9 then some (toCoeff (4 - (n : Int))) else none).take 256

/-- ExpandA: six rows of five transforms. -/
def expandA (rho : List Byte) : List (List (List Nat)) :=
  (List.range 6).map fun r => (List.range 5).map fun c => rejNtt (rho ++ [BitVec.ofNat 8 c, BitVec.ofNat 8 r])

/-- ExpandMask with gamma1 = 2^19. -/
def expandMask (seed : List Byte) (kappa : Nat) : List (List Nat) :=
  (List.range 5).map fun r => (unpackBits 20 (shake256 640 (seed ++ toLE 2 (kappa + r)))).map fun v => toCoeff ((2 ^ 19 : Int) - v)

/-- SampleInBall's places from a stream of bytes, for the coefficients from `i` on; `h` holds the signs. -/
def ballGo (h : Nat) : List Byte → Nat → List Nat → List Nat
  | [], _, c => c
  | j :: js, i, c =>
    if 256 ≤ i then c
    else if j.toNat ≤ i then
      ballGo h js (i + 1) ((c.set i (c.getD j.toNat 0)).set j.toNat (if h.testBit (i - 207) then mlQ - 1 else 1))
    else ballGo h js i c

/-- SampleInBall with tau = 49. -/
def sampleInBall (seed : List Byte) : List Nat :=
  let b := shake256 272 seed
  ballGo (leNat (b.take 8)) (b.drop 8) 207 (List.replicate 256 0)

/-! ### Keys, signing and verification -/

/-- A key pair as its seed makes it. -/
structure MlKey where
  rho : List Byte
  kk : List Byte
  s1 : List (List Nat)
  s2 : List (List Nat)
  t0 : List (List Nat)
  pub : List Byte
deriving DecidableEq, Repr

/-- ML-DSA.KeyGen from a 32 B seed. -/
def mldsaKey (seed : List Byte) : MlKey :=
  let h := shake256 128 (seed ++ [6, 5])
  let rho := h.take 32
  let rho1 := (h.drop 32).take 64
  let s1 := (List.range 5).map fun r => rejBounded (rho1 ++ toLE 2 r)
  let s2 := (List.range 6).map fun r => rejBounded (rho1 ++ toLE 2 (r + 5))
  let t := List.zipWith polyAdd ((matVec (expandA rho) (s1.map ntt)).map invNtt) s2
  { rho := rho, kk := h.drop 96, s1 := s1, s2 := s2, t0 := t.map (·.map fun c => toCoeff (power2Round c).2),
    pub := rho ++ t.flatMap (fun p => packBits 10 (p.map fun c => (power2Round c).1)) }

/-- The 1,952 B public key of a seed. -/
def mldsaPublicKey (seed : List Byte) : List Byte := (mldsaKey seed).pub

/-- The message representative of a 64 B digest with an empty context string. -/
def mldsaMu (pub digest : List Byte) : List Byte := shake256 64 (shake256 64 pub ++ [0, 0] ++ digest)

/-- The commitment's high parts, packed. -/
def packW1 (w : List (List Nat)) : List Byte := w.flatMap (packBits 4)

/-- One attempt of signing: the signature, or none where it is rejected. -/
def mldsaTry (k : MlKey) (a : List (List (List Nat))) (mu : List Byte) (y : List (List Nat)) : Option (List Byte) :=
  let w := (matVec a (y.map ntt)).map invNtt
  let ct := shake256 48 (mu ++ packW1 (w.map (·.map fun r => (decompose r).1)))
  let c := ntt (sampleInBall ct)
  let times := fun (v : List (List Nat)) => v.map fun p => invNtt (polyMul c (ntt p))
  let z := List.zipWith polyAdd y (times k.s1)
  let r := List.zipWith polySub w (times k.s2)
  let ct0 := times k.t0
  let low := (r.flatMap id).foldl (fun m x => max m (decompose x).2.natAbs) 0
  let h := List.zipWith (fun u v => List.zipWith (fun x e => (decompose ((x + e) % mlQ)).1 != (decompose x).1) u v) r ct0
  if maxNorm z ≥ 2 ^ 19 - 196 ∨ low ≥ 261888 - 196 ∨ maxNorm ct0 ≥ 261888 ∨ (h.flatMap hintPlaces).length > 55 then none
  else some (ct ++ z.flatMap (fun p => packBits 20 (p.map fun x => ((2 ^ 19 : Int) - symMod mlQ x).toNat)) ++ packHints h)

/-- Attempts until one is taken; FIPS 204 lets the count be bounded by 814. -/
def mldsaLoop (k : MlKey) (a : List (List (List Nat))) (mu seed : List Byte) : Nat → Nat → List Byte
  | 0, _ => []
  | n + 1, kappa =>
    match mldsaTry k a mu (expandMask seed kappa) with
    | some sig => sig
    | none => mldsaLoop k a mu seed n (kappa + 5)

/-- The signature of a 64 B digest under a seed's key, hedged with 32 B of randomness. -/
def mldsaSign (seed digest rnd : List Byte) : List Byte :=
  let k := mldsaKey seed
  let mu := mldsaMu k.pub digest
  mldsaLoop k (expandA k.rho) mu (shake256 64 (k.kk ++ rnd ++ mu)) 814 0

/-- Whether a signature of a 64 B digest verifies under a public key. -/
def mldsaVerify (pub digest sig : List Byte) : Bool :=
  decide (pub.length = 1952) && decide (sig.length = 3309) &&
  match unpackHints (sig.drop 3248) with
  | none => false
  | some h =>
    let t1 := (chunksOf 320 7 (pub.drop 32)).map (unpackBits 10)
    let ct := sig.take 48
    let z := (chunksOf 640 6 ((sig.drop 48).take 3200)).map fun b => (unpackBits 20 b).map fun v => toCoeff ((2 ^ 19 : Int) - v)
    let c := ntt (sampleInBall ct)
    let az := matVec (expandA (pub.take 32)) (z.map ntt)
    let w := (List.zipWith polySub az (t1.map fun p => polyMul c (ntt (p.map (· * 8192))))).map invNtt
    decide (maxNorm z < 2 ^ 19 - 196) &&
      ct == shake256 48 (mldsaMu pub digest ++ packW1 (List.zipWith (fun hp wp => List.zipWith useHint hp wp) h w))

/-! ### Signature blocks (R84, R499) -/

/-- 32 bytes of the entropy source (R498): free bytes by a place in the draws, which the state's counters give. -/
def entropy32 (draw : Nat) : List Byte := (List.range 32).map fun i => Config.entropy (32 * draw + i)

/-- A signature block under a seed's key over a digest: KEY_ID, signature, three zero bytes. -/
def signBlock (seed digest : List Byte) (draw : Nat) : List Byte :=
  digest64 (mldsaPublicKey seed) ++ mldsaSign seed digest (entropy32 draw) ++ List.replicate 3 0

/-- Whether a signature block over a digest verifies under a public key (R84, R499): KEY_ID, signature, three zero bytes. -/
def blockOk (pk digest block : List Byte) : Bool :=
  decide (block.length = 3376) && block.drop (64 + 3309) == List.replicate 3 0 && block.take 64 == digest64 pk &&
    mldsaVerify pk digest ((block.drop 64).take 3309)

end Sys2Proof.Machine
end

