-- ==== Sys2Proof/Machine/State.lean ====
section
/-! DEFINITION. The state of the panel: every register, memory, queue, mode and pin the spec gives it, as plain data.
A `Tab` holds only the entries that differ from its default. Default values are the reset values; where the spec gives none
the value is DESIGN CHOICE (log entry 5). -/

namespace Sys2Proof.Machine

/-- Why the model stops with a fault. -/
inductive Fault where
  /-- Raised by no meaning: an event that names a unit beyond the counts of Tables 1.1 to 1.4, Table 6.2 and Table 8.1 does not happen and changes
  nothing (log entry 102). Safe: no run stops with it. -/
  | noSuchUnit
deriving DecidableEq, Repr

/-- Why the model refuses a command. -/
inductive Refusal where
  /-- Raised by an arm of `exec` whose command has no meaning yet. Safe: the model stops. -/
  | notModelled (mnemonic : String)
deriving DecidableEq, Repr

/-- Part numbers (R4, Table 9.3). -/
inductive Part where
  | gn2400x | gn2400l | gn2000
deriving DecidableEq, Repr

/-- Factory and security fuses (R466, Table 16.2). `phaseCurrent` is the table of R422 in A, keyed
(2 × site + cluster) × 2048 + MHz; `repairs` are the repaired SRAM rows, spared lanes and hard-repaired HBM rows, each as the unit, ACTION and DETAIL of
Table 14.4; `rom` is the starter's ROM, whose digest `starterDigest` fuses (R464), and `keys` the public keys that the hub holds beside the key identifiers (log entry
8); a key identifier's first byte is its lowest. `panelSerial` is the serial of R537; `certSerial`, `certFrom`, `certTo` and `certBlock` are what the issuer put into
the identity certificate (Table 16.3), and `deviceCaCert` is the device CA's. What manufacture sets and the spec does not give is DESIGN CHOICE (log entry 5). -/
structure Fuses where
  part : Part := .gn2400x
  stepping : BitVec 8 := 1
  retired : List Nat := []
  phaseCurrent : Tab Nat := []
  repairs : List (Nat × Nat × Nat) := []
  rom : List Byte := []
  deviceSecret : BitVec 256 := 0
  rootKeyId : BitVec 512 := 0
  fwKeyId0 : BitVec 512 := 0
  fwKeyId1 : BitVec 512 := 0
  factoryKeyId : BitVec 512 := 0
  starterDigest : BitVec 512 :=
    0xBEC4B7B3AC2E294086B49A47491C82FCF692B5679D0105CB00F2C0D8DDC45DD72F76D56E64270CB5821BB862EA52CD3F24EB3E74EB3F3B23138DA80B2BDDB946
  fwKey0Revoked : Bool := false
  rollback : BitVec 6 := 0
  keys : List (List Byte) := []
  panelSerial : List Byte := [0x49, 0x4D, 0x32, 0x36, 0x31, 0x34, 0x58, 0x30, 0x30, 0x30, 0x30, 0x31, 0x32, 0x33, 0x34, 0x35]
  certSerial : Nat := 0
  certFrom : Nat := 0
  certTo : Nat := 0
  certBlock : List Byte := []
  deviceCaCert : List Byte := []
deriving DecidableEq, Repr

/-- One defect-ledger entry (Table 14.4). -/
structure LedgerEntry where
  unit : Nat
  action : Nat
  source : Nat
  detail : Nat
  start : Nat
deriving DecidableEq, Repr

/-- One copy of the defect ledger (Table 14.3) with its signature block (R467). -/
structure Ledger where
  sequence : Nat := 0
  startCount : Nat := 0
  entries : List LedgerEntry := []
  block : List Byte := []
deriving DecidableEq, Repr

/-- The owner policy (Table 16.5) with its signature block (R509), in the shipped state by default. -/
structure Policy where
  owner : Option (List Byte) := none
  planKeys : Tab (List Byte) := []
  signedOnly : Bool := false
  policyCounter : Nat := 0
  debugCounter : Nat := 0
  block : List Byte := []
deriving DecidableEq, Repr

/-- A copy in the management flash. -/
inductive FlashCopy where
  | tolniA | ledgerA | ledgerB | policyA | policyB
deriving DecidableEq, Repr

/-- The management flash (R529): two copies each of Tolni, of the ledger and of the policy; `writing` is the copy that was written last, and the time of the
write (Table 17.9; log entry 83). -/
structure Flash where
  tolniA : List Byte := []
  tolniB : List Byte := []
  ledgerA : Ledger := {}
  ledgerB : Ledger := {}
  policyA : Policy := {}
  policyB : Policy := {}
  writing : Option (FlashCopy × Nat) := none
deriving DecidableEq, Repr

/-- The AUX domain and the power pins (R526): levels of AUX, PWR_OK, PANEL_RESET_N and PWR_SHDN_N, and the shutdown record
of R449 (unit id, reading in 1/16 °C, timebase). -/
structure Pins where
  aux : Bool := true
  pwrOk : Bool := false
  resetN : Bool := true
  shdnN : Bool := true
  shutdown : Option (Nat × Int × Nat) := none
deriving DecidableEq, Repr

/-- Where the running Tolni came from (R464, R508). -/
inductive BootSource where
  | none | copyA | copyB | recovery
deriving DecidableEq, Repr

/-- Bring-up (Table 9.4, Table 14.2). `running` and `done` hold (stage code, unit) pairs; `halt` the stage that halted it
(with `haltA` for Halt A); `began` holds each running stage's start, keyed code × 16 + unit; `ready` is READY. `resetTag` is the COMPUTE_RESET under way: its tag and
RETAIN_SRAM, and `resetDrain` its tick T until the routers reset at T + 2.1 ms (Table 14.7); `haltUnit` is the unit that the halted stage belongs to; `reread` says
that the host has rewritten slot 0's first bytes since the starter read them (R464); `agentFw` and `microcode` hold the good firmware blocks of each place in the
order of their arrival (R465); `clocksOff` says that the clusters' clocks are gated until the first tick after READY (Table 11.6). -/
structure Boot where
  startedAt : Int := 0
  running : List (Nat × Nat) := []
  done : List (Nat × Nat) := []
  halt : Option Nat := none
  haltA : Bool := false
  ready : Bool := false
  shown : Nat × Nat × Nat × Nat := (0, 4, 0, 0)
  tolniReady : Bool := false
  fwPatch : Nat := 0
  fwMinor : Nat := 0
  fwMajor : Nat := 0
  secVersion : Nat := 0
  source : BootSource := .none
  image : List Byte := []
  recovery : Bool := false
  began : Tab Nat := []
  blockTries : Tab Nat := []
  fuseOnly : Bool := false
  firstTick : Bool := false
  noGrid : Bool := false
  resetTag : Option (Nat × Bool) := none
  resetAt : Option Nat := none
  resetDrain : Option Nat := none
  haltUnit : Nat := 0
  reread : Bool := true
  agentFw : Tab (List (List Byte)) := []
  microcode : Tab (List (List Byte)) := []
  clocksOff : Bool := true
deriving DecidableEq, Repr

/-- The reference as the hub's monitor sees it (R390). -/
inductive RefState where
  | locked | holdover
deriving DecidableEq, Repr

/-- One die's clock state, by place (Table 7.1's sites, I/O dies, the hub): its timebase less the hub's in ns at the beacon of `slewFrom`, the offset `slew` that it
removes from then on, and its trim (R398, R399); whether its reference is locked, else it holds its output in holdover (R391, R392); the clock parent's place and the
forwarding depth, the neighbours whose reference has failed, and the separations of its crossing FIFOs that differ from four, keyed by input port × 8 + plane, 0x100
for the clock line (R395). -/
structure DieClock where
  offset : Int := 0
  slew : Int := 0
  slewFrom : Nat := 0
  locked : Bool := false
  trim : Int := 0
  parent : Nat := 0
  depth : Nat := 0
  failed : List Nat := []
  fifos : Tab Nat := []
deriving DecidableEq, Repr

/-- Time (R397, R402, R49 to R52, R390). `waiting` holds each stretch to apply with the time from
which a tick may apply it, in the order of those times; `trim` is the hub's rate trim in 0.001 ppm, `trimAt` when it changed and `trimOld` what it was before, `trimAcc` the part of a count that it
has gathered, in 10⁻⁹ (R399); `slew` is the offset still to remove, a count in a µs, the next at `slewAt` (R398, R400); `added` are the counts added less those withheld. -/
structure Clock where
  timebase : Nat := 0
  counting : Bool := false
  nextTick : Option Nat := none
  lastTick : Nat := 0
  tickCount : Nat := 0
  ticksThisSecond : Nat := 0
  stretch : Nat := 0
  waiting : List (Nat × Nat) := []
  ref : RefState := .locked
  refLostAt : Nat := 0
  refExpired : Bool := false
  trim : Int := 0
  trimAt : Nat := 0
  trimOld : Int := 0
  trimAcc : Int := 0
  slew : Int := 0
  slewAt : Nat := 0
  added : Int := 0
  dies : Tab DieClock := []
deriving DecidableEq, Repr

/-- A staged entry (Table 10.1). -/
structure StagedEntry where
  key : Nat
  op : Nat
  rsv : Nat
  value : Nat
deriving DecidableEq, Repr

/-- A commit whose tick is fixed (R378): the first at or after `tick`; `tag` names the COMMIT, none for a manager's message, whose `waits` says that the
manager's whole set changes a key of R72 (R382). -/
structure PendingCommit where
  entries : List StagedEntry
  tick : Nat
  tag : Option Nat
  waits : Bool := false
deriving DecidableEq, Repr

/-- Settings (R372, R377, R378): committed values that differ from the default, the staged set, the pending
commit, and one that a manager's message carries (R382). -/
structure Settings where
  committed : Tab Nat := []
  staged : List StagedEntry := []
  proofed : Bool := false
  pendingCommit : Option PendingCommit := none
  groupCommit : Option PendingCommit := none
deriving DecidableEq, Repr

/-- A ROUTES record (Table 2.10). -/
structure Route where
  id : Nat
  cls : Nat
  plane : Nat
  src : Nat
  dst : Nat
  kind : Nat
deriving DecidableEq, Repr

/-- A RESERVED_BUFFERS record. -/
structure ResBuf where
  die : Nat
  port : Nat
  plane : Nat
  flits : Nat
deriving DecidableEq, Repr

/-- A REDUCTION_TREES record. -/
structure RedTree where
  red : Nat
  die : Nat
  plane : Nat
  op : Nat
  fmt : Nat
  fanin : Nat
  inMask : Nat
  out : Nat
deriving DecidableEq, Repr

/-- A ROW_ALLOC record. -/
structure RowAlloc where
  mem : Nat
  resident : Nat
  used : Nat
deriving DecidableEq, Repr

/-- An HBM_LAYOUT record with, for an ALIASED region, its SIDE_B. -/
structure Region where
  id : Nat
  kind : Nat
  base : Nat
  len : Nat
  sideB : Option Nat
deriving DecidableEq, Repr

/-- The loaded plan (Tables 2.8 and 2.10). `image` holds its bytes, `tableAt` the frame table's offset. -/
structure Plan where
  planId : Nat
  groupPlanId : Nat
  gridClass : Nat
  zlPorts : Nat
  fFloor : Nat
  groupSize : Nat
  hbmBytes : Nat
  frameTicks : Nat
  guardCycles : Nat
  frames : Nat
  maxFrame : Nat
  seed : Nat
  digest : List Byte
  signer : List Byte
  signed : Bool
  image : List Byte
  tableAt : Nat
  routes : List Route
  buffers : List ResBuf
  trees : List RedTree
  rowAlloc : List RowAlloc
  regions : List Region
  overBudget : Bool := false
deriving DecidableEq, Repr

/-- An alias-table entry (R75); `swapped` when the committed view maps to SIDE_B. -/
structure Alias where
  base : Nat
  sideB : Nat
  len : Nat
  swapped : Bool
deriving DecidableEq, Repr

/-- Step states (Table 2.5, Table 9.11). -/
inductive StepState where
  | noPlan | idle | running | awaitCommit | failed | failedFinal
deriving DecidableEq, Repr

/-- The stages of a running step (02, Steps). -/
inductive StepPhase where
  | inputs | wait | frames | outputs
deriving DecidableEq, Repr

/-- A STEP_START descriptor (R64). -/
structure Descr where
  hostAddr : Nat
  offset : Nat
  len : Nat
  region : Nat
  rsv : Nat
deriving DecidableEq, Repr

/-- A fault that a running step raised (R216, R491): the frame, the status, the core index and DETAIL. -/
structure StepFault where
  frame : Nat
  status : Nat
  core : Nat
  detail : Nat
deriving DecidableEq, Repr

/-- The step (R64 to R72). `startAt` and `flip` are the times whose first tick at or after starts the frames or flips the alias table;
`faults` what this run has raised; `stop` the tick of a manager's stop order and `reports` the failures of other panels by slot (R61);
`lastOverrun` the slots, cores and frames of the cycle-limit overruns of the run that a replay repeats (R59); `clockRuns` successive runs with a clock overrun by
cluster unit (Table 15.1); `seq` and `acceptedAt` the command's place in the acceptance order and its time. -/
structure Step where
  state : StepState := .noPlan
  phase : StepPhase := .inputs
  stepIndex : Nat := 0
  frame : Nat := 0
  frameBase : Nat := 0
  inputs : List Descr := []
  outputs : List Descr := []
  autoCommit : Bool := false
  tag : Nat := 0
  opcode : Nat := 0
  startAt : Option Nat := none
  flip : Option Nat := none
  flipTag : Option Nat := none
  faults : List StepFault := []
  stop : Option Nat := none
  reports : List (Nat × StepFault) := []
  lastOverrun : List (Nat × Nat × Nat) := []
  clockRuns : Tab Nat := []
  replay : Bool := false
  seq : Nat := 0
  acceptedAt : Nat := 0
deriving DecidableEq, Repr

/-- The core faults of Table 5.12. -/
inductive CoreFaultKind where
  | protection | illegal | address | route | clockOverrun | cycleLimit
deriving DecidableEq, Repr

/-- A packet in the fabric (Table 7.2) with where it is: `place` is a site index p (0 to 155), 0x100 + I/O die number or
0x200 for the hub; `isLocal` when it waits at that place's local output; `fromPort` the input port there. A packet whose flits lie at several
places has an entry at each: `uid` is common to them, `gone` counts the flits that have left this place and `wait` gives the fabric cycle from which
each flit that waits here may leave. `core` is its sender (a core index; 0x10000 + I/O die × 64 + channel; 0x20000 + die for a sum; 0x30000 +
I/O die for a neighbour's packet), `pc` and `word` the instruction that made it, `fault` what a fault reply reports, `ends` the I/O dies between
which a TRANSIT packet crosses the panel and `vc` the virtual channel that awaits it (R320). `msg` numbers the instruction or event that made it among those of its
sender (R210). -/
structure Packet where
  routeId : Nat := 0
  typ : Nat := 0
  kind : Nat := 0
  cls : Nat := 0
  planned : Bool := false
  poison : Bool := false
  last : Bool := false
  src : Nat := 0
  dst : Nat := 0
  addr : Nat := 0
  drow : Nat := 0
  dm : Nat := 0
  dcore : Nat := 0
  dctr : Nat := 0
  tag : Nat := 0
  xferCount : Nat := 0
  xferId : Nat := 0
  plane : Nat := 0
  payload : List Byte := []
  core : Nat := 0
  place : Nat := 0
  fromPort : Nat := 0
  isLocal : Bool := false
  sideOnly : Bool := false
  pc : Nat := 0
  word : BitVec 64 := 0
  fault : Option CoreFaultKind := none
  uid : Nat := 0
  gone : Nat := 0
  wait : List Nat := []
  ends : Option (Nat × Nat) := none
  vc : Nat := 0
  msg : Nat := 0
deriving DecidableEq, Repr

/-- One loop level (R185). -/
structure Loop where
  lstart : Nat
  lend : Nat
  left : Nat
deriving DecidableEq, Repr

/-- The fault latch (R215). -/
structure FaultLatch where
  kind : CoreFaultKind
  pc : Nat
  word : BitVec 64
  frame : Nat
  cycle : Nat
deriving DecidableEq, Repr

/-- The latch of a receiving die's agent (R215): the sending core it names, the fault's kind, and the instruction that sent. -/
structure AgentLatch where
  core : Nat
  kind : CoreFaultKind
  pc : Nat
  word : BitVec 64
  frame : Nat
  cycle : Nat
deriving DecidableEq, Repr

/-- What a core is doing: clock-gated (R57), running, waiting on a counter (R171), draining after ENDF issued (R173), stopped
by a fault (R212), or held after a stop (R60). -/
inductive CoreMode where
  | gated | running | waiting (ctr value : Nat) | draining | faulted | held
deriving DecidableEq, Repr

/-- One weight buffer (R141, R142): the rows TWLOAD read, their format, the recorded flags, and the poison mark of what it holds (R230). -/
structure WBuf where
  valid : Bool := false
  fmt : Nat := 0
  sparse : Bool := false
  scaled : Bool := false
  values : List Byte := []
  metaRows : List Byte := []
  scales : List Byte := []
  zFlags : List Bool := []
  xFlags : List Bool := []
  bad : Bool := false
deriving DecidableEq, Repr

/-- One reply slot in use (R167): the request's kind, panel address, local row, counter, routes and word. -/
structure ReplySlot where
  isGet : Bool
  addr : Nat
  lrow : Nat
  ctr : Nat
  route : Nat
  pc : Nat
  word : BitVec 64
deriving DecidableEq, Repr

/-- One access of a row that an instruction under way will make (R223, R228): the cycle, read or write, the core's scratchpad or its cluster's
memory, the row, and the place of that row among the instruction's rows. -/
structure Act where
  cyc : Nat
  write : Bool
  cluster : Bool
  row : Nat
  key : Nat
deriving DecidableEq, Repr

/-- An instruction under way in a unit (R130): its word, the operands it read in its issue cycle (R184), the packets it will hand to the router,
the accesses still to come in the order of their cycles, the rows read so far, and the cycle in which it has finished. `slot` is the reply slot of an RGET
reply that lands (R222). -/
structure Job where
  unit : Nat
  word : BitVec 64
  g0 : BitVec 64 := 0
  g1 : BitVec 64 := 0
  bytes : List Byte := []
  bad : Bool := false
  wbuf : WBuf := {}
  sl : Nat := 0
  elem : Nat := 0
  packets : List Packet := []
  acts : List Act := []
  rows : Tab (List Byte × Bool) := []
  done : Nat := 0
  slot : Option Nat := none
deriving DecidableEq, Repr

/-- The issue scoreboard (R130 to R174): the cycle from which each register, unit, weight buffer and accumulator half is free.
Units: 0 scalar, 1 weight-load port, 2 engine, 3 output stage, 4 vector, 5 row mover, 6 remote agent, 7 fabric interface.
`incs` holds the landing cycles of each counter's increments in this frame (R171); `finish` the first cycle in which every unit has
finished and every local write has landed; `jobs` the instructions with accesses to come, in issue order. -/
structure Timing where
  g : Tab Nat := []
  v : Tab Nat := []
  unit : Tab Nat := []
  bufUsable : Tab Nat := []
  bufFed : Tab Nat := []
  halfDone : Tab Nat := []
  halfRead : Tab Nat := []
  convDone : Nat := 0
  incs : Tab (List Nat) := []
  finish : Nat := 0
  jobs : List Job := []
deriving DecidableEq, Repr

/-- One core (Table 4.1, Table 5.1). `overran` says that this frame's cycle limit was reached (R59). `acc` is keyed row × 64 + element; `accValid` lists the rows whose valid bit is set.
`vBad` and `accBad` list the v registers and accumulator rows that hold poisoned data (R230). -/
structure Core where
  g : Tab (BitVec 64) := []
  v : Tab (List Byte) := []
  ctr : Tab (BitVec 32) := []
  pc : Nat := 0
  loops : List Loop := []
  sl : BitVec 16 := 0xFFFF
  nv : Bool := false
  of : Bool := false
  wr : Bool := false
  latch : Option FaultLatch := none
  prog : List (BitVec 64) := []
  acc : Tab (BitVec 32) := []
  accValid : List Nat := []
  vBad : List Nat := []
  accBad : List Nat := []
  wbuf0 : WBuf := {}
  wbuf1 : WBuf := {}
  slots : Tab (Option ReplySlot) := []
  cycle : Nat := 0
  limit : Nat := 0
  frame : Nat := 0
  elem : Nat := 0
  mode : CoreMode := .gated
  overran : Bool := false
  timing : Timing := {}
deriving DecidableEq, Repr

/-- One cluster's clock and supply (Table 11.7, R403 to R409, R421). `point` none stands for the f_nom point of the profile
in force, `want` is a requested point, `lost` the lost phases, `floorOnly` a cluster that R437 keeps at f_floor, `held` one whose clock the
coolant-loss response holds, `phaseFails` the failed tests in succession of each phase (R421); `minMhz` to `holds` count the present second and `shown` holds the last
one's minimum, deferrals, droops and holds. -/
structure Cluster where
  point : Option Nat := none
  minMhz : Option Nat := none
  held : Bool := false
  dark : Bool := false
  deferrals : Nat := 0
  droops : Nat := 0
  holds : Nat := 0
  want : Option Nat := none
  lowered : Bool := false
  protective : Bool := false
  heldHot : Bool := false
  lost : List Nat := []
  shown : Nat × Nat × Nat × Nat := (0, 0, 0, 0)
  floorOnly : Bool := false
  phaseFails : Tab Nat := []
deriving DecidableEq, Repr

/-- One input held in a reduction entry (R280). -/
structure RedInput where
  dir : Nat
  bytes : List Byte
  drow : Nat
  dcore : Nat
  dctr : Nat
  poison : Bool
  core : Nat
deriving DecidableEq, Repr

/-- A row that has arrived and awaits landing (R226): the cycle in which it was whole, its sender and route, the core that its header names, the increment it
releases (core, counter), and the acknowledgement that leaves once it has landed. `msg` is its packet's. -/
structure Arrived where
  cycle : Nat
  row : Nat
  bytes : List Byte
  poison : Bool
  plane : Nat
  route : Nat
  sender : Nat
  waiter : Nat := 0
  notify : Option (Nat × Nat)
  ack : Option Packet
  msg : Nat := 0
deriving DecidableEq, Repr

/-- An increment that waits for rows of its sender and route to land: those whose `msg` is from `lo` up to, but not including, `hi` (R207, R210, R243). -/
structure Inc where
  core : Nat
  ctr : Nat
  route : Nat
  sender : Nat
  lo : Nat := 0
  hi : Nat := 0
deriving DecidableEq, Repr

/-- A request at an arbiter (R289): its normal requester, none for the high-priority one, what it belongs to, and the units not yet granted. -/
structure ArbReq where
  who : Option Nat
  key : Nat
  units : Nat
deriving DecidableEq, Repr

/-- A weighted-share arbiter (R288, R289): `left` counts the grant opportunities left in the window, `reqs` the requests with their progress. -/
structure Arbiter where
  ctr : Tab Int := []
  used : Nat := 0
  freeze : Bool := false
  left : Nat := 256
  reqs : List ArbReq := []
deriving DecidableEq, Repr

/-- The fabric (07). Stall counters are keyed (site × 5 + port) × 8 + plane, those of the map by logical die; TC0 counts by output, last winners by output and partition. `arrived`
is keyed by memory number: a core index, or 0x8000_0000 + cluster index; `lost` holds the planned packets discarded since the last tick, `refused` the
rows that a die refused; `landedAt` the cycle after each bank's last external landing, keyed memory × 32 + bank (R226), `served` the cycle after the
last request that each memory's agent served (R232), and `reads` each memory's reads from outside its cluster's units since the tick, by cycle and row (R221, R225). By output, `sentAt` is
the fabric cycle after its last flit and `stalledAt` the cycle up to which its stall cycles are counted (R294); by input partition, `freedAt` is the cycle after
its last flit left and `owed` holds the cycles in which freed credits come back (R268); `nextUid` numbers the next packet. -/
structure Fabric where
  packets : List Packet := []
  reds : Tab (List RedInput) := []
  tc0Out : Tab Nat := []
  tc0Inject : Tab Nat := []
  lastWin : Tab Nat := []
  stalls : Tab Nat := []
  stallMax : Tab Nat := []
  stallSum : Tab Nat := []
  mapTime : Nat := 0
  mapFrames : Nat := 0
  mapGrid : Nat := 0
  mapMax : Tab Nat := []
  mapSum : Tab Nat := []
  arbiters : Tab Arbiter := []
  arrived : Tab (List Arrived) := []
  incs : List Inc := []
  lost : List Packet := []
  refused : List Packet := []
  landedAt : Tab Nat := []
  served : Tab Nat := []
  reads : Tab (List (Nat × Nat)) := []
  sentAt : Tab Nat := []
  stalledAt : Tab Nat := []
  freedAt : Tab Nat := []
  owed : Tab (List Nat) := []
  nextUid : Nat := 0
deriving DecidableEq, Repr

/-- A planned-transfer descriptor (Tables 6.5 and 6.6) with the core that launched it. -/
structure Desc where
  sfmt : Nat
  dfmt : Nat
  rm : Nat
  sat : Bool
  ssc : Bool
  dsc : Bool
  cw : Bool
  notify : Bool
  count : Nat
  src : Nat
  dst : Nat
  scale : Nat
  cwAddr : Nat
  rate : Nat
  route : Nat
  core : Nat
  ctr : Nat
  rsv : Nat
  launcher : Nat
deriving DecidableEq, Repr

/-- A transfer under way: its completion word bits, its start, its first element's number (R240), the destination rows still to land, and the source
rows that have come from a row memory, by their place among the rows it asked for. -/
structure Running where
  desc : Desc
  nv : Bool := false
  of : Bool := false
  wr : Bool := false
  err : Nat := 0
  started : Nat := 0
  elem : Nat := 0
  left : Nat := 0
  rows : Tab (List Byte × Bool) := []
deriving DecidableEq, Repr

/-- One DMA channel (R236). -/
structure Channel where
  queue : List Desc := []
  running : Option Running := none
  elem : Nat := 0
deriving DecidableEq, Repr

/-- An open transfer at an ingress (R324). -/
structure InXfer where
  count : Nat
  got : Nat
  hasLast : Bool
  dcore : Nat
  dctr : Nat
  poison : Bool
deriving DecidableEq, Repr

/-- A packet that waits to leave by a port (R311, R319): its virtual channel, the flits already sent, and the port that they took. -/
structure Tx where
  vc : Nat
  pkt : Packet
  sent : Nat := 0
  port : Nat := 0
deriving DecidableEq, Repr

/-- One I/O die: its DMA channels, its cross-panel transfers (keyed route × 65536 + XFER_ID), the next XFER_ID to send and to
complete per route, the SENDs whose rows it is numbering (keyed route × 65536 + core: XFER_ID, rows, poison), TC3 packets that wait to cross the panel (with `fromPort` one more than the port and `vc` the channel that they came by), packets that wait for a
port (R319, R320), and whole packets that the coolant-loss response keeps in the receive buffers, by port and channel (R335). The entry numbered
12 holds the TC3 packets that the hub itself makes. -/
structure IoDie where
  channels : Tab Channel := []
  ingress : Tab (Option InXfer) := []
  egressNext : Tab Nat := []
  egressOpen : Tab (Option (Nat × Nat × Bool)) := []
  ingressNext : Tab Nat := []
  tc3In : List Packet := []
  txWait : List Tx := []
  rxWait : List (Nat × Nat × Packet) := []
deriving DecidableEq, Repr

/-- One HBM stack (R251): temperature in 1/16 °C, double refresh, self-refresh, invalid-readout start. -/
structure Stack where
  temp : Int := 0
  valid : Bool := false
  invalidSince : Option Nat := none
  doubled : Bool := false
  selfRefresh : Bool := false
  hotSince : Option Nat := none
  hardRun : Nat := 0
deriving DecidableEq, Repr

/-- One Zhenlink port (Tables 8.3, 8.5, 8.6; R311 to R317). `replayBuf` holds unacknowledged flits (sequence, virtual channel, bytes),
`resent` those being resent, `rx` the bytes of each channel's unfinished packet, `charges` the replays of each lane, `failRun` failures in a
row, `challenge` the identity challenge sent and its time, `reply` the last identity reply made; `held` counts the flits in each channel's receive
buffer, `challengeHeld` says that the challenge waits for the end of the coolant-loss response (R335), `owed` the freed flits whose credits have not gone back (R317), and `ctl` is the last control word sent, without SEQ and CRC. -/
structure Port where
  state : Nat := 0
  width : Nat := 0
  laneRetired : BitVec 8 := 0
  peerSlot : Nat := 0
  delayNs : Nat := 0
  peerPort : Nat := 0
  replays : Nat := 0
  txSeq : Nat := 0
  txAck : Nat := 0
  replayBuf : List (Nat × Nat × List Byte) := []
  resent : List (Nat × Nat × List Byte) := []
  rxNext : Nat := 0
  nak : Bool := false
  credits : Tab Nat := []
  rx : Tab (List Byte) := []
  charges : Tab (List Nat) := []
  failRun : Nat := 0
  challenge : Option (List Byte × Nat) := none
  challengeHeld : Bool := false
  reply : List Byte := []
  retryAt : Option Nat := none
  held : Tab Nat := []
  owed : Tab Nat := []
  ctl : Nat := 0
deriving DecidableEq, Repr

/-- A completion or event record (Table 9.15). `noIrq` is the command's flag; `fault` marks a fault event; `seq` is the command's place in
the acceptance order, 0 in an event. -/
structure Rec where
  opcode : Nat
  tag : Nat
  flags : Nat
  status : Nat
  slot : Nat
  detail : Nat
  timebase : Nat
  xferWord : Nat
  result : Nat
  noIrq : Bool
  fault : Bool
  seq : Nat := 0
deriving DecidableEq, Repr

/-- The host link and window (Tables 9.2 to 9.7). `slots` is keyed by byte offset from 0x1000; `out` holds the frames, by virtual channel, that wait for room in
the link's replay buffer (Table 9.1). -/
structure HostPort where
  linkUp : Bool := false
  width : Nat := 8
  lanes : BitVec 8 := 0
  link : Port := {}
  retrained : Bool := false
  ownedWrite : Bool := false
  badAccess : Bool := false
  slots : Tab Byte := []
  acceptQ : List Nat := []
  readData : List Byte := []
  out : List (Nat × List Byte) := []
deriving DecidableEq, Repr

/-- The completion log (Table 9.14). `count` numbers the records since ENABLE rose; `waiting` holds records not yet written. -/
structure Log where
  base : Nat := 0
  prodAddr : Nat := 0
  enable : Bool := false
  cons : BitVec 32 := 0
  count : BitVec 32 := 0
  lost : Nat := 0
  waiting : List Rec := []
deriving DecidableEq, Repr

/-- The interrupt block (Table 9.18) and the records not yet signalled (R364). -/
structure Irq where
  enable : Bool := false
  coalesce : Nat := 0
  holdoffUs : Nat := 0
  vector : Nat := 0
  pendingLog : Bool := false
  pendingFault : Bool := false
  unsignalled : List (Nat × Bool) := []
  faultDue : Bool := false
  sent : List Nat := []
deriving DecidableEq, Repr

/-- An accepted command (Table 9.7) with its payload and its place in the acceptance order (R347). -/
structure Cmd where
  opcode : Nat
  tag : Nat
  flags : Nat
  len : Nat
  payAddr : Nat
  dest : Nat
  payload : List Byte
  seq : Nat := 0
deriving DecidableEq, Repr

/-- One piece of a host-requested transfer (R245): its panel range in bytes and elements, whether it is running, and the host channel that runs it. -/
structure Piece where
  addr : Nat
  first : Nat
  count : Nat
  running : Bool
  word : Nat
  chan : Nat := 0
  done : Nat := 0
deriving DecidableEq, Repr

/-- A transfer-lane command under way (R350, R354): the pieces to come, the words of
its pieces with their first elements, the status so far, and the host bytes moved. -/
structure Xfer where
  cmd : Cmd
  write : Bool
  hostAddr : Nat
  panelAddr : Nat
  count : Nat
  hfmt : Nat
  pfmt : Nat
  rm : Nat
  sat : Bool
  pieces : List Piece
  words : List (Nat × Nat)
  status : Nat
  detail : Nat
  moved : Nat := 0
deriving DecidableEq, Repr

/-- Commands in flight (R348), the control lane's queue (R350) and the command that has held it since it started, the transfer lane and
the commands that wait for it, retrain commands with the ports they name, the commands accepted so far, and the tags of those relayed to
another panel (R352); `loading` is the tag of the PLAN_LOAD that has begun writing (R85, Table 13.4). -/
structure Cmds where
  inflight : List Cmd := []
  lane : List Cmd := []
  holding : Option Cmd := none
  xfers : List Xfer := []
  xferQueue : List Cmd := []
  retrainTags : List (Nat × Nat) := []
  accepted : Nat := 0
  relayed : List Nat := []
  loading : Option Nat := none
deriving DecidableEq, Repr

/-- An entry of the unit state table (Table 10.8, Table 10.11). -/
structure UnitEntry where
  state : Nat := 0
  source : Nat := 0
  since : Nat := 0
deriving DecidableEq, Repr

/-- A count entry (R481): the times of its events within the last 24 h. -/
structure CountEntry where
  unit : Nat
  code : Nat
  times : List Nat
deriving DecidableEq, Repr

/-- An error record (Table 15.4). -/
structure ErrRec where
  unit : Nat
  code : Nat
  cls : Nat
  timebase : Nat
  count : Nat
  seq : Nat
  stepIndex : Nat
  frame : Nat
  cycle : Nat
  location : Nat
  aux : Nat
  slot : Nat
  reporter : Nat
  flags : Nat
deriving DecidableEq, Repr

/-- Units and errors (10 R384 to R388, 15). `due` holds changes that apply at the next tick (unit, state, source); `suspects`
the units under settlement with the time of the mark and the unit the probe found (R387); `atOnce` units retired before their tick (R386); `expired` sites derated
for 24 h (R423); `repaired` the keys of the rows and lanes that a repair in effect has replaced (R469, R472); `permanent` the unit addresses whose faults have become permanent since the panel start (R479). -/
structure Units where
  table : Tab UnitEntry := []
  version : Nat := 0
  versionTick : Nat := 0
  marks : List Nat := []
  due : List (Nat × Nat × Nat) := []
  suspects : List (Nat × Nat × Option Nat) := []
  counts : List CountEntry := []
  errors : List ErrRec := []
  dropped : Nat := 0
  seq : Nat := 0
  raised : Bool := false
  ledger : Ledger := {}
  badRows : List Nat := []
  mapCols : Tab Nat := []
  mapRows : List Nat := []
  gridClass : Nat := 0
  deratedAt : Tab Nat := []
  atOnce : List Nat := []
  expired : List Nat := []
  permanent : List Nat := []
  repaired : List Nat := []
deriving DecidableEq, Repr

/-- An energy record (Table 12.8). -/
structure EnergyRec where
  start : Nat
  energy : Nat
  ceiling : Nat
  peak : Nat
  secondsOver : Nat
  profile : Nat
  flags : Nat
  maxStretch : Nat
  railEnergy : Nat
deriving DecidableEq, Repr

/-- A second that has passed, as R430 looks back at it: its intake and rail averages, its demand and its effective ceiling. -/
structure PastSecond where
  pin : Nat
  rail : Nat
  demand : Nat
  ceiling : Option Nat
deriving DecidableEq, Repr

/-- The power controller (12). Converters are keyed segment × 128 + address. `zones` counts polls below 1,200 A since R431 acted;
`warnAt` holds IOUT_OC_WARN_LIMIT of each converter in A (R417); `demand` is the stretch demand, `overRun` counts seconds of R427; `recent` holds each converter's readings of the last 60 s: time, power, current; `past` the last 60 whole seconds (R430); `cleared` the
CLEAR_FAULTS sent to each converter (Table 12.3); the fields from `minuteStart` on form the minute's record. -/
structure Power where
  intake : List Nat := []
  power : Tab Nat := []
  current : Tab Nat := []
  missing : Tab Nat := []
  recent : Tab (List (Nat × Nat × Nat)) := []
  past : List PastSecond := []
  cleared : Tab Nat := []
  sumPin : Nat := 0
  sumRail : Nat := 0
  polls : Nat := 0
  lastRail : Nat := 0
  estimated : Bool := false
  pin : Nat := 0
  rail : Nat := 0
  demand : Nat := 0
  overRun : Nat := 0
  reduction : Bool := false
  reductionThermal : Bool := false
  profile : Nat := 0
  lastSecond : Nat := 0
  minuteStart : Nat := 0
  seconds : Nat := 0
  energy : Nat := 0
  railEnergy : Nat := 0
  ceiling : Nat := 0
  peak : Nat := 0
  overCount : Nat := 0
  worstProfile : Nat := 0
  minuteFlags : Nat := 0
  maxStretch : Nat := 0
  records : List EnergyRec := []
  zones : Tab (Option Nat) := []
  noticed : List Nat := []
  warnAt : Tab Nat := []
deriving DecidableEq, Repr

/-- A sensor pair (R436, R437), in 1/16 °C; keyed by cluster index, 288 + I/O die, or 300 for the hub. `substituted` says that R437
gives its governed reading; `hotSince` runs while R439 counts it hot; `hardRun` counts successive samples at the hard limit. -/
structure Pair where
  primary : Option Int := none
  secondary : Option Int := none
  differSince : Option Nat := none
  invalidSince : Option Nat := none
  fault : Bool := false
  substituted : Bool := false
  governed : Int := 0
  hotSince : Option Nat := none
  hardRun : Nat := 0
  countedHot : Bool := false
deriving DecidableEq, Repr

/-- The thermal controller (13). θ and the θs values are in 10⁻⁹ °C/kW. `tdZeroFrom` is the last update with a
demand, `exceed` counts updates of R440, `exitFrom` the time since which R447's conditions hold; `history` holds (timebase, highest governed cluster reading, rail power). -/
structure Thermal where
  pairs : Tab Pair := []
  pulses : Nat := 0
  flow : Nat := 0
  lastPulse : Nat := 0
  inlet : Option Int := none
  outlet : Option Int := none
  inletBad : Bool := false
  inletSum : Int := 0
  inletCount : Nat := 0
  hotSum : Int := 0
  samples : Nat := 0
  td : Nat := 0
  exceed : Nat := 0
  tdZeroFrom : Nat := 0
  tdAt : Nat := 0
  lastSecond : Nat := 0
  thetas : List Int := []
  theta : Option Int := none
  capT : Option Nat := none
  armed : Bool := false
  active : Bool := false
  heldProfile : Option Nat := none
  heldMode : Option Nat := none
  gatedTick : Bool := false
  exitFrom : Option Nat := none
  history : List (Nat × Int × Nat) := []
  noticed : List Nat := []
deriving DecidableEq, Repr

/-- Security (16): the policy in use, the debug scope, the attestation count and the engine firewall. `halted` says that a factory unlock has
halted the cores, `factoryOpen` that one has ended the wait of R456, and `tdo` is what DBG_TDO carried last (R513, R530). `mailbox` holds the engines'
management mailboxes, keyed engine × 4096 + offset, `laneRegs` their lane, equalisation and optical power registers, keyed address × 8 + engine, `sideband` what the last
read of an engine answered (R516), and `refusedAt` each engine's refusals of the last second (R517). -/
structure Security where
  policy : Policy := {}
  shippedUsed : Bool := false
  debugScope : Nat := 0
  attestSeq : Nat := 0
  refusals : Tab Nat := []
  transactions : Tab Nat := []
  refusedAt : Tab (List Nat) := []
  msWindow : Nat := 0
  closed : List Nat := []
  halted : Bool := false
  tdo : List Byte := []
  factoryOpen : Bool := false
  mailbox : Tab Byte := []
  laneRegs : Tab Byte := []
  sideband : List Byte := []
deriving DecidableEq, Repr

/-- A state-load window (R336). -/
structure Window where
  base : Nat
  len : Nat
  slots : List Nat
deriving DecidableEq, Repr

/-- A TC3 transfer being received (R326), rows held until it completes; `hasLast` says that its LAST has come. -/
structure Tc3Rx where
  count : Nat
  got : Nat
  hasLast : Bool := false
  firstTick : Nat
  rows : List (Nat × List Byte × Bool)
deriving DecidableEq, Repr

/-- An open transfer of a GROUP_COPY: its XFER_ID, its first unit and its count of units, how often it has been resent, and the count of ticks when it
was sent last (R326). -/
structure OpenXfer where
  id : Nat
  first : Nat
  units : Nat
  resends : Nat
  sentTick : Nat
deriving DecidableEq, Repr

/-- A GROUP_COPY under way (R356): its open transfers, bytes acknowledged, rows refused. -/
structure Copy where
  tag : Nat
  slot : Nat
  opened : List OpenXfer
  acked : Nat
  refused : Bool
deriving DecidableEq, Repr

/-- The manager's group-wide values, as its last beacon gave them (R382): FRAME_TICKS, GUARD_CYCLES, ENVELOPE_STRETCH and the stretch. -/
structure GroupValues where
  frameTicks : Nat
  guardCycles : Nat
  envelopeStretch : Nat
  stretch : Nat
deriving DecidableEq, Repr

/-- A worker's last health report (Table 8.11): its step state, port status words, and count entries as unit, code and count. -/
structure HealthRep where
  state : Nat := 0
  ports : List Nat := []
  counts : List (Nat × Nat × Nat) := []
deriving DecidableEq, Repr

/-- The group (08 R326 to R337, 11 R400). `firstBeacon` holds the stamp and this panel's count at the first beacon of those that the rate is taken from (R399), `manager` the
manager's slot, `values` its group-wide values, `joining` set until the tick at which a worker that has joined takes them; `live` says that the group's
step runs, and `leftAt` when it left RUNNING (R72); `health` holds each worker's last report; `nextXfer` numbers the transfers to a hub and `rxNext` is the
next to complete from one (R326). `sentAt` holds the time of each message in `sent` (Table 8.7), `handed` how many of them are packets of the fabric (R260), `profiles` the profile in force on each worker, and `valuesAt` the
tick at which this panel last changed a group-wide value by the manager's order. -/
structure Group where
  joined : List Nat := []
  selfJoined : Bool := false
  beacons : Nat := 0
  lastBeacon : Option Nat := none
  stepped : Bool := false
  epoch : Option Nat := none
  rateOk : Bool := true
  managerLost : Bool := false
  stretch : Tab Nat := []
  window : Option Window := none
  hubRx : List Packet := []
  tc3Rx : Tab (Option Tc3Rx) := []
  nextXfer : Tab Nat := []
  rxNext : Tab Nat := []
  copies : List Copy := []
  sent : List GroupMsg := []
  sentAt : List Nat := []
  handed : Nat := 0
  gathered : List Nat := []
  healthAt : Tab Nat := []
  loadWait : Option (Nat × List (Nat × Nat × Nat)) := none
  images : List (Nat × List Byte) := []
  done : List Nat := []
  firstBeacon : Option (Int × Int) := none
  manager : Nat := 0
  values : Option GroupValues := none
  valuesAt : Nat := 0
  profiles : Tab Nat := []
  joining : Bool := false
  live : Bool := false
  leftAt : Nat := 0
  health : Tab HealthRep := []
deriving DecidableEq, Repr

/-- The whole panel, with the queue of waiting commands. -/
structure State where
  pending : List Instr := []
  free : Nat := 0
  mem : List Host.Cell := []
  poison : List Nat := []
  hostMem : List Host.Cell := []
  fuses : Fuses := {}
  flash : Flash := {}
  pins : Pins := {}
  straps : StrapPins := { role := 0, profile := 0, boot := 0, hlw := false, id := 0 }
  boot : Boot := {}
  clock : Clock := {}
  settings : Settings := {}
  plan : Option Plan := none
  aliases : List Alias := []
  step : Step := {}
  cores : Tab Core := []
  agents : Tab (Option AgentLatch) := []
  clusters : Tab Cluster := []
  fabric : Fabric := {}
  ioDies : Tab IoDie := []
  hbm : Tab Stack := []
  ports : Tab Port := []
  host : HostPort := {}
  log : Log := {}
  irq : Irq := {}
  cmds : Cmds := {}
  units : Units := {}
  power : Power := {}
  thermal : Thermal := {}
  security : Security := {}
  group : Group := {}
deriving DecidableEq, Repr

/-- The panel right after reset: AUX up, PWR_OK low, nothing brought up, empty queue. -/
def State.reset : State := {}

end Sys2Proof.Machine
end

