-- ==== Sys2Proof/Machine/Ops.lean ====
section
/-! DEFINITION. The named operations over tables, memory and the parts of the state. -/

namespace Sys2Proof.Machine

/-! ### Tables -/

/-- The value at a key: the first entry with that key, else the default. -/
def tget (d : α) : Tab α → Nat → α
  | [], _ => d
  | (k, v) :: t, i => if k = i then v else tget d t i

/-- Puts an entry in key order, replacing one with the same key. -/
def tinsert (k : Nat) (v : α) : Tab α → Tab α
  | [] => [(k, v)]
  | (j, w) :: t => if k < j then (k, v) :: (j, w) :: t else if k = j then (k, v) :: t else (j, w) :: tinsert k v t

/-- Removes every entry with the key. -/
def terase (k : Nat) : Tab α → Tab α
  | [] => []
  | (j, w) :: t => if j = k then terase k t else (j, w) :: terase k t

/-- Sets the value at a key, listing no default value. -/
def tset [DecidableEq α] (d : α) (t : Tab α) (k : Nat) (v : α) : Tab α :=
  if v = d then terase k t else tinsert k v t

/-- Whether every key is above `k`, in rising order, and no entry holds the default. -/
def tabWfFrom [DecidableEq α] (d : α) (k : Nat) : Tab α → Bool
  | [] => true
  | (j, v) :: t => decide (k ≤ j) && decide (v ≠ d) && tabWfFrom d (j + 1) t

/-- The canonical form of a table: keys strictly rising and no entry equal to the default. -/
def tabWf [DecidableEq α] (d : α) (t : Tab α) : Bool := tabWfFrom d 0 t

/-! ### Memory -/

/-- The memory's canonical form: addresses strictly rising and no entry equal to 0x00, what an unlisted address reads as. -/
def Memory.wf (m : List Host.Cell) : Bool := tabWf (0 : Byte) m

/-- One byte of memory; an unlisted address reads 0x00 (log entry 4). -/
def readByte (m : List Host.Cell) (a : Nat) : Byte := tget 0 m a

/-- `n` bytes from `a`. -/
def readBytes (m : List Host.Cell) (a : Nat) : Nat → List Byte
  | 0 => []
  | n + 1 => readByte m a :: readBytes m (a + 1) n

/-- Writes bytes from `a` on. -/
def writeBytes (m : List Host.Cell) (a : Nat) : List Byte → List Host.Cell
  | [] => m
  | b :: bs => writeBytes (tset 0 m a b) (a + 1) bs

/-- The little-endian number of `n` bytes at `a` (R16). -/
def readLE (m : List Host.Cell) (a n : Nat) : Nat := leNat (readBytes m a n)

/-- A set of addresses with one more, in rising order. -/
def insertNat (x : Nat) : List Nat → List Nat
  | [] => [x]
  | y :: ys => if x < y then x :: y :: ys else if x = y then y :: ys else y :: insertNat x ys

/-- A set of addresses with one removed. -/
def eraseNat (x : Nat) (ys : List Nat) : List Nat := ys.filter (fun y => y != x)

/-- Sets or clears the poison mark of one row or unit (R230). -/
def State.markPoison (s : State) (a : Nat) (p : Bool) : State :=
  { s with poison := if p then insertNat a s.poison else eraseNat a s.poison }

/-- Writes one whole 512 B row or unit with its poison mark (R34, R230). -/
def State.writeRow (s : State) (a : Nat) (bytes : List Byte) (p : Bool) : State :=
  { s.markPoison a p with mem := writeBytes s.mem a (fitBytes 512 bytes) }

/-- One whole row or unit (R34). -/
def State.readRow (s : State) (a : Nat) : List Byte := readBytes s.mem a 512

/-- Whether a row or unit is poisoned (R230). -/
def State.isPoisoned (s : State) (a : Nat) : Bool := s.poison.contains a

/-- The frames that carry bytes to the host: one message frame up to 128 B, else data frames of 512 B (Table 9.1; log entry 111). -/
def hostFrames (bytes : List Byte) : List (Nat × List Byte) :=
  if bytes = [] then [] else if bytes.length ≤ 128 then [(0, fitBytes 128 bytes)]
  else (chunksOf 512 ((bytes.length + 511) / 512) bytes).map (fun b => (1, fitBytes 512 b))

/-- Frames leave while fewer than 2,047 are unacknowledged, each kept in the replay buffer under its SEQ: the link, and the frames that wait (R311, R339). -/
def sendFrames : List (Nat × List Byte) → Port → Port × List (Nat × List Byte)
  | [], q => (q, [])
  | f :: fs, q =>
    if q.replayBuf.length < 2047 then
      sendFrames fs { q with replayBuf := q.replayBuf ++ [(q.txSeq, f.1, f.2)], txSeq := (q.txSeq + 1) % 4096 }
    else (q, f :: fs)

/-- Sends what waits for the host; nothing leaves while the link is down (R339, R342). -/
def HostPort.pump (h : HostPort) : HostPort :=
  if h.linkUp then let r := sendFrames h.out h.link; { h with link := r.1, out := r.2 } else h

/-- Bytes go to the host in frames. -/
def State.sendHost (s : State) (bytes : List Byte) : State := { s with host := HostPort.pump { s.host with out := s.host.out ++ hostFrames bytes } }

/-- Writes bytes to host memory, in frames that the panel sends in order; the model shows them there when the panel makes the write (R341; log entry 111). -/
def State.writeHost (s : State) (a : Nat) (bytes : List Byte) : State := State.sendHost { s with hostMem := writeBytes s.hostMem a bytes } bytes

/-! ### Parts of the state -/

def State.core (s : State) (c : Nat) : Core := tget {} s.cores c
def State.setCore (s : State) (c : Nat) (k : Core) : State := { s with cores := tset {} s.cores c k }
def State.cluster (s : State) (c : Nat) : Cluster := tget {} s.clusters c
def State.setCluster (s : State) (c : Nat) (k : Cluster) : State := { s with clusters := tset {} s.clusters c k }
def State.ioDie (s : State) (i : Nat) : IoDie := tget {} s.ioDies i
def State.setIoDie (s : State) (i : Nat) (d : IoDie) : State := { s with ioDies := tset {} s.ioDies i d }
def State.stack (s : State) (i : Nat) : Stack := tget {} s.hbm i
def State.setStack (s : State) (i : Nat) (d : Stack) : State := { s with hbm := tset {} s.hbm i d }
def State.port (s : State) (i : Nat) : Port := tget {} s.ports i
def State.setPort (s : State) (i : Nat) (d : Port) : State := { s with ports := tset {} s.ports i d }
def State.pair (s : State) (i : Nat) : Pair := tget {} s.thermal.pairs i
def State.setPair (s : State) (i : Nat) (d : Pair) : State :=
  { s with thermal := { s.thermal with pairs := tset {} s.thermal.pairs i d } }
def State.dieClock (s : State) (i : Nat) : DieClock := tget {} s.clock.dies i
def State.setDieClock (s : State) (i : Nat) (d : DieClock) : State :=
  { s with clock := { s.clock with dies := tset {} s.clock.dies i d } }
def State.unitEntry (s : State) (u : Nat) : UnitEntry := tget {} s.units.table u

/-- Changes one core. -/
def State.modCore (s : State) (c : Nat) (f : Core → Core) : State := s.setCore c (f (s.core c))
/-- Changes one cluster. -/
def State.modCluster (s : State) (c : Nat) (f : Cluster → Cluster) : State := s.setCluster c (f (s.cluster c))
/-- Changes one port. -/
def State.modPort (s : State) (c : Nat) (f : Port → Port) : State := s.setPort c (f (s.port c))
/-- Changes one I/O die. -/
def State.modIoDie (s : State) (c : Nat) (f : IoDie → IoDie) : State := s.setIoDie c (f (s.ioDie c))

/-- Applies a change for each element of a list, first to last. -/
def forEach (xs : List β) (f : β → State → State) (s : State) : State := xs.foldl (fun s x => f x s) s

/-- Takes the free value's counter and advances it (log entry 14). -/
def State.takeFree (s : State) (n : Nat) : State := { s with free := s.free + n }

/-- `n` free bytes (Table 6.9; log entry 14). -/
def State.freeBytes (s : State) (n : Nat) : List Byte := (List.range n).map (fun i => Config.freeByte (s.free + i))

/-- One bit as a number. -/
def bit (b : Bool) : Nat := if b then 1 else 0

/-! ### General registers (R175, Table 5.1) -/

/-- g[i]; g0 reads 0. -/
def Core.greg (k : Core) (i : Nat) : BitVec 64 := if i = 0 then 0 else tget 0 k.g i

/-- Writes g[i]; a write to g0 is discarded. -/
def Core.setG (k : Core) (i : Nat) (v : BitVec 64) : Core := if i = 0 then k else { k with g := tset 0 k.g i v }

/-- The 256 zero bytes of a cleared v register. -/
def vZero : List Byte := List.replicate 256 0

/-- v[i], 256 bytes. -/
def Core.vreg (k : Core) (i : Nat) : List Byte := tget vZero k.v i

/-- Writes v[i]. -/
def Core.setV (k : Core) (i : Nat) (bs : List Byte) : Core := { k with v := tset vZero k.v i (fitBytes 256 bs) }

/-- Sets or clears the poison mark of v registers (R230). -/
def Core.markV (k : Core) (vs : List Nat) (bad : Bool) : Core :=
  { k with vBad := vs.foldl (fun l v => if bad then insertNat v l else eraseNat v l) k.vBad }

/-- Whether any of some v registers holds poisoned data. -/
def Core.vTainted (k : Core) (vs : List Nat) : Bool := vs.any k.vBad.contains

/-- c[i]. -/
def Core.creg (k : Core) (i : Nat) : BitVec 32 := tget 0 k.ctr i

/-- Increments c[i], modulo 2^32 (R170). -/
def Core.incC (k : Core) (i : Nat) : Core := { k with ctr := tset 0 k.ctr i (k.creg i + 1) }

/-- Accumulator element n of row r; a row whose valid bit is clear reads +0 (R148). -/
def Core.accElem (k : Core) (r n : Nat) : BitVec 32 := if k.accValid.contains r then tget 0 k.acc (r * 64 + n) else 0

/-- Writes the 64 elements of an accumulator row and sets its valid bit (R147). -/
def Core.setAccRow (k : Core) (r : Nat) (es : List (BitVec 32)) : Core :=
  { k with acc := (es.zip (List.range 64)).foldl (fun t p => tset 0 t (r * 64 + p.2) p.1) k.acc,
           accValid := insertNat r k.accValid }

/-- Weight buffer b. -/
def Core.wbuf (k : Core) (b : Bool) : WBuf := if b then k.wbuf1 else k.wbuf0

/-- Writes weight buffer b. -/
def Core.setWbuf (k : Core) (b : Bool) (w : WBuf) : Core := if b then { k with wbuf1 := w } else { k with wbuf0 := w }

/-- The core's reply slots in use (R167). -/
def Core.slotsUsed (k : Core) : Nat := k.slots.length

/-- The lowest free reply slot of the 16 (R167). -/
def Core.freeSlot (k : Core) : Option Nat := (List.range 16).find? (fun i => tget none k.slots i == none)

/-- Lane j of a v register read as `w`-byte lanes (R163). -/
def laneOf (w : Nat) (bs : List Byte) (j : Nat) : Nat := leNat ((bs.drop (w * j)).take w)

/-- All lanes of a v register. -/
def lanes (w : Nat) (bs : List Byte) : List Nat := (List.range (256 / w)).map (laneOf w bs)

/-- The v register of the lanes given. -/
def ofLanes (w : Nat) (xs : List Nat) : List Byte := xs.flatMap (toLE w)

/-! ### The count (R397 to R399) -/

/-- The rate trim that the intra-panel beacon of the present 64 µs carries: the one in force when it left, so that every die changes to a new trim at the
same beacon (R398, R399). -/
def Clock.beaconTrim (c : Clock) : Int := if c.trimAt ≤ c.timebase / 64000 * 64000 then c.trim else c.trimOld

/-- One count of the hub's timebase: the trim adds or withholds a count once it has gathered a whole one, and the slew one a µs; the timebase never goes back. -/
def Clock.tick (c : Clock) : Clock :=
  let acc := c.trimAcc + c.beaconTrim
  let adj : Int := if acc ≥ 10 ^ 9 then 1 else if acc ≤ -(10 ^ 9) then -1 else 0
  let sl : Int := if adj = 0 ∧ c.slewAt ≤ c.timebase then c.slew.sign else 0
  { c with timebase := c.timebase + (1 + adj + sl).toNat, trimAcc := acc - adj * 10 ^ 9, slew := c.slew - sl,
           slewAt := if sl = 0 then c.slewAt else c.timebase + 1000, added := c.added + adj + sl }

/-- The count at a time that it has reached: what trim and slew have added and withheld on the way. -/
def Clock.advance (c : Clock) (t : Nat) : Clock :=
  let acc := c.trimAcc + c.beaconTrim * (t - c.timebase : Nat)
  let from_ := max c.slewAt c.timebase
  let k := if c.timebase < t ∧ from_ ≤ t then min c.slew.natAbs ((t - from_) / 1000 + 1) else 0
  { c with timebase := max c.timebase t, trimAcc := acc.tmod (10 ^ 9), slew := c.slew - c.slew.sign * k,
           slewAt := if k = 0 then c.slewAt else from_ + 1000 * k, added := c.added + acc.tdiv (10 ^ 9) + c.slew.sign * k }

/-- The stretch of the frame that a tick at `n` begins, as far as it is decided (R52). -/
def Clock.stretchBy (c : Clock) (n : Nat) : Nat :=
  match (c.waiting.filter (fun w => decide (w.2 ≤ n))).getLast? with
  | some w => w.1
  | none => c.stretch

/-- The stretch decided last. -/
def Clock.lastStretch (c : Clock) : Nat := match c.waiting.getLast? with | some w => w.1 | none => c.stretch

/-- Decides a stretch for the first tick at or after a time; what was decided for a tick from then on no longer stands. -/
def Clock.decide (c : Clock) (st t : Nat) : Clock := { c with waiting := c.waiting.filter (fun w => Decidable.decide (w.2 < t)) ++ [(st, t)] }

/-- An offset to remove, from a µs on. -/
def Clock.slewBy (c : Clock) (d : Int) : Clock := { c with slew := d, slewAt := c.timebase + 1000 }

end Sys2Proof.Machine
end

