-- ==== Sys2Proof/Machine/Operands.lean ====
section
/-! DEFINITION. Operand forms: panel addresses, the logical-to-physical map, HBM and regions, unit ids, settings keys, and the
bit fields of words. -/

namespace Sys2Proof.Machine

/-- Bits [hi:lo] of a number (R15). -/
def bitsOf (x hi lo : Nat) : Nat := x / 2 ^ lo % 2 ^ (hi + 1 - lo)

/-! ### Instruction words (R180, Table 5.4) -/

/-- The command's word: its major opcode above the body (R180). -/
def wordOf (opc : Nat) (body : BitVec 56) : BitVec 64 := BitVec.ofNat 8 opc ++ body

/-- A system read's word: OPC 0x12, FN, and the body below it (Table 5.4). -/
def sysWord (fn : Nat) (body : BitVec 48) : BitVec 64 := wordOf 0x12 (BitVec.ofNat 8 fn ++ body)

/-- Field [hi:lo] of an instruction word (Table 5.4). -/
def fld (w : BitVec 64) (hi lo : Nat) : Nat := bitsOf w.toNat hi lo

/-! ### Unit ids (R483) -/

/-- A unit id: kind in [31:28], site index in [27:20], sub-index in [19:0]. -/
def unitId (kind site sub : Nat) : Nat := kind * 2 ^ 28 + site * 2 ^ 20 + sub
def unitKind (u : Nat) : Nat := bitsOf u 31 28
def unitSite (u : Nat) : Nat := bitsOf u 27 20
def unitSub (u : Nat) : Nat := bitsOf u 19 0
/-- The hub's own unit. -/
def hubUnit : Nat := unitId 4 0 0

/-- A unit may be used while its state is USABLE or DERATED and no data-path mark names it (R385). -/
def State.usable (s : State) (u : Nat) : Bool := decide ((s.unitEntry u).state ≤ 1) && !s.units.marks.contains u

/-- Whether the table shows the unit RETIRED or ABSENT. -/
def State.retired (s : State) (u : Nat) : Bool := (s.unitEntry u).state == 2 || (s.unitEntry u).state == 3

/-! ### Parts and capacity (Table 0.2, Table 6.11) -/

/-- Stack indices that the part enables (R249, R523). -/
def partStacks (p : Part) : List Nat :=
  if p = .gn2000 then (List.range 24).filter (fun i => i != 10 && i != 11 && i != 22 && i != 23) else List.range 24

/-- STACK_BYTES (Table 6.11). -/
def stackBytes (p : Part) : Nat := if p = .gn2400l then 21000000000 else 24000000000

/-- Enabled HBM bytes of the part (Table 6.11). -/
def hbmCapacity (p : Part) : Nat := (partStacks p).length * stackBytes p

/-- The stack that serves an HBM byte address (R248). -/
def stackOf (p : Part) (a : Nat) : Option Nat := (partStacks p)[a / stackBytes p]?

/-- Whether a stack is retired (R253). -/
def State.stackRetired (s : State) (k : Nat) : Bool := s.retired (unitId 5 k 0)

/-- Enabled HBM bytes outside retired stacks (Table 9.11). -/
def State.enabledHbm (s : State) : Nat :=
  ((partStacks s.fuses.part).filter (fun k => !s.stackRetired k)).length * stackBytes s.fuses.part

/-- ID.PART (Table 9.3). -/
def partCode (p : Part) : Nat := match p with | .gn2400x => 1 | .gn2400l => 2 | .gn2000 => 3

/-! ### The logical-to-physical map (R29, R30) -/

/-- The physical column of logical column x in a physical row (R29). -/
def State.colOf (s : State) (row x : Nat) : Nat :=
  let k := tget 13 s.units.mapCols row
  if x < k then x else x + 1

/-- The physical row of logical row y (R30). -/
def State.rowOf (s : State) (y : Nat) : Nat := s.units.mapRows.getD y y

/-- The physical site index p = row × 13 + col of a logical die (R483). -/
def State.siteOf (s : State) (d : Nat) : Nat := s.rowOf (d / 12) * 13 + s.colOf (s.rowOf (d / 12)) (d % 12)

/-- Rows of the presented grid class: 12, 10 or 0 (R8). -/
def gridRows (grid : Nat) : Nat := if grid = 144 then 12 else if grid = 120 then 10 else 0

/-- Whether a die index names a logical die of the class (R82, R218). -/
def dieValid (grid d : Nat) : Bool := decide (d < 12 * gridRows grid)

/-- Logical dies of the class in index order. -/
def gridDies (grid : Nat) : List Nat := List.range (12 * gridRows grid)

/-- The logical die at a site, if the site holds one. -/
def State.dieAt (s : State) (p : Nat) : Option Nat := (gridDies s.units.gridClass).find? (fun d => s.siteOf d == p)

/-- Unit id of core c at its physical site. -/
def State.coreUnit (s : State) (c : Nat) : Nat := unitId 0 (s.siteOf (c / 16)) (c % 16)

/-- Unit id of a cluster by cluster index 2d + j. -/
def State.clusterUnit (s : State) (ci : Nat) : Nat := unitId 1 (s.siteOf (ci / 2)) (ci % 2)

/-! ### Units that may be used (R40, R385) -/

/-- Whether a unit's retirement retires its compute site (Table 15.3). -/
def siteUnit (u : Nat) : Bool := decide (unitKind u ≤ 1) || (unitKind u == 2 && (unitSub u == 0 || unitSub u == 2))

/-- Whether a compute site is retired, DERATED sites among them when `derated` is set (R473). -/
def State.siteGone (s : State) (derated : Bool) (p : Nat) : Bool :=
  s.units.table.any (fun e => siteUnit e.1 && unitSite e.1 == p && (e.2.state == 2 || (derated && e.2.state == 1))) ||
    s.units.atOnce.any (fun u => siteUnit u && unitSite u == p)

/-- Retired sites of a physical row, by column. -/
def State.goneCols (s : State) (derated : Bool) (row : Nat) : List Nat :=
  (List.range 13).filter (fun c => s.siteGone derated (row * 13 + c))

/-- Whether a router crossbar of a physical row is retired, so that its routers can only run in bypass (R471, Table 14.5). -/
def State.crossbarLost (s : State) (row : Nat) : Bool := (List.range 13).any (fun c => s.retired (unitId 2 (row * 13 + c) 1))

/-- Whether a row is unrepairable: two or more sites retired, a crossbar retired, or so marked (R29, R471, Table 14.5). -/
def State.rowBad (s : State) (derated : Bool) (row : Nat) : Bool :=
  s.units.badRows.contains row || decide ((s.goneCols derated row).length ≥ 2) || s.crossbarLost row

/-- Whether a data-path mark names a compute site's die, router or die agent (R385). -/
def State.marked (s : State) (p : Nat) : Bool :=
  s.units.marks.any (fun u => unitKind u == 2 && decide (unitSub u ≤ 2) && unitSite u == p)

/-- Whether the die at a site is used no further: a retirement has reset it, or a mark names it (R385, R477). -/
def State.dieGone (s : State) (p : Nat) : Bool := s.siteGone false p || s.marked p

/-- Whether a core, and the cluster and die that hold it, may be used. -/
def State.coreUsable (s : State) (c : Nat) : Bool :=
  s.usable (s.coreUnit c) && s.usable (s.clusterUnit (c / 8)) && !s.dieGone (s.siteOf (c / 16))

/-- Whether a COMPUTE_RESET has the fabric out of service, from its tick until the routers are reset (Table 14.7). -/
def State.crumbHeld (s : State) : Bool := s.boot.resetDrain.isSome

/-- Whether the coolant-loss response holds the clock of a core's cluster (R445). -/
def State.clockHeld (s : State) (c : Nat) : Bool := (s.cluster (c / 8)).held

/-- Whether a row memory may be used. -/
def State.memUsable (s : State) (m : Nat) : Bool :=
  if m < 0x80000000 then s.coreUsable m
  else s.usable (s.clusterUnit (m - 0x80000000)) && !s.dieGone (s.siteOf ((m - 0x80000000) / 2))

/-- Whether a stack may be used: itself, each of its pseudo-channels, and the I/O die that serves it; none in self-refresh is (R445). -/
def State.stackUsable (s : State) (k : Nat) : Bool :=
  !(s.stack k).selfRefresh && s.usable (unitId 5 k 0) && s.usable (unitId 3 (k / 2) 0) && !s.units.marks.any (fun u => unitKind u == 5 && unitSite u == k)

/-- Whether an I/O die may be used. -/
def State.ioUsable (s : State) (io : Nat) : Bool := s.usable (unitId 3 io 0)

/-! ### Panel addresses (R217, R218) -/

/-- What a panel address names (Table 6.1). -/
inductive Target where
  | scratch (die core row : Nat)
  | cluster (die j row : Nat)
  | hbm (addr : Nat)
  | launch (io channel : Nat)
  | none
deriving DecidableEq, Repr

/-- The place a panel address names: none where a bit marked zero is set, SPACE is reserved, or DIE names no die of the grid
class (R218). -/
def panelTarget (grid a : Nat) : Target :=
  if a % 512 ≠ 0 ∨ a ≥ 2 ^ 48 then .none
  else
    match bitsOf a 47 44 with
    | 0 => if bitsOf a 31 22 = 0 ∧ dieValid grid (bitsOf a 43 36) then
        .scratch (bitsOf a 43 36) (bitsOf a 35 32) (bitsOf a 21 9) else .none
    | 1 => if bitsOf a 35 33 = 0 ∧ bitsOf a 31 24 = 0 ∧ dieValid grid (bitsOf a 43 36) then
        .cluster (bitsOf a 43 36) (bitsOf a 32 32) (bitsOf a 23 9) else .none
    | 2 => if bitsOf a 43 40 = 0 then .hbm (bitsOf a 39 0) else .none
    | 3 => if bitsOf a 39 15 = 0 ∧ bitsOf a 43 40 < 12 then .launch (bitsOf a 43 40) (bitsOf a 14 9) else .none
    | _ => .none

/-- The number of a cluster memory in a ROW_ALLOC record's MEM (R82). -/
def clusterMem (ci : Nat) : Nat := 0x80000000 + ci

/-- The die of a row-memory target. -/
def targetDie : Target → Option Nat
  | .scratch d _ _ => some d
  | .cluster d _ _ => some d
  | _ => none

/-- The memory a row address belongs to, as MEM numbers it. -/
def targetMem : Target → Option Nat
  | .scratch d k _ => some (d * 16 + k)
  | .cluster d j _ => some (clusterMem (2 * d + j))
  | _ => none

/-- The row of a row-memory target. -/
def targetRow : Target → Nat
  | .scratch _ _ r => r
  | .cluster _ _ r => r
  | _ => 0

/-- Rows of a memory: 8,192 for a scratchpad, 32,768 for a cluster memory (Table 1.4). -/
def memRows (m : Nat) : Nat := if m < 0x80000000 then 8192 else 32768

/-- Whether MEM names a scratchpad or cluster memory of the class (R82). -/
def memValid (grid m : Nat) : Bool :=
  if m < 0x80000000 then decide (m < 192 * gridRows grid) else decide (m - 0x80000000 < 24 * gridRows grid)

/-- The panel address of a row of a memory (Table 6.1). -/
def memRowAddr (m r : Nat) : Nat :=
  if m < 0x80000000 then (m / 16) * 2 ^ 36 + (m % 16) * 2 ^ 32 + r * 512
  else 2 ^ 44 + ((m - 0x80000000) / 2) * 2 ^ 36 + ((m - 0x80000000) % 2) * 2 ^ 32 + r * 512

/-- The panel address of an HBM byte address (Table 6.1). -/
def hbmAddr (a : Nat) : Nat := 2 * 2 ^ 44 + a

/-- The cluster memory of a core's own cluster. -/
def coreClusterMem (c : Nat) : Nat := clusterMem (c / 8)

/-- The unit address of one row of a unit's memory (Table 15.1): 0 scratchpad, 1 cluster memory, 2 accumulator memory, 3 instruction store, as Table 15.5
numbers them. -/
def rowKey (unit kind row : Nat) : Nat := 2 ^ 64 + unit * 2 ^ 20 + kind * 2 ^ 16 + row % 2 ^ 16
def keyUnit (k : Nat) : Nat := k / 2 ^ 20 % 2 ^ 32
def keyKind (k : Nat) : Nat := k / 2 ^ 16 % 16
def keyRow (k : Nat) : Nat := k % 2 ^ 16

/-- The unit address of a DRAM row of one pseudo-channel (Table 15.1). -/
def dramRow (stack pc turn : Nat) : Nat := 2 ^ 65 + (stack * 32 + pc) * 2 ^ 32 + turn % 2 ^ 32

/-- Whether a unit address is that of a row of a core's or a cluster's memory. -/
def isRowKey (k : Nat) : Bool := k / 2 ^ 64 == 1

/-- The unit address that a repair of the fuses or the ledger repairs: unit, ACTION, DETAIL (Table 14.4). DETAIL of a row gives the memory above the row number
(DESIGN CHOICE: a core has three memories and the table says "row number"; log entry 121). -/
def repairKey (unit action detail : Nat) : Nat :=
  match action with
  | 1 => rowKey unit (bitsOf detail 19 16) detail
  | 3 => dramRow (unitSite unit) (bitsOf unit 4 0) detail
  | _ => unit

/-- DETAIL of the ledger entry that spares a row. -/
def rowDetail (k : Nat) : Nat := k % 2 ^ 20

/-- Rows that share one set of spare rows: a bank of a scratchpad or cluster memory, or a whole accumulator memory or instruction store (R221, Table 14.5). -/
def spareSet (k : Nat) : Nat × Nat :=
  (k / 2 ^ 16, match keyKind k with | 0 => keyRow k % 16 | 1 => keyRow k % 32 | _ => 0)

/-- Spare rows of such a set (Table 14.5). -/
def spareRows (k : Nat) : Nat := match keyKind k with | 2 => 16 | 3 => 32 | _ => 4

/-- The unit that holds a memory: core, cluster or stack (Table 15.5). -/
def State.memUnit (s : State) (m : Nat) : Nat :=
  if m < 0x80000000 then s.coreUnit m else s.clusterUnit (m - 0x80000000)

/-! ### Regions and the alias table (R73 to R78) -/

/-- RESIDENT_ROWS of a memory in the loaded plan (R78, R83). -/
def State.residentRows (s : State) (m : Nat) : Nat :=
  match s.plan with
  | none => 0
  | some p => ((p.rowAlloc.find? (fun r => r.mem == m)).map (·.resident)).getD 0

/-- Whether the step state is RUNNING. -/
def State.isRunning (s : State) : Bool := s.step.state == .running

/-- Whether a row is resident and the step state RUNNING, so that a write is a protection fault (R78). -/
def State.residentLocked (s : State) (m r : Nat) : Bool := s.isRunning && decide (r < s.residentRows m)

/-- A region with the view through which an HBM address names it: true for the committed view, false for the working view. -/
def State.regionOf (s : State) (a : Nat) : Option (Region × Bool) :=
  match s.plan with
  | none => none
  | some p =>
    match p.regions.find? (fun r => decide (r.base ≤ a ∧ a < r.base + r.len)) with
    | some r => some (r, true)
    | none =>
      (p.regions.find? (fun r => match r.sideB with
        | some b => decide (b ≤ a ∧ a < b + r.len)
        | none => false)).map (fun r => (r, false))

/-- Whether frames may write an HBM address (Table 2.6): OUTPUT, SCRATCH, and ALIASED through the working view. -/
def State.frameMayWrite (s : State) (a : Nat) : Bool :=
  match s.regionOf a with
  | none => false
  | some (r, committedView) => r.kind == 1 || r.kind == 3 || (r.kind == 4 && !committedView)

/-- The physical HBM address of a plan address, by the alias table (R75, R76). -/
def State.resolveHbm (s : State) (a : Nat) : Nat :=
  match s.aliases.find? (fun e => decide (e.base ≤ a ∧ a < e.base + e.len)) with
  | some e => if e.swapped then a - e.base + e.sideB else a
  | none =>
    match s.aliases.find? (fun e => decide (e.sideB ≤ a ∧ a < e.sideB + e.len)) with
    | some e => if e.swapped then a - e.sideB + e.base else a
    | none => a

/-- The cell address of a row-memory row or HBM unit, HBM through the alias table. -/
def State.cellAddr (s : State) : Target → Nat
  | .scratch d k r => memRowAddr (d * 16 + k) r
  | .cluster d j r => memRowAddr (clusterMem (2 * d + j)) r
  | .hbm a => hbmAddr (s.resolveHbm a)
  | _ => 0

/-- Whether memory behind a target is served: an HBM address below the enabled capacity and outside a retired stack, any row of
a valid row memory (R218). -/
def State.served (s : State) : Target → Bool
  | .scratch _ _ _ => true
  | .cluster _ _ _ => true
  | .hbm a => match stackOf s.fuses.part a with
    | some k => !s.stackRetired k && decide (a < hbmCapacity s.fuses.part)
    | none => false
  | _ => false

/-- The stack, pseudo-channel and place within it of an HBM byte address (R248): its 512 B unit u lies in pseudo-channel u mod 32, whose successive
units rotate through its banks; the spec gives no count of banks, so that a unit's turn u / 32 stands for its bank and page. -/
def hbmPlace (p : Part) (a : Nat) : Option (Nat × Nat × Nat) :=
  (stackOf p a).map (fun k => (k, a % stackBytes p / 512 % 32, a % stackBytes p / 512 / 32))

/-- Whether the memory behind a target may be used (R40, R385). -/
def State.targetUsable (s : State) (t : Target) : Bool :=
  match t with
  | .hbm a => match hbmPlace s.fuses.part (s.resolveHbm a) with
    | some k => s.stackUsable k.1 && s.usable (unitId 5 k.1 (0x100 + k.2.1))
    | none => true
  | t => match targetMem t with
    | some m => s.memUsable m
    | none => true

/-! ### Routes of the loaded plan -/

/-- The route with an id, if the loaded plan holds it. -/
def State.routeOf (s : State) (id : Nat) : Option Route :=
  match s.plan with
  | none => none
  | some p => p.routes.find? (fun r => r.id == id)

/-! ### Settings keys (Table 10.2) -/

def keyFrameTicks : Nat := 0x01000001
def keyGuardCycles : Nat := 0x01000002
def keyProfile : Nat := 0x02000001
def keyClockMode : Nat := 0x02000002
def keyEnvelopeMode : Nat := 0x03000001
def keyEnvelopeConst : Nat := 0x03000002
def keyEnvelopeTable (i : Nat) : Nat := 0x03000003 + i * 65536
def keyEnvelopeStretch : Nat := 0x03000004
def keyPortDir (p : Nat) : Nat := 0x04000001 + p * 65536
def keyGroupSize (i : Nat) : Nat := 0x04000002 + i
def keyGroupId : Nat := 0x04000006
def keyGroupSlot : Nat := 0x04000007
def keyDelayMax : Nat := 0x04000008
def keyArb (n item : Nat) : Nat := 0x05000000 + n * 65536 + item

/-- The default of a key (Table 10.2, Table 10.3), with the straps that some defaults take. -/
def settingDefault (st : StrapPins) (key : Nat) : Nat :=
  let group := bitsOf key 31 24
  let item := bitsOf key 15 0
  match group with
  | 1 => if item = 1 then 1000000 else 1024
  | 2 => if item = 1 then st.profile.toNat else 0
  | 3 => if item = 1 then 0 else if item = 4 then 0 else 24000
  | 4 => if item = 1 then 15 else if item ≤ 5 then 1 else if item = 6 then 0 else if item = 7 then st.id.toNat else 600
  | _ => if item / 256 = 1 then 8 else if item = 0x240 then 16 else if item / 256 = 2 then 2 else 32

/-- A committed value (R368, R383). -/
def State.setting (s : State) (key : Nat) : Nat := tget (settingDefault s.straps key) s.settings.committed key

def State.frameTicks (s : State) : Nat := s.setting keyFrameTicks
def State.guardCycles (s : State) : Nat := s.setting keyGuardCycles
/-- STRETCH_MAX is the committed ENVELOPE_STRETCH (R369). -/
def State.stretchMax (s : State) : Nat := s.setting keyEnvelopeStretch
/-- Fixed mode: CLOCK_MODE, but for a change that waits for the end of the coolant-loss response (R403, Table 13.4). -/
def State.fixedMode (s : State) : Bool := (s.thermal.heldMode.getD (s.setting keyClockMode)) == 1
def State.groupSlot (s : State) : Nat := s.setting keyGroupSlot
/-- The four torus sizes (Table 8.4). -/
def State.groupSizes (s : State) : List Nat := (List.range 4).map (fun i => s.setting (keyGroupSize i))
/-- The group's size (R328). -/
def State.groupCount (s : State) : Nat := s.groupSizes.foldl (· * ·) 1
/-- H of R330; 0 for a standalone panel. -/
def State.depthH (s : State) : Nat := (s.groupSizes.map (· / 2)).foldl (· + ·) 0
/-- Committed PORT_DIR of a port. -/
def State.portDir (s : State) (p : Nat) : Nat := s.setting (keyPortDir p)

def State.isWorker (s : State) : Bool := s.straps.role == 0
def State.isManager (s : State) : Bool := s.straps.role == 1
def State.isFactory (s : State) : Bool := s.straps.role == 3

/-- The I/O die that carries an engine's ports (Table 8.1). -/
def engineIo (e : Nat) : Nat := [0, 2, 3, 5, 6, 8, 9, 11].getD e 0
/-- The engine on an I/O die, if its site exists (Table 8.1). -/
def ioEngine (io : Nat) : Option Nat := (List.range 8).find? (fun e => engineIo e == io)
/-- Whether a port exists on the part (R297). -/
def portPresent (p : Part) (port : Nat) : Bool := !(p == .gn2000 && (port / 8 == 3 || port / 8 == 7))

/-- Whether a port counts as enabled: PORT_DIR is not 0xF and it is not retired (R306). -/
def State.portEnabled (s : State) (p : Nat) : Bool := s.portDir p != 15 && !s.retired (unitId 6 p 0) && (s.port p).state != 5

/-- Ports of an engine's bundle: those whose committed PORT_DIR is not 0xF (R306). -/
def State.bundle (s : State) (e : Nat) : List Nat :=
  ((List.range 8).map (fun i => e * 8 + i)).filter (fun p => s.portDir p != 15)

/-- The floor of a profile in MHz (Table 1.8). -/
def profileFloor (p : Nat) : Nat := match p with | 0 => 1450 | 1 => 1280 | 2 => 1100 | _ => 0
/-- The nominal frequency of a profile in MHz (Table 1.8). -/
def profileNom (p : Nat) : Nat := match p with | 0 => 1600 | 1 => 1400 | 2 => 1200 | _ => 0
/-- The rail power cap of a profile in W (Table 1.8); P3 states a typical figure only, so it sets no cap. -/
def profileCap (p : Nat) : Option Nat := match p with | 0 => some 21000 | 1 => some 17000 | 2 => some 12500 | _ => none
/-- The frequency points of a profile (Table 11.5). -/
def profilePoints (p : Nat) : List Nat :=
  match p with
  | 0 => [1450, 1475, 1500, 1525, 1550, 1575, 1600]
  | 1 => [1280, 1300, 1325, 1350, 1375, 1400]
  | 2 => [1100, 1125, 1150, 1175, 1200]
  | _ => []

/-! ### Sensor pairs (R434, R436) -/

/-- Degrees Celsius as a reading, in 1/16 °C. -/
def deg (c : Int) : Int := 16 * c

/-- The number of a cluster's sensor pair: its cluster index where its site holds a logical die, else 0x200 + 2p + cluster (log entry 28). -/
def State.pairKey (s : State) (p j : Nat) : Nat := match s.dieAt p with | some d => 2 * d + j | none => 0x200 + 2 * p + j

/-- The site and cluster of a cluster's sensor pair. -/
def State.pairPlace (s : State) (k : Nat) : Nat × Nat := if k < 288 then (s.siteOf (k / 2), k % 2) else ((k - 0x200) / 2, k % 2)

/-- The unit of a sensor pair (Table 15.2): keys below 288 and from 0x200 on are clusters', 288 + I/O die, 300 the hub. -/
def State.sensorUnit (s : State) (k : Nat) : Nat :=
  if 288 ≤ k ∧ k < 300 then unitId 10 (k - 288) 0x10000
  else if k = 300 then unitId 10 0 0x20000
  else unitId 10 (s.pairPlace k).1 (s.pairPlace k).2

/-- The pair that a sensor unit belongs to. -/
def State.pairOfUnit (s : State) (u : Nat) : Option Nat :=
  match bitsOf u 19 16 with
  | 0 => some (s.pairKey (unitSite u) (bitsOf u 0 0))
  | 1 => some (288 + unitSite u)
  | 2 => some 300
  | _ => none

/-- Whether a pair has a valid reading. -/
def Pair.hasReading (p : Pair) : Bool := p.primary.isSome || p.secondary.isSome

/-- The governed reading: the higher valid one, 3 °C more in sensor fault (R436). -/
def Pair.govern (p : Pair) : Int :=
  let m := match p.primary, p.secondary with
    | some a, some b => max a b
    | some a, none => a
    | none, some b => b
    | none, none => p.governed
  if p.fault ∧ p.hasReading then m + deg 3 else m

/-- A pair in sensor fault from now on: its governed reading is at once the higher (R436). -/
def Pair.inFault (p : Pair) : Pair :=
  let q := { p with fault := true }
  { q with governed := if q.substituted then q.governed else q.govern }

end Sys2Proof.Machine
end

