-- ==== Sys2Proof/Machine/Records.lean ====
section
/-! DEFINITION. Records: the completion log's waiting records (09), error records and counted events (15), and the failures that a
running step collects. -/

namespace Sys2Proof.Machine

/-- The timebase now (R397). -/
def State.now (s : State) : Nat := s.clock.timebase

/-- Moves the timebase up to a time that an event names; it never moves back (R397; log entry 3). -/
def State.advanceTo (s : State) (t : Nat) : State := { s with clock := s.clock.advance t }

/-- A die's timebase less the hub's at a time: its slew has removed one ns of the offset for each µs since the beacon (R398). -/
def DieClock.offsetAt (c : DieClock) (now : Nat) : Int := c.offset + c.slew.sign * (min c.slew.natAbs ((now - c.slewFrom) / 1000) : Nat)

/-- Sends a message into the management tree (R330). -/
def State.send (s : State) (m : GroupMsg) : State :=
  { s with group := { s.group with sent := s.group.sent ++ [m], sentAt := s.group.sentAt ++ [s.now] } }

/-! ### Completion and event records -/

/-- The bytes of a record (Table 9.15). -/
def recBytes (r : Rec) : List Byte :=
  toLE 2 r.opcode ++ toLE 1 r.tag ++ toLE 1 r.flags ++ toLE 2 r.status ++ toLE 2 r.slot ++ toLE 8 r.detail ++
    toLE 8 r.timebase ++ toLE 4 r.xferWord ++ toLE 4 r.result

/-- Puts a record at the end of those waiting to be written. -/
def State.pushRec (s : State) (r : Rec) : State := { s with log := { s.log with waiting := s.log.waiting ++ [r] } }

/-- Event records waiting (R358). -/
def State.eventsWaiting (s : State) : Nat := (s.log.waiting.filter (fun r => r.flags % 2 == 1)).length

/-- Makes an event record; one that finds 64 waiting is dropped and counted in LOST, which saturates at 255 (R358, R363). -/
def State.event (s : State) (code detail : Nat) (fault : Bool) : State :=
  if s.eventsWaiting ≥ 64 then { s with log := { s.log with lost := min 255 (s.log.lost + 1) } }
  else s.pushRec { opcode := code, tag := 0, flags := 1, status := 0, slot := 0xFFFF, detail := detail, timebase := s.now,
                   xferWord := 0, result := 0, noIrq := false, fault := fault }

/-! ### Error records -/

/-- What an event gives its error record; the rest of Table 15.4 is taken from the state. `key` names a unit address finer than the unit
id, such as one row (Table 15.1); `repairs` says that a repair at the next start is what a permanent fault of it brings, with ACTION and DETAIL of its ledger entry (Table 14.4, Table 15.3, R472). -/
structure ErrIn where
  unit : Nat
  code : Nat
  cls : Nat
  location : Nat := 0
  aux : Nat := 0
  flags : Nat := 0
  count : Nat := 1
  frame : Nat := 0
  cycle : Nat := 0
  reporter : Nat := 0x200
  time : Option Nat := none
  key : Option Nat := none
  repairs : Bool := false
  action : Nat := 1
  detail : Nat := 0

/-- The error records' FLAGS bits (Table 15.4). -/
def flPoisoned : Nat := 1
def flStepFailed : Nat := 2
def flRetired : Nat := 4
def flDerated : Nat := 8
def flRepair : Nat := 16
def flLedger : Nat := 32
def flPersistent : Nat := 64
def flResident : Nat := 128
def flReplay : Nat := 256

/-- Whether the running step is a replay run. -/
def State.inReplay (s : State) : Bool := s.isRunning && s.step.replay

/-- The place of the die agent or hub that an endpoint code names: a logical die's site, an I/O die, the hub, or the site behind 0x300 (Table 15.4). -/
def State.reporterPlace (s : State) (r : Nat) : Nat := if r < 0x100 then s.siteOf r else if r < 0x300 then r else r - 0x300

/-- The timebase of an event at the die that reports it (R398, Table 15.4). -/
def State.timeAt (s : State) (reporter now : Nat) : Nat := ((now : Int) + (s.dieClock (s.reporterPlace reporter)).offsetAt now).toNat

/-- The error record of an event (Table 15.4). -/
def State.errRec (s : State) (e : ErrIn) : ErrRec :=
  { unit := e.unit, code := e.code, cls := e.cls, timebase := s.timeAt e.reporter (e.time.getD s.now), count := e.count, seq := s.units.seq + 1,
    stepIndex := if s.isRunning then s.step.stepIndex else 0xFFFFFFFFFFFFFFFF,
    frame := if s.isRunning ∧ e.frame = 0 then s.step.frame else e.frame, cycle := e.cycle, location := e.location, aux := e.aux,
    slot := s.groupSlot, reporter := e.reporter, flags := e.flags ||| (if s.inReplay then flReplay else 0) }

/-- Adds an error record: a full log drops its oldest, and event 0xE001 is raised by R363 (R487). -/
def State.addError (s : State) (e : ErrIn) : State :=
  let full := decide (s.units.errors.length ≥ 4096)
  let kept := if full then s.units.errors.drop 1 else s.units.errors
  let s1 := { s with units := { s.units with
    errors := kept ++ [s.errRec e], seq := s.units.seq + 1,
    dropped := if full then s.units.dropped + 1 else s.units.dropped } }
  if e.cls ≠ 1 ∧ s1.units.raised then s1
  else
    let s2 := s1.event 0xE001 s1.units.errors.length (e.cls == 1)
    { s2 with units := { s2.units with raised := true } }

/-- A security refusal counts against no unit; it is recorded with CLASS 2, against the hub that refuses (R482). -/
def State.noteRefusal (s : State) (status : Nat) : State :=
  if status / 256 = 5 then s.addError { unit := unitId 4 0 0, code := status, cls := 2 } else s

/-- Whether the starter's ROM has the digest that the fuses hold (R464, R500). -/
def Fuses.romOk (f : Fuses) : Bool := digest64 f.rom == toLE 64 f.starterDigest.toNat

/-! ### The identity key and the signed copies in flash (R467, R501, R509) -/

/-- The ASCII bytes GOLFIN-IDENTITY. -/
def identityLabel : List Byte := [0x47, 0x4F, 0x4C, 0x46, 0x49, 0x4E, 0x2D, 0x49, 0x44, 0x45, 0x4E, 0x54, 0x49, 0x54, 0x59]

/-- The seed of the identity key (R501). -/
def State.identitySeed (s : State) : List Byte := shake256 32 (toLE 32 s.fuses.deviceSecret.toNat ++ identityLabel)

/-- The public identity key (R498, R501). -/
def State.identityPublic (s : State) : List Byte := mldsaPublicKey s.identitySeed

/-- The identity KEY_ID. -/
def State.identityKeyId (s : State) : List Byte := digest64 s.identityPublic

/-- The bytes of a ledger's header and entries (Tables 14.3 and 14.4). -/
def State.ledgerBytes (s : State) (l : Ledger) : List Byte :=
  toLE 4 0x5247444C ++ toLE 2 1 ++ toLE 2 (partCode s.fuses.part) ++ toLE 8 l.sequence ++ toLE 4 l.startCount ++
    toLE 4 l.entries.length ++ List.replicate 40 0 ++
    l.entries.flatMap (fun e => toLE 4 e.unit ++ toLE 1 e.action ++ toLE 1 e.source ++ toLE 2 0 ++ toLE 4 e.detail ++ toLE 4 e.start)

/-- The bytes of a policy that its signature covers: the fields of Table 16.5 in their order, absent keys as zeros, SIGNED_ONLY in a byte (DESIGN CHOICE: the table gives
sizes and no offsets; log entry 52). -/
def Policy.bytes (p : Policy) : List Byte :=
  fitBytes 1952 (p.owner.getD []) ++ (List.range 8).flatMap (fun i => fitBytes 1952 (tget [] p.planKeys i)) ++
    toLE 1 (bit p.signedOnly) ++ toLE 8 p.policyCounter ++ toLE 8 p.debugCounter

/-- Whether a ledger copy's signature block verifies under the identity key (R467, R501). -/
def State.ledgerOk (s : State) (l : Ledger) : Bool := l.block != [] && blockOk s.identityPublic (digest64 (s.ledgerBytes l)) l.block

/-- Whether a policy copy's signature block verifies under the identity key (R501, R509). -/
def State.policyOk (s : State) (p : Policy) : Bool := p.block != [] && blockOk s.identityPublic (digest64 p.bytes) p.block

/-- A ledger copy signed with the identity key; the number of the copy picks its randomness (R498; log entry 8). -/
def State.signLedger (s : State) (l : Ledger) : Ledger :=
  { l with block := signBlock s.identitySeed (digest64 (s.ledgerBytes l)) (4 * (l.sequence * 2 ^ 15 + l.entries.length) + 1) }

/-- A policy copy signed with the identity key. -/
def State.signPolicy (s : State) (p : Policy) : Policy :=
  { p with block := signBlock s.identitySeed (digest64 p.bytes) (4 * (p.policyCounter * 2 ^ 64 + p.debugCounter) + 2) }

/-- Whether the panel has a ledger copy in use: each copy that it takes or makes is signed. -/
def Ledger.held (l : Ledger) : Bool := l.block != []

/-- A new ledger copy, one SEQUENCE on, replaces the older copy in flash at each start (R467). -/
def State.storeLedger (s : State) (l : Ledger) : State :=
  let q := s.signLedger { l with sequence := l.sequence + 1 }
  let older := !s.ledgerOk s.flash.ledgerB || (s.ledgerOk s.flash.ledgerA && decide (s.flash.ledgerB.sequence ≤ s.flash.ledgerA.sequence))
  { s with
    units := { s.units with ledger := q },
    flash := if older then { s.flash with ledgerB := q, writing := some (.ledgerB, s.now) } else { s.flash with ledgerA := q, writing := some (.ledgerA, s.now) } }

/-- Adds a defect to the copy of this start, whose SEQUENCE stays (R467, R468); none is added twice, and a full ledger makes the record LEDGER_FULL. Before stage
0x05 there is no copy in use, and after it entries are made only once. -/
def State.addLedger (s : State) (unit action source detail : Nat) : State :=
  let l := s.units.ledger
  if !l.held ∨ l.entries.any (fun e => e.unit == unit && e.action == action && e.detail == detail) then s
  else if l.entries.length ≥ 16384 then s.addError { unit := unit, code := 0x1070, cls := 1, location := action }
  else
    let q := s.signLedger { l with entries := l.entries ++ [{ unit := unit, action := action, source := source, detail := detail, start := l.startCount }] }
    { s with
      units := { s.units with ledger := q },
      flash := if s.flash.ledgerA = l then { s.flash with ledgerA := q, writing := some (.ledgerA, s.now) }
               else if s.flash.ledgerB = l then { s.flash with ledgerB := q, writing := some (.ledgerB, s.now) } else s.flash }

/-- FLAGS bit 5 of a record whose defect joins the ledger: set where an entry will be written (Table 15.4, R468). -/
def State.ledgerFlag (s : State) (unit action detail : Nat) : Nat :=
  let l := s.units.ledger
  if !l.held ∨ l.entries.any (fun e => e.unit == unit && e.action == action && e.detail == detail) ∨ l.entries.length ≥ 16384 then 0 else flLedger

/-- 24 h of timebase, in ns (R481). -/
def dayNs : Nat := 86400 * 10 ^ 9

/-- The newest event of a count entry. -/
def newestOf (c : CountEntry) : Nat := c.times.getLastD 0

/-- The count entry of a unit address and code, with the events of the last 24 h (R481). -/
def State.countEntry (s : State) (unit code : Nat) : CountEntry :=
  match s.units.counts.find? (fun c => c.unit == unit && c.code == code && decide (s.now ≤ newestOf c + dayNs)) with
  | some c => { c with times := c.times.filter (fun t => decide (s.now ≤ t + dayNs)) }
  | none => { unit := unit, code := code, times := [] }

/-- The unit address of an event (Table 15.1). -/
def ErrIn.address (e : ErrIn) : Nat := e.key.getD e.unit

/-- Whether an event makes its unit's fault permanent: the 16th within 24 h, or one that its mechanism makes so by another condition of Table 15.1,
`cls` 1; a fault that is permanent already becomes so no more (R479, R481). -/
def State.turnsPermanent (s : State) (e : ErrIn) : Bool :=
  !s.units.permanent.contains e.address && (e.cls == 1 || decide ((s.countEntry e.address e.code).times.length + 1 ≥ 16))

/-- Stores a count entry; entries with no event in 24 h go, and with 16,384 held the one whose newest event is oldest goes (R481). -/
def State.storeCount (s : State) (e : CountEntry) : State :=
  let rest := s.units.counts.filter (fun c => !(c.unit == e.unit && c.code == e.code) && decide (s.now ≤ newestOf c + dayNs))
  let oldest := rest.foldl (fun m c => min m (newestOf c)) s.now
  let rest := if rest.length ≥ 16384 then rest.eraseP (fun c => newestOf c == oldest) else rest
  { s with units := { s.units with counts := rest ++ [e] } }

/-- One counted event (R487): counted at its unit address, with a record at counts 1, 4, 8 and 12 and, with CLASS 1, at the event that makes the
fault permanent; one that fails a step always makes its record. A permanent fault that a repair ends goes into the ledger (R468). -/
def State.countEvent (s : State) (e : ErrIn) (failsStep : Bool) : State :=
  let c := s.countEntry e.address e.code
  let n := c.times.length + 1
  let s1 := s.storeCount { c with times := c.times ++ [s.now] }
  if s.turnsPermanent e then
    let s2 := State.addError { s1 with units := { s1.units with permanent := insertNat e.address s1.units.permanent } }
      { e with cls := 1, count := n, flags := e.flags + (if e.repairs then flRepair + s.ledgerFlag e.unit e.action e.detail else 0) }
    if e.repairs then s2.addLedger e.unit e.action 3 e.detail else s2
  else if failsStep ∨ n = 1 ∨ n = 4 ∨ n = 8 ∨ n = 12 then s1.addError { e with cls := 0, count := n }
  else s1

/-- A counted event of a unit that a permanent fault retires: the event that makes it so carries RETIRED, and LEDGER where an entry of ACTION `action` follows, and the
unit is retired (R479, R487, Table 15.3, Table 15.4). -/
def State.countRetired (s : State) (e : ErrIn) (action : Nat) (retire : State → State) : State :=
  if s.turnsPermanent e then retire (s.countEvent { e with flags := e.flags + flRetired + s.ledgerFlag e.unit action 0 } false) else s.countEvent e false

/-- A counted event of a link's lane or plane: one that becomes permanent is retired at the next tick, and a lane's ledger entry has a spare assigned at the next start
(R292, R472, Table 15.3). -/
def State.countLane (s : State) (e : ErrIn) : State :=
  let x := { e with repairs := decide (e.unit % 2 ^ 11 ≠ 0x7FF), action := 2, detail := e.unit % 2 ^ 16 }
  if s.turnsPermanent x then
    let s1 := s.countEvent { x with flags := x.flags + flRetired + (if x.repairs then 0 else s.ledgerFlag x.unit 0 0) } false
    { s1 with units := { s1.units with due := s1.units.due ++ [(e.unit, 2, 3)] } }
  else s.countEvent x false

/-! ### What fails a step -/

/-- Adds a failure to the running step; it stops at the next frame tick (R60, R216, R491). -/
def State.failStep (s : State) (frame status core detail : Nat) : State :=
  if s.isRunning then
    { s with step := { s.step with faults := s.step.faults ++ [{ frame := frame, status := status, core := core, detail := detail }] } }
  else s

/-- An event that fails the running step with a status of Table 9.16 makes a record of its own with that CODE, CLASS 1 for 0x04xx, and STEP_FAILED (R486, R487,
Table 15.5, Table 15.6). With no step running there is nothing to fail. -/
def State.failWith (s : State) (e : ErrIn) (detail : Nat) : State :=
  if s.isRunning then
    (s.addError { e with cls := 1, flags := e.flags + flStepFailed, frame := s.step.frame }).failStep s.step.frame e.code 0xFFFF detail
  else s

/-- DETAIL of a core fault: frame in [31:0], core index in [47:32] (R361). -/
def coreDetail (frame core : Nat) : Nat := frame + core * 2 ^ 32

/-- The step status of a core fault (Table 5.12). -/
def coreFaultStatus (k : CoreFaultKind) : Nat :=
  match k with
  | .protection => 0x111
  | .illegal => 0x113
  | .address => 0x114
  | .route => 0x115
  | .clockOverrun => 0x402
  | .cycleLimit => 0x110

/-- A core latches its first fault (R215) and issues nothing more in the step (R212). -/
def Core.latchFault (k : Core) (kind : CoreFaultKind) (pc : Nat) (word : BitVec 64) (cycle : Nat) : Core :=
  { k with latch := k.latch.or (some { kind := kind, pc := pc, word := word, frame := k.frame, cycle := cycle }), mode := .faulted }

/-- The latch of the die agent at a place takes its first fault against a sending core (R215). -/
def State.latchAgent (s : State) (place : Nat) (l : AgentLatch) : State :=
  { s with agents := tset none s.agents place ((tget none s.agents place).or (some l)) }

/-- A fault against a core, recorded by a die agent (R215): the error record, and the step's failure. `reporter` is the agent's die. A core's
own fault is latched in the core; one that a receiving die raises is latched by the agent of that place, `agent`. Either way the core issues nothing
more (R212; log entry 106). -/
def State.coreFault (s : State) (c : Nat) (kind : CoreFaultKind) (pc : Nat) (word : BitVec 64) (cycle reporter : Nat)
    (agent : Option Nat) : State :=
  let k := s.core c
  let s1 := match agent with
    | none => s.setCore c (k.latchFault kind pc word cycle)
    | some place => (s.setCore c { k with mode := .faulted }).latchAgent place
        { core := c, kind := kind, pc := pc, word := word, frame := k.frame, cycle := cycle }
  let s2 := s1.addError { unit := s.coreUnit c, code := coreFaultStatus kind, cls := 2, location := word.toNat, aux := pc,
                          flags := if s.isRunning then flStepFailed else 0, frame := k.frame, cycle := cycle, reporter := reporter }
  s2.failStep k.frame (coreFaultStatus kind) c (coreDetail k.frame c)

/-- A core's own fault (R212, R215): latched, recorded by its die agent, and the core issues nothing more. -/
def State.raiseCore (s : State) (c : Nat) (kind : CoreFaultKind) (word : BitVec 64) (cycle : Nat) : State :=
  s.coreFault c kind (s.core c).pc word cycle (c / 16) none

/-- The timeout error against the core that awaited an item (R361, R542). -/
def State.timeout (s : State) (c location route : Nat) : State :=
  let f := s.step.frame
  (s.addError { unit := s.coreUnit c, code := 0x116, cls := 2, location := location, aux := route % 65536,
                flags := if s.isRunning then flStepFailed else 0, frame := f, cycle := (s.core c).cycle, reporter := c / 16 }).failStep f 0x116 c (coreDetail f c)

/-- Whether poison at a cell address persists over a replay: in a READ_ONLY region, the committed side of an ALIASED region, a
resident row, or an INPUT range that no descriptor rewrites (R489). -/
def State.poisonPersists (s : State) (planAddr : Nat) (t : Target) : Bool :=
  match t with
  | .hbm _ => match s.regionOf planAddr with
    | some (r, committed) =>
      r.kind == 2 || (r.kind == 4 && committed) ||
      (r.kind == 0 && !(s.step.inputs.any (fun d => d.region == r.id && decide (r.base + d.offset ≤ planAddr) &&
        decide (planAddr < r.base + d.offset + d.len))))
    | none => false
  | .scratch d k r => decide (r < s.residentRows (d * 16 + k))
  | .cluster d j r => decide (r < s.residentRows (clusterMem (2 * d + j)))
  | _ => false

/-- Whether a target is a resident row of the loaded plan. -/
def State.isResident (s : State) (t : Target) : Bool :=
  match t with
  | .scratch d k r => decide (r < s.residentRows (d * 16 + k))
  | .cluster d j r => decide (r < s.residentRows (clusterMem (2 * d + j)))
  | _ => false

/-- LOCATION of poison (Table 15.5): row and memory number for a row memory, the byte address for HBM. The mark names a row, so the
word field is zero (log entry 17). -/
def poisonLocation (t : Target) : Nat :=
  match t with
  | .scratch _ _ r => r
  | .cluster _ _ r => r + 65536
  | .hbm a => a
  | _ => 0

/-- The unit that holds a target: core, cluster or stack. -/
def State.targetUnit (s : State) (t : Target) : Nat :=
  match t with
  | .scratch d k _ => s.coreUnit (d * 16 + k)
  | .cluster d j _ => s.clusterUnit (2 * d + j)
  | .hbm a => unitId 5 ((stackOf s.fuses.part (s.resolveHbm a)).getD 0) 0
  | _ => hubUnit

/-- The die agent or hub that reports for a target. -/
def targetReporter (t : Target) : Nat :=
  match t with
  | .scratch d _ _ => d
  | .cluster d _ _ => d
  | _ => 0x200

/-- PERSISTENT and RESIDENT of a record whose poison lies at a target (R489). -/
def State.poisonFlags (s : State) (t : Target) : Nat :=
  let a := match t with | .hbm a => a | _ => 0
  (if s.poisonPersists a t then flPersistent else 0) + (if s.isResident t then flResident else 0)

/-- Poisoned data consumed within a step: the record of R489, and the step fails with 0x0403 (R230). `core` is the core whose instruction reads
it, 0xFFFF where none does, and `e` gives the unit, place and cycle; the lowest core decides DETAIL among those of one frame (R216, R491), then the first read (log
entry 107). -/
def State.poisonRead (s : State) (core : Nat) (e : ErrIn) : State :=
  if s.isRunning then
    (s.addError { e with code := 0x403, cls := 2, flags := e.flags + (flPoisoned + flStepFailed), frame := s.step.frame }).failStep s.step.frame 0x403 core e.unit
  else s

/-- Stored data read as a unit of a step: what is poisoned is consumed. `cycle` is the cycle count of the core concerned, 0 when none (Table 15.4). -/
def State.consumePoison (s : State) (core cycle : Nat) (t : Target) : State :=
  if s.isPoisoned (s.cellAddr t) then
    s.poisonRead core { unit := s.targetUnit t, code := 0x403, cls := 2, location := poisonLocation t, aux := match t with | .hbm _ => 2 | _ => 1,
                        flags := s.poisonFlags t, cycle := cycle, reporter := targetReporter t }
  else s

/-- Rows or units that no core's instruction reads. -/
def State.consumeRows (s : State) (ts : List Target) : State := forEach ts (fun t s => s.consumePoison 0xFFFF 0 t) s

/-- Poisoned accumulator rows that an instruction of a core reads in a cycle: consumed; memory number 2 in LOCATION (R489, Table 15.5). -/
def State.accRead (s : State) (c cycle : Nat) (rows : List Nat) : State :=
  forEach rows (fun r s =>
    s.poisonRead c { unit := s.coreUnit c, code := 0x403, cls := 2, location := r + 2 * 2 ^ 16, aux := 1, cycle := cycle, reporter := c / 16 }) s

/-- Poisoned data that a reduction of a die reads: consumed. The input lies in no row: the record names the unit whose data it is, a core's, or the die whose router made
it, with LOCATION 0 (DESIGN CHOICE: R489 names a row or unit and Table 15.5 has no place for data under way; log entry 107). -/
def State.consumeInputs (s : State) (die : Nat) (ins : List RedInput) : State :=
  forEach (ins.filter (·.poison)) (fun x s =>
    s.poisonRead 0xFFFF { unit := if x.core < 2304 then s.coreUnit x.core else unitId 2 (s.siteOf (x.core - 0x20000)) 1, code := 0x403, cls := 2, aux := 1,
                          reporter := die }) s

/-- The scratchpad row target of a core. -/
def scratchRow (c r : Nat) : Target := .scratch (c / 16) (c % 16) r

/-- The row target of a core's own cluster memory. -/
def ownClusterRow (c r : Nat) : Target := .cluster (c / 16) (c % 16 / 8) r

/-- Bytes of a scratchpad row of a core. -/
def State.scratchBytes (s : State) (c r : Nat) : List Byte := s.readRow (memRowAddr c r)

end Sys2Proof.Machine
end

