-- ==== Sys2Proof/Machine/Flags.lean ====
section
/-! DEFINITION. Status words and sticky flags: the core status word, the conversion flags, and the window's status registers. -/

namespace Sys2Proof.Machine

/-! ### The core status word (Table 5.2) -/

/-- The core status word of Table 5.2. -/
def Core.statusWord (k : Core) : BitVec 64 :=
  BitVec.ofNat 64 (bit k.nv + 2 * bit k.of + 4 * bit k.wr + 2 ^ 8 * k.loops.length + 2 ^ 16 * k.sl.toNat)

/-- Sets the sticky conversion bits that a conversion sets (R106). -/
def Core.setFlags (k : Core) (f : ConvFlags) : Core :=
  { k with nv := k.nv || f.nv, of := k.of || f.of, wr := k.wr || f.wr }

/-- Clears each sticky bit for which the operand holds a 1 (Table 5.7, CLRST). -/
def Core.clearFlags (k : Core) (a : BitVec 64) : Core :=
  { k with nv := k.nv && !a.getLsbD 0, of := k.of && !a.getLsbD 1, wr := k.wr && !a.getLsbD 2 }

/-! ### Window status registers (Tables 9.3 and 9.4) -/

/-- STEP_STATE as INFO gives it (Table 9.11). -/
def stepStateCode (s : StepState) : Nat :=
  match s with
  | .noPlan => 0
  | .idle => 1
  | .running => 2
  | .awaitCommit => 3
  | .failed => 4
  | .failedFinal => 5

end Sys2Proof.Machine
end

