-- ==== Sys2Proof/Machine/Engine.lean ====
section
/-! DEFINITION. What the tensor engine and the output stage compute, and when they read and write their rows (03 R113 to R121, 04 R134 to R161,
06 R228). -/

namespace Sys2Proof.Machine

/-! ### Geometry (Table 4.2, Table 4.3) -/

/-- Tile classes. -/
inductive TileClass where
  | h | b | f
deriving DecidableEq, Repr

/-- Whether a format is a tensor-engine operand format (Table 3.1). -/
def tensorFmt (f : Nat) : Bool := decide (1 ≤ f ∧ f ≤ 9)

/-- The class of a format (Table 4.2). -/
def classOf (f : Nat) : TileClass := if f = 1 ∨ f = 2 then .h else if f = 7 ∨ f = 9 then .f else .b

/-- The class of a pair: that of its wider operand (R134). -/
def pairClass (fa fw : Nat) : TileClass := if fmtWidth fa ≥ fmtWidth fw then classOf fa else classOf fw

/-- Logical K per cycle of dense weights; 2:4 weights double it (Table 4.2). -/
def denseK (c : TileClass) : Nat := match c with | .h => 64 | .b => 128 | .f => 256
def logicalK (c : TileClass) (sp : Bool) : Nat := if sp then 2 * denseK c else denseK c

/-- Rows that TWLOAD reads: metadata rows (Table 5.8). -/
def metaRowCount (c : TileClass) (sp : Bool) : Nat := if sp then (match c with | .h => 2 | .b => 4 | .f => 8) else 0

/-- Rows that TWLOAD reads: scale rows (Table 5.8). -/
def scaleRowCount (c : TileClass) (sp sc : Bool) : Nat := if sc then (if c = .f ∧ sp then 2 else 1) else 0

/-- Segments per row P (Table 4.3). -/
def segPerRow (f : Nat) : Nat := perRow f / 64

/-- Floating-point formats of the first row of Table 3.10. -/
def microFloat (f : Nat) : Bool := decide (3 ≤ f ∧ f ≤ 7)

/-- Table 3.10: whether the pair is accepted, and whether it accumulates in INT32. -/
def pairAcc (fa : Nat) (sa : Bool) (fw : Nat) (sw : Bool) : Option Bool :=
  if microFloat fa && microFloat fw then some false
  else if fa = fw ∧ (fa = 1 ∨ fa = 2) ∧ sa = false ∧ sw = false then some false
  else if (fa = 8 ∨ fa = 9) ∧ (fw = 8 ∨ fw = 9) ∧ sa = false ∧ sw = false then some true
  else if fa = 8 ∧ fw = 8 ∧ sa ∧ sw then some false
  else none

/-! ### Group sums (R114 to R117) -/

/-- The value of an element of an operand: block-scaled INT8 carries 2^−6 (R114, Table 3.5). -/
def operandValue (f : Nat) (scaled : Bool) (bits : Nat) : FVal :=
  if scaled then fscale (mxImplied f) (decodeFmt f bits) else decodeFmt f bits

/-- The sum of exact values; −0 only when every addend is −0 (R107). -/
def fsum : List FVal → FVal
  | [] => .fin false 0 0
  | v :: vs => vs.foldl faddExact v

/-- floor(log2 |p|) of a finite non-zero value. -/
def floorLog2 : FVal → Option Int
  | .fin _ m e => if m = 0 then none else some (flog2 m e)
  | _ => none

/-- max_prod_exp of R115. -/
def maxProdExp (ps : List FVal) : Option Int :=
  ps.foldl (fun a p => match a, floorLog2 p with
    | none, b => b
    | some x, none => some x
    | some x, some y => some (max x y)) none

/-- A product's magnitude truncated to the multiple of 2^L below it (R115). -/
def truncAt (l : Int) : FVal → FVal
  | .fin s m e => .fin s (floorAt m e l) l
  | v => v

/-- The group sum of a list of products (R114), in the aligned window of R115 for BF16. -/
def productSum (bf16 : Bool) (ps : List FVal) : FVal :=
  if bf16 then
    match maxProdExp ps with
    | none => fsum ps
    | some x => fsum (ps.map (truncAt (x - 79)))
  else fsum ps

/-- One group: pairs of activation and weight values, the exponent that its block scales add (none for a scale of 0xFF), and the
flags recorded for its weights. -/
structure Group32 where
  pairs : List (FVal × FVal)
  scale : Option Int
  z : Bool
  x : Bool
deriving DecidableEq, Repr

/-- The group's value by R114 and R115, computed in full. -/
def Group32.full (bf16 : Bool) (g : Group32) : FVal :=
  match g.scale with
  | none => .nan
  | some e => fscale e (productSum bf16 (g.pairs.map (fun p => fmulExact p.1 p.2)))

/-- Whether a value is an infinity or a NaN. -/
def nonFinite : FVal → Bool
  | .fin _ _ _ => false
  | _ => true

/-- The sign bit of a value. -/
def signOf : FVal → Bool
  | .fin s _ _ => s
  | .inf s => s
  | .nan => false

/-- Whether the engine switches no multiplier of the group: every activation is ±0, or the Z flag is set (R154). -/
def Group32.skipped (g : Group32) : Bool := g.pairs.all (fun p => fisZero p.1) || g.z

/-- A skipped group's value from signs, classes and the X flag: NaN where X is set, a block scale is 0xFF or an activation is an
infinity or a NaN, else a zero that is −0 only when every product is −0 (R154). -/
def Group32.skipValue (g : Group32) : FVal :=
  if g.x || g.scale.isNone || g.pairs.any (fun p => nonFinite p.1) then .nan
  else .fin (g.pairs.all (fun p => signOf p.1 != signOf p.2)) 0 0

/-- The group's value as the engine forms it. -/
def Group32.value (bf16 : Bool) (g : Group32) : FVal := if g.skipped then g.skipValue else g.full bf16

/-- An exact integer value as an integer. -/
def intOf : FVal → Int
  | .fin s m e => sigAt s m e 0
  | _ => 0

/-- One group folded into an accumulator element (R116): `first` when it begins the accumulation. -/
def foldGroup (isInt sat first : Bool) (old : BitVec 32) (v : FVal) : BitVec 32 :=
  if isInt then BitVec.ofNat 32 (narrowInt 32 sat ((if first then 0 else old.toInt) + intOf v)).1
  else BitVec.ofNat 32 (rne 0 (if first then v else faddExact (decodeFmt 0 old.toNat) v))

/-- Every group of a K-slice folded in increasing K (R147). -/
def foldGroups (isInt sat bf16 init : Bool) (old : BitVec 32) : List Group32 → BitVec 32
  | [] => old
  | g :: gs => gs.foldl (fun a h => foldGroup isInt sat false a (h.value bf16)) (foldGroup isInt sat init old (g.value bf16))

/-! ### Weight buffers (R136 to R142, R152) -/

/-- A byte of a list, 0 beyond its end. -/
def byteAt (bs : List Byte) (i : Nat) : Nat := (bs.getD i 0).toNat

/-- Stored element t of weight column n (R136): row n / 4, slot n mod 4, packed by R96. -/
def WBuf.stored (w : WBuf) (n t : Nat) : Nat :=
  getElem w.fmt ((w.values.drop (512 * (n / 4))).take 512) ((n % 4) * denseK (classOf w.fmt) + t)

/-- The metadata nibble of column n, quad j (R137). -/
def WBuf.nibble (w : WBuf) (n j : Nat) : Nat :=
  let i := n * (logicalK (classOf w.fmt) true / 4) + j
  byteAt w.metaRows (i / 2) / 16 ^ (i % 2) % 16

/-- The block scale of column n, group g (R138). -/
def WBuf.scale (w : WBuf) (n g : Nat) : Nat := byteAt w.scales (n * (logicalK (classOf w.fmt) w.sparse / 32) + g)

/-- One quad's products: each stored value with the position its index names, and +0 at each pruned position (R152, R153). -/
def quadPairs (j nib v0 v1 : Nat) : List (Nat × Nat) :=
  let i0 := nib % 4
  let i1 := nib / 4 % 4
  [(4 * j + i0, v0), (4 * j + i1, v1)] ++
    ((List.range 4).filter (fun p => p != i0 && p != i1)).map (fun p => (4 * j + p, 0))

/-- The products of column n, group g, as (logical position, weight pattern). -/
def WBuf.groupPairs (w : WBuf) (n g : Nat) : List (Nat × Nat) :=
  if w.sparse then
    (List.range 8).flatMap fun q =>
      let j := 8 * g + q
      quadPairs j (w.nibble n j) (w.stored n (2 * j)) (w.stored n (2 * j + 1))
  else (List.range 32).map fun i => (32 * g + i, w.stored n (32 * g + i))

/-- The Z flag of column n, group g: every logical weight is ±0 (R142). -/
def WBuf.zFlag (w : WBuf) (n g : Nat) : Bool := (w.groupPairs n g).all (fun p => fisZero (decodeFmt w.fmt p.2))

/-- The X flag: the group holds an infinity or a NaN, or its block scale is 0xFF (R142). -/
def WBuf.xFlag (w : WBuf) (n g : Nat) : Bool :=
  (w.groupPairs n g).any (fun p => nonFinite (decodeFmt w.fmt p.2)) || (w.scaled && w.scale n g == 255)

/-- The buffer with the flags of every column and group recorded (R142). -/
def WBuf.record (w : WBuf) : WBuf :=
  let gs := logicalK (classOf w.fmt) w.sparse / 32
  let idx := (List.range 64).flatMap (fun n => (List.range gs).map (fun g => (n, g)))
  { w with zFlags := idx.map (fun p => w.zFlag p.1 p.2), xFlags := idx.map (fun p => w.xFlag p.1 p.2) }

/-- The weights that stand in for a buffer whose valid bit is clear: dense +0 in the activation format and scaling (R144, R193). -/
def impliedWeights (f : Nat) (scaled : Bool) : WBuf :=
  { valid := true, fmt := f, sparse := false, scaled := scaled, values := [], metaRows := [],
    scales := List.replicate 512 0x7F, zFlags := List.replicate 512 true, xFlags := List.replicate 512 false }

/-! ### TMAC -/

/-- The fields of a TMAC with its register operands (R193). -/
structure TmacOp where
  buf : Bool
  afmt : Nat
  asc : Bool
  init : Bool
  slotted : Bool
  sat : Bool
  a : Nat
  acc : Nat
  m : Nat
  stride : Nat
  as : Nat
  sstride : Nat
deriving DecidableEq, Repr

/-- Reads a TMAC's word and g[GP]. -/
def tmacOp (w : BitVec 64) (g : BitVec 64) : TmacOp :=
  { buf := fld w 55 55 == 1, afmt := fld w 54 51, asc := fld w 50 50 == 1, init := fld w 49 49 == 1, slotted := fld w 48 48 == 1,
    sat := fld w 47 47 == 1, a := fld w 46 34, acc := fld w 33 23, m := fld w 22 12,
    stride := fld g 12 0, as := fld g 28 16, sstride := fld g 44 32 }

/-- A row that an instruction has read, and whether it carried a poison mark. -/
def Job.row (j : Job) (key : Nat) : List Byte := (tget ([], false) j.rows key).1
def Job.rowBad (j : Job) (key : Nat) : Bool := (tget ([], false) j.rows key).2

/-- The places of a TMAC's rows: segment row `sg` of group q, activation scale row r of segment `sg` (R228). -/
def segKey (q sg : Nat) : Nat := q * 16 + sg
def scaleKey (r sg : Nat) : Nat := 65536 + r * 16 + sg

/-- Element k of activation row m (R139), +0 in an empty row (R156). -/
def Job.actElem (j : Job) (o : TmacOp) (isEmpty : Bool) (m k : Nat) : Nat :=
  if isEmpty then 0
  else getElem o.afmt (j.row (segKey (m / segPerRow o.afmt) (k / 64))) (64 * (m % segPerRow o.afmt) + k % 64)

/-- The block scale of activation row m, group g (R140), 0x7F in an empty row. -/
def Job.actScale (j : Job) (isEmpty : Bool) (m g : Nat) : Nat :=
  if isEmpty then 0x7F else byteAt (j.row (scaleKey (m / 256) (g / 2))) (2 * (m % 256) + g % 2)

/-- The exponent that the block scales add: (sA − 127) + (sW − 127), none for a scale of 0xFF (R114). -/
def scaleExp (sa sw : Option Nat) : Option Int :=
  if sa = some 255 ∨ sw = some 255 then none
  else some ((match sa with | none => 0 | some x => (x : Int) - 127) + (match sw with | none => 0 | some x => (x : Int) - 127))

/-- The groups of one activation row against column n. -/
def rowGroups (b : WBuf) (o : TmacOp) (act : List Nat) (ascale : List Nat) (n groups : Nat) : List Group32 :=
  let stride := logicalK (classOf b.fmt) b.sparse / 32
  (List.range groups).map fun g =>
    { pairs := (b.groupPairs n g).map (fun p =>
        (operandValue o.afmt o.asc (act.getD p.1 0), operandValue b.fmt b.scaled p.2)),
      scale := scaleExp (if o.asc then some (ascale.getD g 0x7F) else none) (if b.scaled then some (b.scale n g) else none),
      z := b.zFlags.getD (n * stride + g) false, x := b.xFlags.getD (n * stride + g) false }

/-- The accumulator row after activation row m enters (R147). -/
def Job.tmacRow (j : Job) (k : Core) (isInt : Bool) (o : TmacOp) (m : Nat) : List (BitVec 32) :=
  let b := j.wbuf
  let kk := logicalK (pairClass o.afmt b.fmt) b.sparse
  let isEmpty := o.slotted && decide (m ≥ j.sl)
  let act := (List.range kk).map (j.actElem o isEmpty m)
  let asc := if o.asc then (List.range (kk / 32)).map (j.actScale isEmpty m) else []
  (List.range 64).map fun n =>
    foldGroups isInt o.sat (o.afmt == 1) o.init (k.accElem (o.acc + m) n) (rowGroups b o act asc n (kk / 32))

/-- Segments per row of a TMAC's K-slice (S of Table 4.2). -/
def tmacSegs (o : TmacOp) (b : WBuf) : Nat := logicalK (pairClass o.afmt b.fmt) b.sparse / 64

/-- Whether accumulator row ACC + m comes to hold poisoned data: of the weights, of the rows that hold the activations and their scales, or, without
INIT, of the value that it adds to (R230). The rows read for an empty row of a slotted TMAC count as well, though their data is discarded (DESIGN CHOICE: R156 does not
say whether the mark is discarded with it; log entry 135). -/
def Job.tmacBad (j : Job) (k : Core) (o : TmacOp) (m : Nat) : Bool :=
  j.wbuf.bad || (!o.init && k.accBad.contains (o.acc + m)) ||
    (List.range (tmacSegs o j.wbuf)).any (fun sg =>
      j.rowBad (segKey (m / segPerRow o.afmt) sg) || (o.asc && j.rowBad (scaleKey (m / 256) sg)))

/-- What a TMAC leaves in the accumulator once its last row is through (R146, R147). -/
def Core.tmacDone (k : Core) (j : Job) : Core :=
  let o := tmacOp j.word j.g0
  let isInt := (pairAcc o.afmt o.asc j.wbuf.fmt j.wbuf.scaled).getD false
  (List.range o.m).foldl (fun k m =>
    let r := o.acc + m
    let bad := j.tmacBad k o m
    { k.setAccRow r (j.tmacRow k isInt o m) with accBad := if bad then insertNat r k.accBad else eraseNat r k.accBad }) k

/-- The reads of a TMAC that issues in a cycle: row s of group q in cycle t + qP + s, and the activation scale rows of rows 256r onward in cycles
t + qP + S + s with q = floor(256r / P) (R228). -/
def tmacActs (cyc : Nat) (o : TmacOp) (segs : Nat) : List Act :=
  let p := segPerRow o.afmt
  (List.range ((o.m - 1) / p + 1)).flatMap fun q =>
    (List.range segs).map (fun sg =>
      { cyc := cyc + q * p + sg, write := false, cluster := false, row := o.a + sg * o.stride + q, key := segKey q sg }) ++
    (if o.asc then
      ((List.range ((o.m - 1) / 256 + 1)).filter (fun r => 256 * r / p == q)).flatMap (fun r => (List.range segs).map (fun sg =>
        { cyc := cyc + q * p + segs + sg, write := false, cluster := false, row := o.as + sg * o.sstride + r, key := scaleKey r sg }))
    else [])

/-- R194: whether the ranges of a TMAC with M > 0 lie within the accumulator half and the scratchpad. -/
def tmacRangeBad (o : TmacOp) (segs : Nat) : Bool :=
  let last := o.acc + o.m - 1
  decide (last > 2047) || decide (o.acc / 1024 ≠ last / 1024) ||
    decide (o.a + (segs - 1) * o.stride + (o.m - 1) / segPerRow o.afmt > 8191) ||
    (o.asc && decide (o.as + (segs - 1) * o.sstride + (o.m - 1) / 256 > 8191))

/-! ### TDRAIN -/

/-- The fields of a TDRAIN with its register operands (R195, R196). -/
structure DrainOp where
  acc : Nat
  rows : Nat
  dst : Nat
  dfmt : Nat
  rm : Nat
  sat : Bool
  isInt : Bool
  bias : Option Nat
  clip : Option (Nat × Nat)
  dsc : Bool
  st : Option Nat
  rs : Option Nat
  ds : Nat
deriving DecidableEq, Repr

/-- Reads a TDRAIN's word and its register pair (Table 5.9). -/
def drainOp (w g0 g1 : BitVec 64) : DrainOp :=
  { acc := fld w 55 45, rows := fld w 44 34, dst := fld w 33 21, dfmt := fld w 20 17, rm := fld w 16 14, sat := fld w 13 13 == 1,
    isInt := fld w 12 12 == 1, bias := if fld w 11 11 = 1 then some (fld w 4 1) else none,
    clip := if fld w 10 10 = 1 then some (fld g1 31 0, fld g1 63 32) else none, dsc := fld w 9 9 == 1,
    st := if fld g0 61 61 = 1 then some (fld g0 31 0) else none,
    rs := if fld g0 62 62 = 1 then some (fld g0 44 32) else none, ds := fld g0 60 48 }

/-- Clipping (R120). -/
def clipTo (bounds : Option (Nat × Nat)) (t : FVal) : FVal :=
  match bounds with
  | none => t
  | some (lo, hi) =>
    let l := decodeFmt 0 lo
    let h := decodeFmt 0 hi
    let t1 := if flt t l then l else t
    if flt h t1 then h else t1

/-- The exact value of element n of drained row i (R118 to R121). -/
def Job.drainValue (j : Job) (k : Core) (o : DrainOp) (i n : Nat) : FVal :=
  let acc := decodeFmt (if o.isInt then 10 else 0) (k.accElem (o.acc + i) n).toNat
  let t1 := match o.st with
    | none => acc
    | some x => fmulExact acc (decodeFmt 0 x)
  let t2 := match o.rs with
    | none => t1
    | some _ => fmulExact t1 (decodeFmt 0 (getElem 0 (j.row (i / 128)) (i % 128)))
  let t3 := match o.bias with
    | none => t2
    | some _ => faddExact t2 (decodeFmt 0 (laneOf 4 j.bytes n))
  if o.isInt && o.dfmt == 10 && o.st.isNone && o.rs.isNone && o.bias.isNone then acc else clipTo o.clip t3

/-- The draw of a core for a value of the element counter (Table 3.8). -/
def State.coreDraw (s : State) (c frame elem : Nat) : Nat :=
  srDraw ((s.plan.map (·.seed)).getD 0) (s.step.frameBase + frame) c elem

/-- One drained row: its 64 elements, its two block scales, and the flags it sets (R158, R159, R161). -/
def State.drainRow (s : State) (c : Nat) (j : Job) (o : DrainOp) (i : Nat) : List Nat × List Nat × ConvFlags :=
  let k := s.core c
  let vs := (List.range 64).map (j.drainValue k o i)
  let rnd := fun n => if o.rm = 4 then s.coreDraw c k.frame (j.elem + (64 * i + n)) else 0
  if o.dsc then
    let b0 := mxBlock o.dfmt o.rm ((List.range 32).map rnd) (vs.take 32)
    let b1 := mxBlock o.dfmt o.rm ((List.range 32).map (fun n => rnd (32 + n))) (vs.drop 32)
    (b0.2.1 ++ b1.2.1, [b0.1, b1.1], orFlags b0.2.2 b1.2.2)
  else
    let es := (vs.zip (List.range 64)).map (fun p => convert o.dfmt o.rm o.sat false (rnd p.2) p.1)
    (es.map (·.1), [], es.foldl (fun a e => orFlags a e.2) {})

/-- R197: whether a TDRAIN with NROWS > 0 reaches outside an accumulator half or the scratchpad. -/
def drainRangeBad (o : DrainOp) : Bool :=
  let last := o.acc + o.rows - 1
  decide (last > 2047) || decide (o.acc / 1024 ≠ last / 1024) ||
    decide (o.dst + (o.rows - 1) / segPerRow o.dfmt > 8191) ||
    (match o.rs with | some r => decide (r + (o.rows - 1) / 128 > 8191) | none => false) ||
    (o.dsc && decide (o.ds + (o.rows - 1) / 256 > 8191))

/-- Value rows and scale rows that a drain writes, in order. -/
def drainTargets (o : DrainOp) : List Nat :=
  (List.range ((o.rows - 1) / segPerRow o.dfmt + 1)).map (o.dst + ·) ++
    (if o.dsc then (List.range ((o.rows - 1) / 256 + 1)).map (o.ds + ·) else [])

/-- The drained rows that scratchpad value row q, or scale row q, holds. -/
def DrainOp.rowsOf (o : DrainOp) (per q : Nat) : List Nat := ((List.range per).map (q * per + ·)).filter (fun i => decide (i < o.rows))

/-- An access put in its place by cycle. -/
def insertAct (a : Act) : List Act → List Act
  | [] => [a]
  | b :: bs => if a.cyc < b.cyc then a :: b :: bs else b :: insertAct a bs

/-- The places of a drain's rows: per-row scale row j at j, value row q at 65,536 + q, scale row j at 131,072 + j. -/
def valueKey (q : Nat) : Nat := 65536 + q
def drainScaleKey (q : Nat) : Nat := 131072 + q

/-- The accesses of a TDRAIN that issues in a cycle: per-row scale row RS + j in cycle t + 128j (R228), and each row of its values and of its scales
written 8 cycles after the last accumulator row that it holds is read (R157, R159). -/
def drainActs (cyc : Nat) (o : DrainOp) : List Act :=
  let p := segPerRow o.dfmt
  let vals : List Act := (List.range ((o.rows - 1) / p + 1)).map (fun q =>
    { cyc := cyc + min (q * p + p - 1) (o.rows - 1) + 8, write := true, cluster := false, row := o.dst + q, key := valueKey q })
  let scs : List Act := if o.dsc then (List.range ((o.rows - 1) / 256 + 1)).map (fun q =>
    { cyc := cyc + min (256 * q + 255) (o.rows - 1) + 8, write := true, cluster := false, row := o.ds + q, key := drainScaleKey q }) else []
  let rds : List Act := match o.rs with
    | some r => (List.range ((o.rows - 1) / 128 + 1)).map (fun q =>
        { cyc := cyc + 128 * q, write := false, cluster := false, row := r + q, key := q })
    | none => []
  (scs ++ rds).foldl (fun as a => insertAct a as) vals

/-- What a drain writes at one of its places: the row, its poison mark (R230), and the flags of its conversions (R161); positions and scale
bytes beyond the last row are zero (R157, R159, R160). -/
def State.drainWrite (s : State) (c : Nat) (j : Job) (key : Nat) : List Byte × Bool × ConvFlags :=
  let o := drainOp j.word j.g0 j.g1
  let k := s.core c
  let isScale := decide (131072 ≤ key)
  let rs := if isScale then o.rowsOf 256 (key - 131072) else o.rowsOf (segPerRow o.dfmt) (key - 65536)
  let out := rs.map (s.drainRow c j o)
  let bad := j.bad || rs.any (fun i => k.accBad.contains (o.acc + i) || j.rowBad (i / 128))
  if isScale then (fitBytes 512 (out.flatMap (fun r => r.2.1.flatMap (toLE 1))), bad, {})
  else (packRow o.dfmt (out.flatMap (·.1)), bad, out.foldl (fun a r => orFlags a r.2.2) {})

end Sys2Proof.Machine
end

