-- ==== Sys2Proof/Machine/Ports.lean ====
section
/-! DEFINITION. The row memories' banks and ports, cycle by cycle: which unit takes a port, who yields, what is read and written, and how an
instruction under way ends (04 R132, R169; 06 R221 to R229). -/

namespace Sys2Proof.Machine

/-- Flits of a packet (R258). -/
def Packet.flits (p : Packet) : Nat := (32 + p.payload.length + 127) / 128

/-- Packets as they are handed to the fabric from a number on: their flits wait outside the local input until it has room (R256, R266). A REDUCE input
of the die itself goes to its entry and occupies no buffer (R280). -/
def State.entering (s : State) : Nat → List Packet → List Packet
  | _, [] => []
  | n, p :: ps =>
    (if p.typ = 7 ∧ s.siteOf p.dst = p.place then { p with uid := n, fromPort := 0, gone := 0, isLocal := true, wait := List.replicate p.flits 0 }
     else { p with uid := n, fromPort := 0, gone := 0, isLocal := false, wait := [] }) :: State.entering s (n + 1) ps

/-- Hands packets to the fabric, behind those already in it. -/
def State.inject (s : State) (ps : List Packet) : State :=
  { s with fabric := { s.fabric with
    packets := s.fabric.packets ++ s.entering s.fabric.nextUid ps, nextUid := s.fabric.nextUid + ps.length } }

/-! ### Banks and claims (R221, R223, R224) -/

/-- Banks of a memory, and the bank of a row (R221). -/
def memBanks (m : Nat) : Nat := if m < 0x80000000 then 16 else 32
def bankOf (m r : Nat) : Nat := r % memBanks m

/-- The cluster that a memory belongs to. -/
def memCluster (m : Nat) : Nat := if m < 0x80000000 then m / 8 else m - 0x80000000

/-- The cores of a cluster in increasing index. -/
def clusterCores (ci : Nat) : List Nat := (List.range 8).map (ci * 8 + ·)

/-- The memory of an access by a core's unit. -/
def Act.mem (a : Act) (c : Nat) : Nat := if a.cluster then coreClusterMem c else c

/-- The row number of an access, in as many bits as its memory's rows have. -/
def Act.rowIn (a : Act) (c : Nat) : Nat := a.row % memRows (a.mem c)

/-- The address of the row of an access. -/
def Act.addr (a : Act) (c : Nat) : Nat := memRowAddr (a.mem c) (a.rowIn c)

/-- The target of an access. -/
def Act.target (a : Act) (c : Nat) : Target := if a.cluster then ownClusterRow c (a.rowIn c) else scratchRow c (a.rowIn c)

/-- A number for the read or write port of the bank of an access. -/
def Act.port (a : Act) (c : Nat) : Nat := (a.mem c * 32 + bankOf (a.mem c) (a.rowIn c)) * 2 + bit a.write

/-- The accesses of an instruction in a cycle, and those after it. -/
def Job.dueAt (j : Job) (x : Nat) : List Act := j.acts.takeWhile (fun a => a.cyc == x)
def Job.after (j : Job) (x : Nat) : List Act := j.acts.dropWhile (fun a => a.cyc == x)

/-- What one instruction under way does in a cycle: the accesses that take their ports, and those that yield. -/
structure Claim where
  core : Nat
  idx : Nat
  wins : List Act
  yields : List Act
deriving DecidableEq, Repr

/-- The units in the order of Table 6.3; each keeps that order on the read port and on the write port. -/
def portOrder : List Nat := [2, 1, 3, 7, 4, 5, 6]

/-- The claim of one instruction, after the ports that earlier claimants have taken. A bank makes one read and one write in a cycle, so that of two accesses
of one instruction to one port the later waits (R221). A row mover moves as a whole (R229). The engine's reads never wait: Table 6.3 puts them first, and
R228 fixes their schedule (log entry 109). -/
def claimOf (taken : List Nat) (c idx : Nat) (j : Job) (x : Nat) : Claim :=
  let due := j.dueAt x
  if j.unit = 2 then { core := c, idx := idx, wins := due, yields := [] }
  else
    let r := due.foldl (fun (r : List Nat × List Act × List Act) a =>
      if r.1.contains (a.port c) then (r.1, r.2.1, r.2.2 ++ [a]) else (a.port c :: r.1, r.2.1 ++ [a], r.2.2)) (taken, [], [])
    if j.unit = 5 ∧ r.2.2 ≠ [] then { core := c, idx := idx, wins := [], yields := due }
    else { core := c, idx := idx, wins := r.2.1, yields := r.2.2 }

/-- The claims of a cluster in a cycle, in order of precedence. -/
def State.claims (s : State) (ci x : Nat) : List Claim :=
  ((portOrder.flatMap (fun u => (clusterCores ci).flatMap (fun c =>
    let js := (s.core c).timing.jobs
    ((js.zip (List.range js.length)).filter (fun p => p.1.unit == u && p.1.dueAt x != [])).map (fun p => (c, p.2, p.1))))).foldl
    (fun (acc : List Nat × List Claim) (p : Nat × Nat × Job) =>
      let cl := claimOf acc.1 p.1 p.2.1 p.2.2 x
      (acc.1 ++ cl.wins.map (·.port p.1), acc.2 ++ [cl])) ([], [])).2

/-! ### Reads and writes -/

/-- Changes one instruction under way. -/
def Core.modJob (k : Core) (i : Nat) (f : Job → Job) : Core :=
  { k with timing := { k.timing with jobs := k.timing.jobs.mapIdx (fun n j => if n = i then f j else j) } }

/-- One read: the row, with its mark, comes to the instruction; a fabric interface or remote-access agent hands its packet to the router.
Poisoned data is consumed (R230). -/
def State.readAct (s : State) (c i : Nat) (a : Act) : State :=
  let bytes := s.readRow (a.addr c)
  let bad := s.isPoisoned (a.addr c)
  let s1 := (s.consumePoison c a.cyc (a.target c)).modCore c (fun k => k.modJob i (fun j => { j with rows := tinsert a.key (bytes, bad) j.rows }))
  match ((s.core c).timing.jobs[i]?).bind (fun j => j.packets[a.key]?) with
  | some p => s1.inject [{ p with payload := bytes, poison := bad }]
  | none => s1

/-- What an instruction writes at one of its places: the row and its mark, and the flags of the conversion. -/
def State.jobWrite (s : State) (c : Nat) (j : Job) (key : Nat) : List Byte × Bool × ConvFlags :=
  if j.unit = 3 then s.drainWrite c j key
  else if j.unit = 5 then (j.row key, j.rowBad key, {})
  else (j.bytes, j.bad, {})

/-- The accumulator rows that an instruction reads for what it writes at a place: those of a TDRAIN's values (R157, R489). -/
def State.jobAccRows (_ : State) (j : Job) (key : Nat) : List Nat :=
  let o := drainOp j.word j.g0 j.g1
  if j.unit = 3 ∧ key < 131072 then (o.rowsOf (segPerRow o.dfmt) (key - 65536)).map (o.acc + ·) else []

/-- One write. -/
def State.writeAct (s : State) (c i : Nat) (a : Act) : State :=
  match (s.core c).timing.jobs[i]? with
  | none => s
  | some j =>
    let w := s.jobWrite c j a.key
    ((s.accRead c a.cyc ((s.jobAccRows j a.key).filter (s.core c).accBad.contains)).writeRow (a.addr c) w.1 w.2.1).modCore c (fun k => (k.setFlags w.2.2).modJob i (fun j => { j with rows := terase a.key j.rows }))

/-! ### Yields (R227, R229) -/

/-- The accesses that remain after a cycle in which some yielded: the instruction's later accesses move one cycle. A drain's read moves its later
reads, and the writes of the rows that it has not yet read; a write of its own that waits moves alone (R227). -/
def Job.later (j : Job) (x : Nat) (yields : List Act) : List Act :=
  if yields = [] then j.after x
  else if j.unit = 3 then
    let stalls := yields.any (fun a => !a.write)
    ((yields ++ j.after x).map (fun a =>
      if a.cyc = x ∨ (stalls ∧ (!a.write ∨ x + 8 ≤ a.cyc)) then { a with cyc := a.cyc + 1 } else a)).foldl (fun as a => insertAct a as) []
  else (yields ++ j.after x).map fun a => { a with cyc := a.cyc + 1 }

/-- Moves the entry of a table by one. -/
def bump (t : Tab Nat) (i : Nat) : Tab Nat := tset 0 t i (tget 0 t i + 1)

/-- The scoreboard of a core whose instruction yields for one cycle: its unit's occupancy, where that lasts until its accesses are made, and its
result (R227; log entry 109). A row that waits to be written holds no unit. -/
def Core.yielded (k : Core) (j : Job) (x : Nat) (yields : List Act) : Core :=
  let t := { k.timing with finish := max k.timing.finish (j.done + 1), convDone := if j.unit = 3 then max k.timing.convDone (j.done + 1) else k.timing.convDone }
  if j.unit ≠ 5 ∧ yields.all (·.write) then { k with timing := t }
  else match j.unit with
  | 1 => { k with timing := { t with unit := bump t.unit 1, bufUsable := bump t.bufUsable (fld j.word 55 55) } }
  | 3 => { k with timing := { t with unit := bump t.unit 3, halfRead := bump t.halfRead (fld j.word 55 45 / 1024) } }
  | 4 =>
    if fld j.word 63 56 = 0x38 then
      let v := 2 * fld j.word 55 53
      { k with timing := { t with unit := tset 0 t.unit 4 (max (tget 0 t.unit 4) (x + 2)), v := bump (bump t.v v) (v + 1) } }
    else { k with timing := t }
  | 6 => { k with timing := { t with unit := tset 0 t.unit 6 (max (tget 0 t.unit 6) (x + 2)) } }
  | u => { k with timing := { t with unit := bump t.unit u } }

/-- What a claim leaves of its instruction and its core's scoreboard after the cycle. -/
def Core.settled (k : Core) (cl : Claim) (x : Nat) : Core :=
  match k.timing.jobs[cl.idx]? with
  | none => k
  | some j =>
    let k1 := if cl.yields = [] then k else k.yielded j x cl.yields
    k1.modJob cl.idx (fun j => { j with acts := j.later x cl.yields, done := if cl.yields = [] then j.done else j.done + 1 })

/-! ### Ends -/

/-- Counter `ctr` counts an increment that lands in a cycle (R170, R171). -/
def Core.countInc (k : Core) (ctr x : Nat) : Core :=
  let k1 := k.incC ctr
  { k1 with timing := { k1.timing with incs := tset [] k1.timing.incs ctr (x :: tget [] k1.timing.incs ctr) } }

/-- A reply slot frees in a cycle (R167). With all 16 in use, an RGET or RPUT that waits for it issues in the next cycle at the earliest (DESIGN CHOICE: R167
says only that it waits until a slot frees), and ENDF counts it as free from the next cycle on (DESIGN CHOICE: R173 does not say; log entry 109). -/
def Core.freeSlotAt (k : Core) (slot x : Nat) : Core :=
  let full := k.slotsUsed ≥ 16
  { k with slots := terase slot k.slots,
           timing := { k.timing with
             unit := if full then tset 0 k.timing.unit 6 (max (tget 0 k.timing.unit 6) (x + 1)) else k.timing.unit,
             finish := max k.timing.finish (x + 1) } }

/-- What an instruction leaves in its core in the cycle of its last access: TWLOAD its buffer (R141, R142), TMAC its accumulator rows, VLD its registers, and
an RGET reply that has landed its slot and its increment (R167). -/
def Core.jobDone (k : Core) (j : Job) (x : Nat) : Core :=
  match j.unit with
  | 1 =>
    let w := j.word
    let sp := fld w 50 50 == 1
    let cls := classOf (fld w 54 51)
    let nm := metaRowCount cls sp
    let ns := scaleRowCount cls sp (fld w 49 49 == 1)
    let rows := fun (lo n : Nat) => (List.range n).flatMap (fun i => j.row (lo + i))
    let b : WBuf :=
      { valid := true, fmt := fld w 54 51, sparse := sp, scaled := fld w 49 49 == 1, values := rows 0 16, metaRows := rows 16 nm,
        scales := rows (16 + nm) ns, bad := (List.range (16 + nm + ns)).any j.rowBad }
    k.setWbuf (fld w 55 55 == 1) b.record
  | 2 => k.tmacDone j
  | 4 =>
    if fld j.word 63 56 = 0x38 then
      let v := 2 * fld j.word 55 53
      ((k.setV v ((j.row 0).take 256)).setV (v + 1) ((j.row 0).drop 256)).markV [v, v + 1] (j.rowBad 0)
    else k
  | 6 =>
    match j.slot with
    | none => k
    | some i => match tget none k.slots i with
      | none => k
      | some e => (k.freeSlotAt i x).countInc e.ctr x
  | _ => k

/-- The accumulator half that a TMAC or TDRAIN names. -/
def Job.half (j : Job) : Nat := (if j.unit = 2 then fld j.word 33 23 else fld j.word 55 45) / 1024

/-- Whether an instruction ends only after one that was issued before it and is under way: a TMAC after the TMACs before it, with which it accumulates in issue
order (R150), and after the TDRAINs of its half, which read every row before it writes one (R146, R151). -/
def Job.heldBy (j : Job) (before : List Job) : Bool :=
  j.unit == 2 && before.any (fun b => b.unit == 2 || (b.unit == 3 && b.half == j.half))

/-- The poisoned accumulator rows that an instruction reads as it ends: those that a TMAC without INIT adds to (R147, R489). -/
def Core.addsTo (k : Core) (j : Job) : List Nat :=
  let o := tmacOp j.word j.g0
  if j.unit = 2 ∧ !o.init then ((List.range o.m).map (o.acc + ·)).filter k.accBad.contains else []

/-- Ends every instruction without accesses to come, in issue order; `before` are those that go on, `bad` the poisoned accumulator rows read. -/
def Core.endJobs (k : Core) (x : Nat) : List Job → List Job → List Nat → Core × List Job × List Nat
  | [], before, bad => (k, before, bad)
  | j :: js, before, bad =>
    if j.acts = [] ∧ !j.heldBy before then Core.endJobs (k.jobDone j x) x js before (bad ++ k.addsTo j)
    else Core.endJobs k x js (before ++ [j]) bad

/-- A core at the end of a cycle, with the poisoned accumulator rows that the instructions which end have read. -/
def Core.cycleEnd (k : Core) (cls : List Claim) (x : Nat) : Core × List Nat :=
  let k1 := cls.foldl (fun k cl => k.settled cl x) k
  let r := k1.endJobs x k1.timing.jobs [] []
  ({ r.1 with timing := { r.1.timing with jobs := r.2.1 } }, r.2.2)

/-! ### Cycles of a cluster -/

/-- One cycle of a cluster: every read of the cycle, then every write (R132), then what yields moves. -/
def State.cycleAt (s : State) (ci x : Nat) : State :=
  let cls := s.claims ci x
  let s1 := forEach cls (fun cl s => forEach (cl.wins.filter (fun a => !a.write)) (fun a s => s.readAct cl.core cl.idx a) s) s
  let s2 := forEach cls (fun cl s => forEach (cl.wins.filter (·.write)) (fun a s => s.writeAct cl.core cl.idx a) s) s1
  forEach ((clusterCores ci).filter (fun c => cls.any (fun cl => cl.core == c)))
    (fun c s =>
      let r := (s.core c).cycleEnd (cls.filter (fun cl => cl.core == c)) x
      (s.setCore c r.1).accRead c x r.2) s2

/-- The earliest access to come in a list of instructions. -/
def nextOf (js : List Job) : Option Nat :=
  js.foldl (fun m j => match j.acts.head?, m with
    | none, m => m
    | some a, none => some a.cyc
    | some a, some x => some (min a.cyc x)) none

/-- The next cycle in which a unit of the cluster has an access to make. -/
def State.nextAct (s : State) (ci : Nat) : Option Nat := nextOf ((clusterCores ci).flatMap (fun c => (s.core c).timing.jobs))

/-- Accesses to come in a cluster: the most cycles that can pass before none is left, since the first claimant of a cycle never yields. -/
def State.actsLeft (s : State) (ci : Nat) : Nat :=
  ((clusterCores ci).flatMap (fun c => (s.core c).timing.jobs.map (·.acts.length))).foldl (· + ·) 0

/-- The accesses of a cluster in cycles before one that the state itself sets, each in its cycle. -/
def State.runWhile (ci : Nat) (until_ : State → Nat) : Nat → State → State
  | 0, s => s
  | n + 1, s =>
    match s.nextAct ci with
    | none => s
    | some x => if x < until_ s then State.runWhile ci until_ n (s.cycleAt ci x) else s

/-- The accesses of a cluster, cycle by cycle, until the state is as wanted or none is left. -/
def State.runFor (ci : Nat) (enough : State → Bool) : Nat → State → State
  | 0, s => s
  | n + 1, s =>
    if enough s then s
    else match s.nextAct ci with
      | none => s
      | some x => State.runFor ci enough n (s.cycleAt ci x)

/-- A cluster's accesses until the state is as wanted. -/
def State.runUntil (s : State) (ci : Nat) (enough : State → Bool) : State := State.runFor ci enough (s.actsLeft ci) s

/-- A cluster's accesses in the cycles before `x`. -/
def State.runTo (s : State) (ci x : Nat) : State := State.runWhile ci (fun _ => x) (s.actsLeft ci) s

/-- A cluster's accesses until a core has none left: the cycle bound lies beyond every access of that core. -/
def State.runCore (s : State) (c : Nat) : State :=
  State.runWhile (c / 8) (fun s => (((s.core c).timing.jobs.flatMap (·.acts)).map (fun a => a.cyc + 1)).foldl max 0) (s.actsLeft (c / 8)) s

/-! ### Accesses from outside the core (R225, R226, R232) -/

/-- What an access from outside asks for: the service of a GET, a read by an I/O die's DMA, or an external write. -/
inductive Outside where
  | service | dma | external
deriving DecidableEq, Repr

/-- Whether an access only reads. -/
def Outside.reads (k : Outside) : Bool := k == .service || k == .dma

/-- Whether an access to a row may take its port in a cycle: no unit of the cluster takes that port and no other read from outside the bank's read port, and for an
external write nothing reads the same row (Table 6.3, R221 to R225). An RPUT's source read goes before the service of a GET (DESIGN CHOICE: both have
priority 7 of Table 6.3, and the spec names no winner; log entry 109). -/
def State.portFree (s : State) (m r : Nat) (kind : Outside) (x : Nat) : Bool :=
  (s.claims (memCluster m) x).all (fun cl => cl.wins.all (fun a =>
    a.mem cl.core != m ||
      !((bankOf m (a.rowIn cl.core) == bankOf m r && (a.write != kind.reads)) ||
        (kind == .external && !a.write && a.rowIn cl.core == r)))) &&
  (tget [] s.fabric.reads m).all (fun q => q.1 != x || (if kind = .external then q.2 != r else bankOf m q.2 != bankOf m r))

/-- The first cycle from `x` on in which an access from outside may take its port, and the state with every earlier access made. -/
def State.firstFree (m r : Nat) (kind : Outside) : Nat → Nat → State → Nat × State
  | 0, x, s => (x, s)
  | n + 1, x, s =>
    let s1 := s.runTo (memCluster m) x
    if s1.portFree m r kind x then (x, s1) else State.firstFree m r kind n (x + 1) (s1.cycleAt (memCluster m) x)

/-- The first free cycle of a port for an access from outside. -/
def State.freeFrom (s : State) (m r : Nat) (kind : Outside) (x : Nat) : Nat × State :=
  State.firstFree m r kind (s.actsLeft (memCluster m) + (tget [] s.fabric.reads m).length + 2) x s

end Sys2Proof.Machine
end

