-- ==== Sys2Proof/Machine/CoreIssue.lean ====
section
/-! DEFINITION. Issuing a core instruction: the word at the program counter, the issue cycle, the loop rule, and the faults at
issue (04 R129 to R133, 05 R180 to R185, R211 to R214). -/

namespace Sys2Proof.Machine

/-- What a meaning answers. -/
abbrev Out := Host.Outcome State Fault Refusal

/-- The major opcodes of Table 5.3. -/
def opcodes : List Nat :=
  [0x01, 0x02, 0x03, 0x04, 0x05, 0x10, 0x11, 0x12, 0x20, 0x21, 0x22, 0x30, 0x31, 0x32, 0x33, 0x34, 0x35, 0x38, 0x39, 0x3A, 0x3B,
   0x40, 0x48, 0x49, 0x50, 0x51, 0x52, 0x53, 0x54]

/-- Whether no command spells the word: its OPC is not in Table 5.3, or its FN is not in Table 5.7. -/
def unassigned (w : BitVec 64) : Bool :=
  !opcodes.contains (fld w 63 56) || (fld w 63 56 == 0x12 && decide (fld w 55 48 > 6))

/-! ### Issue cycles (R130, R183; log entry 10) -/

/-- The cycle from which g[i] is ready. -/
def Core.gAt (k : Core) (i : Nat) : Nat := tget 0 k.timing.g i
/-- The cycle from which v[i] is ready. -/
def Core.vAt (k : Core) (i : Nat) : Nat := tget 0 k.timing.v i
/-- The first cycle in which a unit is free. -/
def Core.unitAt (k : Core) (u : Nat) : Nat := tget 0 k.timing.unit u

/-- Whether a vector word's operation reads b, and c (Table 5.10). -/
def readsB (fn : Nat) : Bool := !(fn == 6 || fn == 7)
def readsC (fn : Nat) : Bool := fn == 3 || fn == 0x0B

/-- What a vector word of the layout of Table 5.4 waits for besides its unit: v[VD], and each source that its function names (R130, R183). -/
def Core.vecWaits (k : Core) (w : BitVec 64) (b c : Bool) : List Nat :=
  [k.unitAt 4, k.vAt (fld w 49 46), k.vAt (fld w 45 42)] ++ (if b then [k.vAt (fld w 41 38)] else []) ++ (if c then [k.vAt (fld w 37 34)] else [])

/-- What a VCVT waits for: its source and destination registers, each pair whole, and its scale register (R183, R202). -/
def Core.cvtWaits (k : Core) (w : BitVec 64) : List Nat :=
  let wide := fun (f : Nat) => f == 0 || f == 10
  let vd := fld w 47 44
  let va := fld w 43 40
  [k.unitAt 4, k.vAt vd, k.vAt va] ++
    (if !wide (fld w 51 48) then [k.vAt (vd + 1)] else if !wide (fld w 55 52) then [k.vAt (va + 1)] else []) ++
    (if fld w 31 31 = 1 then [k.gAt (fld w 30 26)] else [])

/-- What a TDRAIN waits for: its unit, both registers of its pair whether or not its enables use them (DESIGN CHOICE: R196 names the pair as supplying the
operands; log entry 109), the accumulator half, and the bias register (R151, R195). -/
def Core.drainWaits (k : Core) (w : BitVec 64) : List Nat :=
  let gp := fld w 8 5
  [k.unitAt 3, k.gAt (2 * gp), k.gAt (2 * gp + 1), tget 0 k.timing.halfDone (fld w 55 45 / 1024)] ++
    (if fld w 11 11 = 1 then [k.vAt (fld w 4 1)] else [])

/-- The times that must have come before a word may issue (R130, R143, R151, R179, R183): its unit is free, every register it reads or writes is
ready, and the further conditions of its instruction hold. -/
def Core.waits (k : Core) (w : BitVec 64) : List Nat :=
  match fld w 63 56 with
  | 0x01 => [k.unitAt 0]
  | 0x02 => [k.unitAt 0]
  | 0x04 => [k.unitAt 0, k.gAt (fld w 42 38)]
  | 0x10 => [k.unitAt 0, k.gAt (fld w 42 38), k.gAt (fld w 37 33), k.gAt (fld w 47 43)]
  | 0x11 => [k.unitAt 0, k.gAt (fld w 42 38), k.gAt (fld w 47 43)]
  | 0x12 =>
    if fld w 55 48 = 0x05 then [k.unitAt 0, k.gAt (fld w 42 38), k.timing.convDone]
    else [k.unitAt 0, k.gAt (fld w 47 43)] ++ (if fld w 55 48 = 0x04 then [k.timing.convDone] else [])
  | 0x20 => [k.unitAt 1, tget 0 k.timing.bufFed (fld w 55 55)]
  | 0x21 => [k.unitAt 2, k.gAt (fld w 11 7), tget 0 k.timing.bufUsable (fld w 55 55), tget 0 k.timing.halfRead (fld w 33 23 / 1024)]
  | 0x22 => k.drainWaits w
  | 0x30 => k.vecWaits w (readsB (fld w 55 50)) (readsC (fld w 55 50))
  | 0x31 => k.vecWaits w (readsB (fld w 55 50)) (readsC (fld w 55 50))
  | 0x32 => k.vecWaits w true (fld w 55 50 == 0x0B)
  | 0x33 => k.cvtWaits w
  | 0x34 => k.vecWaits w false false
  | 0x35 => k.vecWaits w false false
  | 0x38 => [k.unitAt 4, k.vAt (2 * fld w 55 53), k.vAt (2 * fld w 55 53 + 1)]
  | 0x39 => [k.unitAt 4, k.vAt (2 * fld w 55 53), k.vAt (2 * fld w 55 53 + 1)]
  | 0x3A => [k.unitAt 4, k.gAt (fld w 55 51), k.vAt (fld w 50 47)]
  | 0x3B => [k.unitAt 4, k.gAt (fld w 55 51), k.vAt (fld w 50 47)]
  | 0x40 => [k.unitAt 5]
  | 0x48 => [k.unitAt 6, k.gAt (fld w 55 51)]
  | 0x49 => [k.unitAt 6, k.gAt (fld w 55 51)]
  | 0x50 => [k.unitAt 7]
  | 0x51 => [k.unitAt 7]
  | 0x52 => [k.unitAt 7]
  | 0x53 => [k.unitAt 7]
  | 0x54 => [k.unitAt 7]
  | _ => []

/-- The first cycle after the last issue in which a word may issue, as the scoreboard stands. -/
def Core.issueAt (k : Core) (w : BitVec 64) : Nat := (k.waits w).foldl max (k.cycle + 1)

/-- A g register's result pends until a cycle. -/
def Core.gPend (k : Core) (i t : Nat) : Core := { k with timing := { k.timing with g := tset 0 k.timing.g i t, finish := max k.timing.finish t } }
/-- A v register's result pends until a cycle. -/
def Core.vPend (k : Core) (i t : Nat) : Core := { k with timing := { k.timing with v := tset 0 k.timing.v i t, finish := max k.timing.finish t } }
/-- A unit is occupied until a cycle. -/
def Core.occupy (k : Core) (u t : Nat) : Core :=
  { k with timing := { k.timing with unit := tset 0 k.timing.unit u t, finish := max k.timing.finish t } }
/-- Work of the core ends at a cycle. -/
def Core.endsAt (k : Core) (t : Nat) : Core := { k with timing := { k.timing with finish := max k.timing.finish t } }
/-- An instruction with accesses to come joins those under way. -/
def Core.start (k : Core) (j : Job) : Core :=
  { k with timing := { k.timing with jobs := k.timing.jobs ++ [j], finish := max k.timing.finish j.done } }

/-! ### The loop rule (R185) -/

/-- The next word after an instruction at address `a`, and the loop state: the head of the list is the innermost level. -/
def loopNext (a : Nat) : List Loop → Nat × List Loop
  | [] => (a + 1, [])
  | l :: ls =>
    if a = l.lend then
      if l.left - 1 ≠ 0 then (l.lstart, { l with left := l.left - 1 } :: ls) else loopNext a ls
    else (a + 1, l :: ls)

/-- The core after an instruction other than LOOP issues in a cycle: the loop rule moves the program counter. -/
def Core.issued (k : Core) (cyc : Nat) : Core :=
  { k with cycle := cyc, pc := (loopNext k.pc k.loops).1, loops := (loopNext k.pc k.loops).2 }

/-! ### Issue -/

/-- The panel in the cycle in which a core issues a word: its cluster has made every access of earlier cycles, and each yield among them has
moved what it delays, the issue among it (R130, R227). -/
def State.atIssue (s : State) (c : Nat) (w : BitVec 64) : State :=
  State.runWhile (c / 8) (fun s => (s.core c).issueAt w) (s.actsLeft (c / 8)) s

/-- Issues a word on a running core whose program holds it at the program counter, in its issue cycle: `run` gets the panel in that cycle, the core,
and the cycle. A core that a mark names, or one in a cluster or die so named, is used no further (R40, R385), and one whose clock is held issues nothing (R445). A fetch at or beyond WORDS, or a word that no command spells, raises the illegal-instruction fault (R129, R214); a command that is not
the word there does not happen (log entry 1). -/
def issue (c : Nat) (w : BitVec 64) (s : State) (run : State → Core → Nat → State) : Out :=
  if (s.core c).mode = .running ∧ !s.security.halted ∧ s.coreUsable c ∧ !s.clockHeld c then
    match (s.core c).prog[(s.core c).pc]? with
    | none => .next ((s.takeFree 1).raiseCore c .illegal (Config.freeWord s.free) ((s.core c).cycle + 1))
    | some p =>
      if p = w then
        let u := s.atIssue c w
        .next (run u (u.core c) ((u.core c).issueAt w))
      else if unassigned p then .next (s.raiseCore c .illegal p ((s.core c).cycle + 1))
      else .next s
  else .next s

/-- The illegal-instruction fault of a reserved encoding that a core has reached. It carries the cycle after the last issue, whatever the instruction
would have waited for (DESIGN CHOICE: the spec gives no cycle for an encoding that is no instruction; log entry 109). -/
def State.illegal (s : State) (c : Nat) (w : BitVec 64) : State := s.raiseCore c .illegal w ((s.core c).cycle + 1)

end Sys2Proof.Machine
end

