-- ==== Sys2Proof/Machine/Tensor.lean ====
section
/-! DEFINITION. The tensor engine and the output stage: TWLOAD, TMAC and TDRAIN (03 R113 to R121, 04 R134 to R162, 05 R191 to R197). -/

namespace Sys2Proof.Machine

/-! ### TWLOAD -/

/-- Words of TWLOAD that are reserved encodings (R181, R191). -/
def twloadBad (w : BitVec 64) : Bool :=
  decide (fld w 9 0 ≠ 0) || !tensorFmt (fld w 54 51) || (decide (fld w 49 49 = 1) && !fmtScalable (fld w 54 51))

/-- The reads of a TWLOAD that issues in a cycle: one row per cycle, values, then metadata, then scales (R141, R192). -/
def twloadActs (w : BitVec 64) (cyc : Nat) : List Act :=
  let sp := fld w 50 50 == 1
  let cls := classOf (fld w 54 51)
  let rows := (List.range 16).map (fld w 48 36 + ·) ++ (List.range (metaRowCount cls sp)).map (fld w 35 23 + ·) ++
    (List.range (scaleRowCount cls sp (fld w 49 49 == 1))).map (fld w 22 10 + ·)
  (rows.zip (List.range rows.length)).map fun p => { cyc := cyc + p.2, write := false, cluster := false, row := p.1, key := p.2 }

/-- TWLOAD (R191, R192): its rows are read one per cycle, and the buffer is usable from 4 cycles after them (R141). It has finished once the buffer is
usable (log entry 109). -/
def execTwload (core : Nat) (body : BitVec 56) (s : State) : Out :=
  issue core (wordOf 0x20 body) s fun s k cyc =>
    let w := wordOf 0x20 body
    let sp := fld w 50 50 == 1
    let sc := fld w 49 49 == 1
    let cls := classOf (fld w 54 51)
    let nm := metaRowCount cls sp
    let ns := scaleRowCount cls sp sc
    if twloadBad w then s.illegal core w
    else if fld w 48 36 + 16 > 8192 ∨ (sp ∧ fld w 35 23 + nm > 8192) ∨ (sc ∧ fld w 22 10 + ns > 8192) then s.raiseCore core .address w cyc
    else
      let rows := 16 + nm + ns
      let k1 := (k.issued cyc).occupy 1 (cyc + rows)
      s.setCore core
        ({ k1 with timing := { k1.timing with bufUsable := tset 0 k1.timing.bufUsable (fld w 55 55) (cyc + rows + 4) } }.start
          { unit := 1, word := w, acts := twloadActs w cyc, done := cyc + rows + 4 })

/-- Words of TMAC that are reserved encodings whatever the buffer holds (R193, R214). -/
def tmacBad (w : BitVec 64) : Bool :=
  decide (fld w 6 0 ≠ 0) || !tensorFmt (fld w 54 51) || (decide (fld w 50 50 = 1) && !fmtScalable (fld w 54 51)) ||
    decide (fld w 22 12 > 1024)

/-- TMAC (R193, R194, R146 to R156): row m enters in cycle s + m, and the TMAC is complete in cycle s + M + 11. A pair that is not of Table 3.10 faults
in the issue cycle, once the buffer is usable (R145). -/
def execTmac (core : Nat) (body : BitVec 56) (s : State) : Out :=
  issue core (wordOf 0x21 body) s fun s k cyc =>
    let w := wordOf 0x21 body
    let g := k.greg (fld w 11 7)
    let o := tmacOp w g
    let own := k.wbuf o.buf
    let b := if own.valid then own else impliedWeights o.afmt o.asc
    let segs := tmacSegs o b
    let half := o.acc / 1024
    if tmacBad w then s.illegal core w
    else if (pairAcc o.afmt o.asc b.fmt b.scaled).isNone then s.raiseCore core .illegal w cyc
    else if o.m ≠ 0 ∧ tmacRangeBad o segs then s.raiseCore core .address w cyc
    else
      let k1 := (k.issued cyc).occupy 2 (cyc + max 1 o.m)
      let k2 := { k1 with timing := { k1.timing with
        bufFed := if o.m = 0 then k1.timing.bufFed else tset 0 k1.timing.bufFed (fld w 55 55) (cyc + o.m),
        halfDone := tset 0 k1.timing.halfDone half (max (tget 0 k1.timing.halfDone half) (cyc + o.m + 11)) } }
      if o.m = 0 then s.setCore core (k2.endsAt (cyc + 11))
      else
        s.setCore core (k2.start
          { unit := 2, word := w, g0 := g, wbuf := b, sl := k.sl.toNat, acts := tmacActs cyc o segs, done := cyc + o.m + 11 })

/-- Words of TDRAIN that are reserved encodings (R195, R214). -/
def tdrainBad (w : BitVec 64) : Bool :=
  decide (fld w 0 0 ≠ 0) || !fmtValid (fld w 20 17) || decide (fld w 16 14 > 4) || decide (fld w 44 34 > 1024) ||
    (decide (fld w 9 9 = 1) && !fmtScalable (fld w 20 17))

/-- TDRAIN (R195 to R197, R157 to R162): the registers are read at issue (R184), accumulator row ACC + i in cycle s + i, and each row is written 8
cycles after its last element was read. -/
def execTdrain (core : Nat) (body : BitVec 56) (s : State) : Out :=
  issue core (wordOf 0x22 body) s fun s k cyc =>
    let w := wordOf 0x22 body
    let gp := fld w 8 5
    let g0 := k.greg (2 * gp)
    let g1 := k.greg (2 * gp + 1)
    let o := drainOp w g0 g1
    let half := o.acc / 1024
    if tdrainBad w then s.illegal core w
    else if o.rows = 0 then s.setCore core ((k.issued cyc).occupy 3 (cyc + 1))
    else if drainRangeBad o then s.raiseCore core .address w cyc
    else if (drainTargets o).any (fun r => s.residentLocked core r) then s.raiseCore core .protection w cyc
    else
      let k1 := (k.issued cyc).occupy 3 (cyc + o.rows)
      let k2 := { k1 with elem := if o.rm = 4 then (k1.elem + 64 * o.rows) % 2 ^ 32 else k1.elem,
                          timing := { k1.timing with
                            halfRead := tset 0 k1.timing.halfRead half (cyc + o.rows),
                            convDone := max k1.timing.convDone (cyc + o.rows + 8) } }
      s.setCore core (k2.start
        { unit := 3, word := w, g0 := g0, g1 := g1, elem := k.elem, acts := drainActs cyc o, done := cyc + o.rows + 8,
          bytes := match o.bias with | some v => k.vreg v | none => [],
          bad := match o.bias with | some v => k.vTainted [v] | none => false })

end Sys2Proof.Machine
end

