-- ==== Sys2Proof/Machine/Vector.lean ====
section
/-! DEFINITION. The vector unit: lane operations, functions, reductions, conversion, and moves (04 R163 to R165, 05 R198 to R203). -/

namespace Sys2Proof.Machine

/-- The fields of the vector word layout (Table 5.4). -/
structure VecOp where
  fn : Nat
  vd : Nat
  va : Nat
  vb : Nat
  vc : Nat
  sat : Bool
deriving DecidableEq, Repr

/-- Reads a vector word. -/
def vecOp (w : BitVec 64) : VecOp :=
  { fn := fld w 55 50, vd := fld w 49 46, va := fld w 45 42, vb := fld w 41 38, vc := fld w 37 34, sat := fld w 33 33 == 1 }

/-- Whether the word's RSV bits [32:0] hold a 1. -/
def vecRsv (w : BitVec 64) : Bool := decide (fld w 32 0 ≠ 0)

/-- A lane result of all ones or 0. -/
def mask (f : Nat) (b : Bool) : Nat := if b then 2 ^ fmtWidth f - 1 else 0

/-- One lane of Table 5.10 in FP32 (format 0) or BF16 (format 1): exact, rounded once under RNE (R125, R126, R199). -/
def floatLane (f fn a b c : Nat) : Option Nat :=
  let x := decodeFmt f a
  let y := decodeFmt f b
  match fn with
  | 0x00 => some (rne f (faddExact x y))
  | 0x01 => some (rne f (faddExact x (fneg y)))
  | 0x02 => some (rne f (fmulExact x y))
  | 0x03 => some (rne f (faddExact (fmulExact x y) (decodeFmt f c)))
  | 0x04 => some (rne f (fmax x y))
  | 0x05 => some (rne f (fmin x y))
  | 0x06 => some (if x = .nan then fmtNan f else a % 2 ^ (fmtWidth f - 1))
  | 0x07 => some (if x = .nan then fmtNan f else if a < 2 ^ (fmtWidth f - 1) then a + 2 ^ (fmtWidth f - 1) else a - 2 ^ (fmtWidth f - 1))
  | 0x08 => some (mask f (feq x y))
  | 0x09 => some (mask f (flt x y))
  | 0x0A => some (mask f (flt x y || feq x y))
  | 0x0B => some (if c ≠ 0 then a else b)
  | _ => none

/-- A 32-bit pattern as a signed integer. -/
def s32 (a : Nat) : Int := (BitVec.ofNat 32 a).toInt

/-- One lane of Table 5.10 in INT32. -/
def intLane (fn : Nat) (sat : Bool) (a b c : Nat) : Option Nat :=
  match fn with
  | 0x00 => some (narrowInt 32 sat (s32 a + s32 b)).1
  | 0x01 => some (narrowInt 32 sat (s32 a - s32 b)).1
  | 0x02 => some (Nat.land a b)
  | 0x03 => some (Nat.lor a b)
  | 0x04 => some (Nat.xor a b)
  | 0x05 => some ((a * 2 ^ (b % 32)) % 2 ^ 32)
  | 0x06 => some (a / 2 ^ (b % 32))
  | 0x07 => some ((BitVec.ofNat 32 a).sshiftRight (b % 32)).toNat
  | 0x08 => some (if s32 a < s32 b then b else a)
  | 0x09 => some (if s32 b < s32 a then b else a)
  | 0x0B => some (if c ≠ 0 then a else b)
  | _ => none

/-- A lane operation over whole registers: none when the FN is reserved. -/
def laneOp (w : Nat) (f : Nat → Nat → Nat → Option Nat) (a b c : List Byte) : Option (List Byte) :=
  ((List.range (256 / w)).mapM (fun j => f (laneOf w a j) (laneOf w b j) (laneOf w c j))).map (ofLanes w)

/-- A vector result written to v[vd]: ready after `lat` cycles, the unit occupied for `occ`; it carries the poison of the registers it read (R230). -/
def Core.vecResult (k : Core) (vd : Nat) (reads : List Nat) (bs : List Byte) (cyc occ lat : Nat) : Core :=
  ((((k.issued cyc).setV vd bs).markV [vd] (k.vTainted reads)).vPend vd (cyc + lat)).occupy 4 (cyc + occ)

/-- The registers that a lane operation reads. -/
def VecOp.reads (o : VecOp) (b c : Bool) : List Nat := [o.va] ++ (if b then [o.vb] else []) ++ (if c then [o.vc] else [])

/-- VECTOR_FP32 (R198). -/
def execVectorFp32 (core : Nat) (body : BitVec 56) (s : State) : Out :=
  issue core (wordOf 0x30 body) s fun s k cyc =>
    let w := wordOf 0x30 body
    let o := vecOp w
    match laneOp 4 (floatLane 0 o.fn) (k.vreg o.va) (k.vreg o.vb) (k.vreg o.vc) with
    | none => s.illegal core w
    | some r =>
      if vecRsv w || o.sat then s.illegal core w
      else s.setCore core (k.vecResult o.vd (o.reads (readsB o.fn) (readsC o.fn)) r cyc 1 4)

/-- VECTOR_BF16 (R198). -/
def execVectorBf16 (core : Nat) (body : BitVec 56) (s : State) : Out :=
  issue core (wordOf 0x31 body) s fun s k cyc =>
    let w := wordOf 0x31 body
    let o := vecOp w
    match laneOp 2 (floatLane 1 o.fn) (k.vreg o.va) (k.vreg o.vb) (k.vreg o.vc) with
    | none => s.illegal core w
    | some r =>
      if vecRsv w || o.sat then s.illegal core w
      else s.setCore core (k.vecResult o.vd (o.reads (readsB o.fn) (readsC o.fn)) r cyc 1 4)

/-- VECTOR_INT32: SAT is legal in VIADD and VISUB alone (R198). Its VSEL is ready after 2 cycles like the opcode's other operations (DESIGN CHOICE: Table
4.5 lists select only beside FP32 and BF16; log entry 109). -/
def execVectorInt32 (core : Nat) (body : BitVec 56) (s : State) : Out :=
  issue core (wordOf 0x32 body) s fun s k cyc =>
    let w := wordOf 0x32 body
    let o := vecOp w
    match laneOp 4 (intLane o.fn o.sat) (k.vreg o.va) (k.vreg o.vb) (k.vreg o.vc) with
    | none => s.illegal core w
    | some r =>
      if vecRsv w || (o.sat && decide (o.fn > 1)) then s.illegal core w
      else s.setCore core (k.vecResult o.vd (o.reads true (o.fn == 0x0B)) r cyc 1 2)

/-- The functions of OPC 0x34, correctly rounded (R164, R200). -/
def fnLane (fn a : Nat) : Option Nat :=
  let x := decodeFmt 0 a
  match fn with
  | 0x00 => some (rne 0 (frcpExact x))
  | 0x01 => some (rne 0 (frsqExact x))
  | 0x02 => some (rne 0 (fexp2Exact x))
  | 0x03 => some (rne 0 (flog2Exact x))
  | _ => none

/-- VECTOR_FP32_FUNCTIONS (R200). -/
def execVectorFp32Functions (core : Nat) (body : BitVec 56) (s : State) : Out :=
  issue core (wordOf 0x34 body) s fun s k cyc =>
    let w := wordOf 0x34 body
    let o := vecOp w
    match laneOp 4 (fun a _ _ => fnLane o.fn a) (k.vreg o.va) vZero vZero with
    | none => s.illegal core w
    | some r =>
      if vecRsv w || o.sat then s.illegal core w
      else s.setCore core (k.vecResult o.vd [o.va] r cyc 4 12)

/-- One level of the reduction tree: adjacent values combined (R165). -/
def pairUp (f : Nat → Nat → Nat) : List Nat → List Nat
  | a :: b :: xs => f a b :: pairUp f xs
  | xs => xs

/-- The reduction tree, level by level (R165). -/
def redTree (f : Nat → Nat → Nat) : Nat → List Nat → Nat
  | 0, xs => xs.headD 0
  | n + 1, xs => redTree f n (pairUp f xs)

/-- A reduction of FN over a register (R165, R200): the lane width in bytes and the result. -/
def reduceLanes (fn : Nat) (bs : List Byte) : Option (Nat × Nat) :=
  let add32 := fun a b => rne 0 (faddExact (decodeFmt 0 a) (decodeFmt 0 b))
  let mx := fun f a b => rne f (fmax (decodeFmt f a) (decodeFmt f b))
  let mn := fun f a b => rne f (fmin (decodeFmt f a) (decodeFmt f b))
  match fn with
  | 0x00 => some (4, redTree add32 6 (lanes 4 bs))
  | 0x01 => some (4, redTree (mx 0) 6 (lanes 4 bs))
  | 0x02 => some (4, redTree (mn 0) 6 (lanes 4 bs))
  | 0x10 => some (2, rne 1 (decodeFmt 0 (redTree add32 7 ((lanes 2 bs).map (fun x => x * 2 ^ 16)))))
  | 0x11 => some (2, redTree (mx 1) 7 (lanes 2 bs))
  | 0x12 => some (2, redTree (mn 1) 7 (lanes 2 bs))
  | _ => none

/-- VRED: the result in lane 0 of VD and +0 in every other lane (R200). -/
def execVred (core : Nat) (body : BitVec 56) (s : State) : Out :=
  issue core (wordOf 0x35 body) s fun s k cyc =>
    let w := wordOf 0x35 body
    let o := vecOp w
    match reduceLanes o.fn (k.vreg o.va) with
    | none => s.illegal core w
    | some (n, v) =>
      if vecRsv w || o.sat then s.illegal core w
      else s.setCore core (k.vecResult o.vd [o.va] (fitBytes 256 (toLE n v)) cyc 1 10)

/-! ### VCVT (R201, R202) -/

/-- The fields of VCVT (Table 5.4). -/
structure CvtOp where
  sfmt : Nat
  dfmt : Nat
  vd : Nat
  va : Nat
  pos : Nat
  rm : Nat
  sat : Bool
  sc : Bool
  gs : Nat
deriving DecidableEq, Repr

/-- Reads a VCVT word. -/
def cvtOp (w : BitVec 64) : CvtOp :=
  { sfmt := fld w 55 52, dfmt := fld w 51 48, vd := fld w 47 44, va := fld w 43 40, pos := fld w 39 36, rm := fld w 35 33,
    sat := fld w 32 32 == 1, sc := fld w 31 31 == 1, gs := fld w 30 26 }

/-- Whether a format is FP32 or INT32. -/
def wideFmt (f : Nat) : Bool := f == 0 || f == 10

/-- The V entries of Table 3.9. -/
def vPath (sf df : Nat) : Bool :=
  (sf == 0 && decide (1 ≤ df ∧ df ≤ 10)) || (df == 0 && decide (1 ≤ sf ∧ sf ≤ 10))

/-- The narrow side's format, if the conversion has one. -/
def CvtOp.narrowFmt (o : CvtOp) : Option Nat :=
  if !wideFmt o.sfmt then some o.sfmt else if !wideFmt o.dfmt then some o.dfmt else none

/-- Whether the narrow side is the destination. -/
def CvtOp.narrowing (o : CvtOp) : Bool := !wideFmt o.dfmt

/-- The register that names the narrow side. -/
def CvtOp.narrowReg (o : CvtOp) : Nat := if o.narrowing then o.vd else o.va

/-- The highest POS of a narrow format (R201). -/
def maxPos (f : Nat) : Nat := match fmtWidth f with | 16 => 3 | 8 => 7 | 6 => 9 | _ => 15

/-- VCVT words that are reserved encodings (R201, R202, R214). -/
def vcvtBad (w : BitVec 64) : Bool :=
  let o := cvtOp w
  decide (fld w 25 0 ≠ 0) || !vPath o.sfmt o.dfmt || decide (o.rm > 4) ||
    (match o.narrowFmt with
     | none => decide (o.pos ≠ 0) || o.sc
     | some f => decide (o.narrowReg % 2 ≠ 0) || decide (o.pos > maxPos f) || (o.sc && !fmtScalable f))

/-- The 512 B row that a register pair holds (R163). -/
def Core.vpair (k : Core) (v : Nat) : List Byte := k.vreg v ++ k.vreg (v + 1)

/-- The scale byte of element j: g[GS][7:0] below element 32, g[GS][15:8] from it on (R202). -/
def cvtScale (g : BitVec 64) (j : Nat) : Nat := if j < 32 then bitsOf g.toNat 7 0 else bitsOf g.toNat 15 8

/-- The 64 converted elements with their flags (R202); under a scale of 0xFF every element is +0, a NaN sets NV and an infinity OF (R106). -/
def State.cvtElems (s : State) (c : Nat) (k : Core) (o : CvtOp) : List (Nat × ConvFlags) :=
  let g := k.greg o.gs
  (List.range 64).map fun j =>
    let rnd := if o.rm = 4 then s.coreDraw c k.frame (k.elem + j) else 0
    let sb := cvtScale g j
    if o.narrowing then
      let x := decodeFmt o.sfmt (laneOf 4 (k.vreg o.va) j)
      if o.sc then
        if sb = 255 then (0, { nv := x == .nan, of := nonFinite x && x != .nan }) else mxConvert o.dfmt o.rm rnd sb x
      else convert o.dfmt o.rm o.sat false rnd x
    else
      let bits := if wideFmt o.sfmt then laneOf 4 (k.vreg o.va) j else getElem o.sfmt (k.vpair o.va) (64 * o.pos + j)
      let x := if o.sc then mxValue o.sfmt sb bits else decodeFmt o.sfmt bits
      convert o.dfmt o.rm o.sat false rnd x

/-- The byte offset of position POS of a narrow row: 64 elements each (R201, Table 4.3). -/
def posByte (f pos : Nat) : Nat := pos * (64 * fmtWidth f / 8)

/-- VCVT (R201, R202): a narrowing one changes only the bytes of its position. -/
def execVcvt (core : Nat) (body : BitVec 56) (s : State) : Out :=
  issue core (wordOf 0x33 body) s fun s k cyc =>
    let w := wordOf 0x33 body
    let o := cvtOp w
    if vcvtBad w then s.illegal core w
    else
      let es := s.cvtElems core k o
      let flags := es.foldl (fun a e => orFlags a e.2) {}
      let vals := es.map (·.1)
      let reads := if wideFmt o.sfmt then [o.va] else [o.va, o.va + 1]
      let k1 := k.issued cyc
      let k2 :=
        if o.narrowing then
          let row := patchBytes (posByte o.dfmt o.pos) (packElems o.dfmt vals) (k.vpair o.vd)
          (((k1.setV o.vd (row.take 256)).setV (o.vd + 1) (row.drop 256)).vPend o.vd (cyc + 4)).vPend (o.vd + 1) (cyc + 4)
        else (k1.setV o.vd (vals.flatMap (toLE 4))).vPend o.vd (cyc + 4)
      let k3 := ((k2.setFlags flags).markV (if o.narrowing then [o.vd, o.vd + 1] else [o.vd])
        (k.vTainted (if o.narrowing then o.va :: [o.vd, o.vd + 1] else reads))).occupy 4 (cyc + 1)
      s.setCore core { k3 with elem := if o.rm = 4 then (k3.elem + 64) % 2 ^ 32 else k3.elem,
                               timing := { k3.timing with convDone := max k3.timing.convDone (cyc + 4) } }

/-! ### Moves (R203) -/

/-- VLD: row ROW into v(2 VP) and v(2 VP + 1): read in the issue cycle, ready 3 cycles after it (Table 4.5). -/
def execVld (core : Nat) (body : BitVec 56) (s : State) : Out :=
  issue core (wordOf 0x38 body) s fun s k cyc =>
    let w := wordOf 0x38 body
    let v := 2 * fld w 55 53
    if fld w 39 0 ≠ 0 then s.illegal core w
    else
      let k1 := (((k.issued cyc).occupy 4 (cyc + 1)).vPend v (cyc + 3)).vPend (v + 1) (cyc + 3)
      s.setCore core (k1.start { unit := 4, word := w, acts := [{ cyc := cyc, write := false, cluster := false, row := fld w 52 40, key := 0 }],
                                 done := cyc + 3 })

/-- VST: the pair, as it is at issue, to row ROW 2 cycles later (Table 4.5); a resident row while RUNNING is the protection fault (R78, R203). -/
def execVst (core : Nat) (body : BitVec 56) (s : State) : Out :=
  issue core (wordOf 0x39 body) s fun s k cyc =>
    let w := wordOf 0x39 body
    let v := 2 * fld w 55 53
    let r := fld w 52 40
    if fld w 39 0 ≠ 0 then s.illegal core w
    else if s.residentLocked core r then s.raiseCore core .protection w cyc
    else
      s.setCore core (((k.issued cyc).occupy 4 (cyc + 1)).start
        { unit := 4, word := w, bytes := k.vpair v, bad := k.vTainted [v, v + 1],
          acts := [{ cyc := cyc + 2, write := true, cluster := false, row := r, key := 0 }], done := cyc + 3 })

/-- GETL: bytes 8 LANE to 8 LANE + 7 of v[VA] into g[GD]. -/
def execGetl (core : Nat) (body : BitVec 56) (s : State) : Out :=
  issue core (wordOf 0x3A body) s fun s k cyc =>
    let w := wordOf 0x3A body
    let gd := fld w 55 51
    let va := fld w 50 47
    if fld w 41 0 ≠ 0 then s.illegal core w
    else
      let k1 := (k.issued cyc).setG gd (BitVec.ofNat 64 (laneOf 8 (k.vreg va) (fld w 46 42)))
      s.setCore core ((k1.gPend gd (if gd = 0 then 0 else cyc + 2)).occupy 4 (cyc + 1))

/-- PUTL: g[GA] into those bytes of v[VD], the others kept. -/
def execPutl (core : Nat) (body : BitVec 56) (s : State) : Out :=
  issue core (wordOf 0x3B body) s fun s k cyc =>
    let w := wordOf 0x3B body
    let ga := fld w 55 51
    let vd := fld w 50 47
    if fld w 41 0 ≠ 0 then s.illegal core w
    else
      s.setCore core (k.vecResult vd [vd] (patchBytes (8 * fld w 46 42) (toLE 8 (k.greg ga).toNat) (k.vreg vd)) cyc 1 2)

end Sys2Proof.Machine
end

