-- ==== Sys2Proof/Machine/Remote.lean ====
section
/-! DEFINITION. Row copies, remote access and fabric instructions: what a core hands to its die's router (05 R204 to R211). -/

namespace Sys2Proof.Machine

/-! ### ROWCP (R204, R229) -/

/-- Rows of a memory field. -/
def copyRows (field : Nat) : Nat := if field = 0 then 8192 else 32768

/-- The memory number of a memory field. -/
def copyMem (c field : Nat) : Nat := if field = 0 then c else coreClusterMem c

/-- The accesses of a ROWCP that issues in a cycle: row i is read in cycle t + i and written L cycles later (R229). -/
def copyActs (w : BitVec 64) (l cyc : Nat) : List Act :=
  let n := fld w 23 10
  (List.range (n + l)).flatMap fun x =>
    (if x < n then [{ cyc := cyc + x, write := false, cluster := fld w 55 55 == 1, row := fld w 53 39 + x, key := x }] else []) ++
    (if l ≤ x then [{ cyc := cyc + x, write := true, cluster := fld w 54 54 == 1, row := fld w 38 24 + (x - l), key := x - l }] else [])

/-- ROWCP: N rows within the scratchpad or between it and the cluster memory, each with its poison mark (R204, R229, R230). -/
def execRowcp (core : Nat) (body : BitVec 56) (s : State) : Out :=
  issue core (wordOf 0x40 body) s fun s k cyc =>
    let w := wordOf 0x40 body
    let sm := fld w 55 55
    let dm := fld w 54 54
    let sr := fld w 53 39
    let dr := fld w 38 24
    let n := fld w 23 10
    let l := if sm = 0 ∧ dm = 0 then 2 else 4
    if fld w 9 0 ≠ 0 ∨ n > 8192 then s.illegal core w
    else if n = 0 then s.setCore core ((k.issued cyc).occupy 5 (cyc + 1))
    else if sr + n > copyRows sm ∨ dr + n > copyRows dm ∨ (sm = dm ∧ sr < dr + n ∧ dr < sr + n) then
      s.raiseCore core .address w cyc
    else if (List.range n).any (fun i => s.residentLocked (copyMem core dm) (dr + i)) then s.raiseCore core .protection w cyc
    else
      s.setCore core (((k.issued cyc).occupy 5 (cyc + n + l)).start { unit := 5, word := w, acts := copyActs w l cyc, done := cyc + n + l })

/-! ### Packets -/

/-- The site of a core's die. -/
def State.coreSite (s : State) (c : Nat) : Nat := s.siteOf (c / 16)

/-- The reply route of a request route (R205): class-1 unicast from DST back to SRC on the same plane. -/
def State.replyRouteOk (s : State) (r : Route) : Bool :=
  match s.routeOf (r.id + 0x8000) with
  | none => false
  | some q => q.cls == 1 && q.kind == 0 && q.src == r.dst && q.dst == r.src && q.plane == r.plane

/-- The request route of RGET and RPUT, checked by the die's router in the issue cycle (R205). -/
def State.requestRoute (s : State) (c id : Nat) : Option Route :=
  match s.routeOf id with
  | none => none
  | some r => if id < 0x8000 ∧ r.cls = 4 ∧ r.kind = 0 ∧ r.src = c / 16 ∧ s.replyRouteOk r then some r else none

/-- The core after an RGET or RPUT takes a reply slot (R167). -/
def Core.takeSlot (k : Core) (i : Nat) (e : ReplySlot) : Core := { k with slots := tinsert i (some e) k.slots }

/-- The panel once a core that has all 16 reply slots in use has made its accesses up to the landing of a reply that has arrived (R167). -/
def State.untilSlot (s : State) (c : Nat) : State :=
  if (s.core c).freeSlot.isSome then s else s.runUntil (c / 8) (fun t => (t.core c).freeSlot.isSome)

/-- RGET and RPUT (R205, R206): a request on a class-4 route, holding a reply slot; with all 16 in use it does not issue. RPUT reads its row in the issue
cycle (DESIGN CHOICE: the spec gives no cycle for that read; log entry 109). -/
def remote (isGet : Bool) (core opc : Nat) (body : BitVec 56) (s : State) : Out :=
  issue core (wordOf opc body) (s.untilSlot core) fun s k cyc =>
    let w := wordOf opc body
    let ga := fld w 55 51
    let lrow := fld w 50 38
    let ctr := fld w 37 34
    let route := fld w 33 18
    let addr := (k.greg ga).toNat
    if fld w 17 0 ≠ 0 then s.illegal core w
    else
      match k.freeSlot with
      | none => s
      | some slot =>
        if addr % 512 ≠ 0 then s.raiseCore core .address w cyc
        else if isGet && s.residentLocked core lrow then s.raiseCore core .protection w cyc
        else
          match s.requestRoute core route with
          | none => s.raiseCore core .route w cyc
          | some r =>
            let p : Packet :=
              { routeId := route, typ := if isGet then 2 else 3, cls := 4, planned := true, src := r.src, dst := r.dst, addr := addr,
                tag := slot, plane := r.plane, core := core, place := s.coreSite core, pc := k.pc, word := w }
            let k1 := ((k.issued cyc).takeSlot slot
              { isGet := isGet, addr := addr, lrow := lrow, ctr := ctr, route := route, pc := k.pc, word := w }).occupy 6 (cyc + 1)
            if isGet then (s.setCore core k1).inject [p]
            else
              s.setCore core (k1.start { unit := 6, word := w, packets := [p], done := cyc + 1,
                                         acts := [{ cyc := cyc, write := false, cluster := false, row := lrow, key := 0 }] })

/-- RGET (R205). -/
def execRget (core : Nat) (body : BitVec 56) (s : State) : Out := remote true core 0x48 body s

/-- RPUT (R205). -/
def execRput (core : Nat) (body : BitVec 56) (s : State) : Out := remote false core 0x49 body s

/-! ### SEND, MCROW, MCCOL, REDSEND, SIG -/

/-- A class-2 route of the issuing die (R207, R210); `kind` none allows any kind. -/
def State.sendRoute (s : State) (c id : Nat) (kind : Option Nat) : Option Route :=
  match s.routeOf id with
  | none => none
  | some r => if r.cls = 2 ∧ r.src = c / 16 ∧ (kind = none ∨ kind = some r.kind) then some r else none

/-- SEND, MCROW and MCCOL (R207, R208): N row packets, the last of which releases the increment. Each takes 5 cycles, and its row is read in the first of
them (DESIGN CHOICE: R168 gives one cycle per flit and no cycle for the read; log entry 109). -/
def sendRows (kind core opc : Nat) (body : BitVec 56) (s : State) : Out :=
  issue core (wordOf opc body) s fun s k cyc =>
    let w := wordOf opc body
    let route := fld w 55 40
    let sr := fld w 39 27
    let dr := fld w 26 12
    let dm := fld w 7 7
    let n := fld w 2 0
    if n = 0 then s.setCore core ((k.issued cyc).occupy 7 (cyc + 1))
    else if sr + n > 8192 ∨ dr + n > copyRows dm then s.raiseCore core .address w cyc
    else
      match s.sendRoute core route (some kind) with
      | none => s.raiseCore core .route w cyc
      | some r =>
        let ps := (List.range n).map fun i =>
          ({ routeId := route, typ := 0, kind := kind, cls := 2, planned := true, last := i + 1 == n,
             xferCount := if r.dst ≥ 0x100 then n + 1 else 0, src := r.src, dst := r.dst, drow := dr + i, dm := dm, dcore := fld w 11 8,
             dctr := fld w 6 3, plane := r.plane, core := core, place := s.coreSite core, pc := k.pc, word := w, msg := cyc } : Packet)
        s.setCore core (((k.issued cyc).occupy 7 (cyc + 5 * n)).start
          { unit := 7, word := w, packets := ps, done := cyc + 5 * n, acts := (List.range n).map (fun i =>
              { cyc := cyc + 5 * i, write := false, cluster := false, row := sr + i, key := i }) })

/-- SEND: a unicast route. -/
def execSend (core : Nat) (body : BitVec 56) (s : State) : Out := sendRows 0 core 0x50 body s

/-- MCROW: along a logical row. -/
def execMcrow (core : Nat) (body : BitVec 56) (s : State) : Out := sendRows 1 core 0x51 body s

/-- MCCOL: along a logical column. -/
def execMccol (core : Nat) (body : BitVec 56) (s : State) : Out := sendRows 2 core 0x52 body s

/-- The reduction record that a die holds for a RED_ID on a plane (R280). -/
def State.treeOf (s : State) (d red plane : Nat) : Option RedTree :=
  match s.plan with
  | none => none
  | some p => p.trees.find? (fun t => t.red == red && t.die == d && t.plane == plane)

/-- REDSEND (R209). Its row is read in the issue cycle, the first of the five that it holds the fabric interface (DESIGN CHOICE: R209 gives no cycle for the
read; log entry 109). -/
def execRedsend (core : Nat) (body : BitVec 56) (s : State) : Out :=
  issue core (wordOf 0x53 body) s fun s k cyc =>
    let w := wordOf 0x53 body
    let red := fld w 55 40
    let plane := fld w 39 37
    let sr := fld w 36 24
    if fld w 2 0 ≠ 0 then s.illegal core w
    else if (s.treeOf (core / 16) red plane).isNone then s.raiseCore core .route w cyc
    else
      let p : Packet :=
        { routeId := red, typ := 7, cls := 2, planned := true, src := core / 16, dst := core / 16, drow := fld w 23 11, dcore := fld w 10 7,
          dctr := fld w 6 3, plane := plane, core := core, place := s.coreSite core, pc := k.pc, word := w }
      s.setCore core (((k.issued cyc).occupy 7 (cyc + 5)).start
        { unit := 7, word := w, packets := [p], done := cyc + 5,
          acts := [{ cyc := cyc, write := false, cluster := false, row := sr, key := 0 }] })

/-- SIG: one increment flit on a class-2 route of any kind (R210). -/
def execSig (core : Nat) (body : BitVec 56) (s : State) : Out :=
  issue core (wordOf 0x54 body) s fun s k cyc =>
    let w := wordOf 0x54 body
    let route := fld w 55 40
    if fld w 31 0 ≠ 0 then s.illegal core w
    else
      match s.sendRoute core route none with
      | none => s.raiseCore core .route w cyc
      | some r =>
        let p : Packet :=
          { routeId := route, typ := 1, kind := r.kind, cls := 2, planned := true, last := true,
            xferCount := if r.dst ≥ 0x100 then 1 else 0, src := r.src, dst := r.dst,
            dcore := fld w 39 36, dctr := fld w 35 32, plane := r.plane, core := core, place := s.coreSite core,
            pc := k.pc, word := w, msg := cyc }
        (s.setCore core ((k.issued cyc).occupy 7 (cyc + 1))).inject [p]

end Sys2Proof.Machine
end

