-- ==== Sys2Proof/Machine/Arbiters.lean ====
section
/-! DEFINITION. The weighted-share arbiters of HBM stacks, inward links and hub links (06 R246; 07 R288 to R291). -/

namespace Sys2Proof.Machine

/-- The place of an I/O die and of the hub. -/
def ioPlace (io : Nat) : Nat := 0x100 + io
def hubPlace : Nat := 0x200

/-- Arbiter numbers: stacks 0 to 23; edge injection 0x100 + (link × 8 + plane) for the 50 links; hub links 0x300 + link × 8 + plane. -/
def arbiterOk (n : Nat) : Bool :=
  decide (n < 24) || (decide (0x100 ≤ n) && decide (n < 0x100 + 400)) || (decide (0x300 ≤ n) && decide (n < 0x300 + 16))

/-- The I/O die of one of the 50 inward links, numbered along N, E, S and W in Table 1.1's order. -/
def linkIo (l : Nat) : Nat :=
  let third := fun x => if x < 4 then 0 else if x < 9 then 1 else 2
  if l < 13 then third l else if l < 25 then 3 + (l - 13) / 4 else if l < 38 then 6 + third (l - 25) else 9 + (l - 38) / 4

/-- The normal weight of a requester at an arbiter (Table 7.10, Table 10.3): 0 to 7 host channels 56 to 63, 8 TC3 transit. -/
def State.arbWeight (s : State) (n i : Nat) : Nat :=
  if n < 24 then s.setting (keyArb n (0x138 + i))
  else if n < 0x300 then s.setting (keyArb (linkIo ((n - 0x100) / 8)) (0x238 + i))
  else s.setting (keyArb ((n - 0x300) / 8) (0x338 + i))

/-- High-priority quota of an arbiter (Table 7.10). -/
def arbQuota (n : Nat) : Nat := if n < 24 then 192 else if n < 0x300 then 224 else 0

/-- Requesters of an arbiter in index order. -/
def arbRequesters (n : Nat) : List Nat := if 0x100 ≤ n ∧ n < 0x300 then List.range 9 else List.range 8

/-- One grant opportunity (R288): nothing while frozen; else the high-priority requester within its quota (`some none`), else the
normal requester with the largest count, the lowest index on a tie. -/
def Arbiter.grant (a : Arbiter) (quota : Nat) (high : Bool) (reqs : List Nat) : Option (Option Nat) × Arbiter :=
  if a.freeze then (none, a)
  else if high ∧ a.used < quota then (some none, { a with used := a.used + 1 })
  else
    match reqs with
    | [] => (none, a)
    | r :: rs =>
      let i := rs.foldl (fun b j => if tget 0 a.ctr b < tget 0 a.ctr j ∨ (tget 0 a.ctr b = tget 0 a.ctr j ∧ j < b) then j else b) r
      (some (some i), { a with ctr := tset 0 a.ctr i (max (tget 0 a.ctr i - 1) (-32768)) })

/-- A unit granted to a requester: the oldest of its requests makes progress, and leaves once it has all its units (R289). -/
def takeUnit (who : Option Nat) : List ArbReq → List ArbReq
  | [] => []
  | r :: rs =>
    if r.who = who then (if r.units ≤ 1 then rs else { r with units := r.units - 1 } :: rs) else r :: takeUnit who rs

/-- Grant opportunities among the requests that wait, while the window has any left. At every unit the arbiter decides again (R289). Before the window's end
the normal requesters take no more than the quota leaves them, since planned traffic may still ask for all of it (`kept` is the quota; R246; log entry 96). -/
def Arbiter.run (quota kept : Nat) : Nat → Arbiter → Arbiter
  | 0, a => a
  | n + 1, a =>
    if a.left = 0 then a
    else
      match a.grant quota (a.reqs.any (fun r => r.who == none)) (if a.left ≤ kept - a.used then [] else a.reqs.filterMap (·.who)) with
      | (none, _) => a
      | (some w, b) => Arbiter.run quota kept n { b with left := b.left - 1, reqs := takeUnit w b.reqs }

/-- An arbiter, and a change of it. -/
def State.arbiter (s : State) (n : Nat) : Arbiter := tget {} s.fabric.arbiters n
def State.setArbiter (s : State) (n : Nat) (a : Arbiter) : State :=
  { s with fabric := { s.fabric with arbiters := tset {} s.fabric.arbiters n a } }

/-- The unit whose retirement drains an arbiter's resource: the stack, or the I/O die that injects. -/
def arbUnit (n : Nat) : Nat :=
  if n < 24 then unitId 5 n 0 else if n < 0x300 then unitId 3 (linkIo ((n - 0x100) / 8)) 0 else unitId 3 (if (n - 0x300) / 8 = 0 then 6 else 9) 0

/-- Whether an arbiter is frozen: before a COMPUTE_RESET, and from a retirement's decision to its tick (R289). -/
def State.frozen (s : State) (n : Nat) : Bool :=
  (s.arbiter n).freeze || s.units.due.any (fun d => d.1 == arbUnit n && d.2.1 == 2)

/-- Grants what the window still has to the requests that wait at an arbiter, but for a part of the quota that planned traffic may yet ask for. -/
def State.runArbiter (s : State) (n kept : Nat) : State :=
  if s.frozen n then s else s.setArbiter n (Arbiter.run (arbQuota n) kept (s.arbiter n).left (s.arbiter n))

/-- A request for units at an arbiter, which grants what it can at once (R288, R289; log entry 96). -/
def State.request (s : State) (n : Nat) (r : ArbReq) : State :=
  if r.units = 0 then s
  else State.runArbiter (s.setArbiter n { s.arbiter n with reqs := (s.arbiter n).reqs ++ [r] }) n (arbQuota n)

/-- Whether every arbiter has granted all that a transfer asked for. -/
def State.granted (s : State) (key : Nat) : Bool := s.fabric.arbiters.all (fun (e : Nat × Arbiter) => e.2.reqs.all (fun r => r.key != key))

/-- The requests of a transfer that has ended leave every arbiter. -/
def State.dropRequests (s : State) (gone : ArbReq → Bool) : State :=
  { s with fabric := { s.fabric with
    arbiters := s.fabric.arbiters.map (fun (e : Nat × Arbiter) => (e.1, { e.2 with reqs := e.2.reqs.filter (fun r => !gone r) })) } }

/-- One planned unit at a stack for a remote row access: none while the stack's quota is used up or its arbiter is frozen; host traffic never takes it
(R246, R250, R291). -/
def State.planUnit (s : State) (stack : Nat) : Option State :=
  let a := s.arbiter stack
  if s.frozen stack ∨ arbQuota stack ≤ a.used then none
  else some (s.setArbiter stack { a with used := a.used + 1, left := a.left - 1 })

/-- The keys of requests: a planned transfer's channel, and a host-requested piece (log entry 96). -/
def plannedKey (io ch : Nat) : Nat := io * 64 + ch
def pieceKey (tag first : Nat) : Nat := 2 ^ 16 + tag * 2 ^ 40 + first

/-! ### Edges (R290, R291) -/

/-- Whether an arbiter has granted the unit of a HOST packet, whose `xferCount` counts the units of its piece that have not moved: fewer are still asked for. A
frozen arbiter lets none through that is not under way (R288, R289; log entry 96). -/
def State.unitGranted (s : State) (n : Nat) (p : Packet) : Bool :=
  !s.frozen n && (s.arbiter n).reqs.all (fun r => r.key != pieceKey p.tag p.msg || decide (r.units < p.xferCount))

/-- Whether a packet may start on an inward link or a hub link: planned traffic within its quota, a host unit once it has its grant, and TC3 transit into the crumb
when it wins an opportunity among the normal requesters that wait (R288, R290); TC0 and every other packet pass. -/
def State.edgeOpen (s : State) (n : Nat) (p : Packet) : Bool :=
  let a := s.arbiter n
  (p.cls == 0 && !s.crumbHeld) || (!s.frozen n && (
    if p.typ = 0xA then s.unitGranted n p
    else if 0x300 ≤ n then true
    else if p.planned then decide (a.used < arbQuota n)
    else p.cls != 3 || (decide (0 < a.left) && (a.grant 0 false (a.reqs.filterMap (·.who) ++ [8])).1 == some (some 8))))

/-- What the arbiter of an inward link counts when a packet starts: a planned packet's flits against the quota, a transit packet's grant. -/
def State.countEdge (s : State) (n : Nat) (p : Packet) (flits : Nat) : State :=
  let a := s.arbiter n
  if p.cls = 0 then s
  else if p.planned then s.setArbiter n { a with used := a.used + flits, left := a.left - flits }
  else if p.cls = 3 then s.setArbiter n { (a.grant 0 false [8]).2 with left := a.left - 1 }
  else s

/-- An arbiter at a window's start: every count reloads from its weight and the quota's use restarts (R288). -/
def State.newWindow (s : State) (n : Nat) : State :=
  s.setArbiter n { s.arbiter n with
    used := 0, left := 256, ctr := (arbRequesters n).foldl (fun t i => tset 0 t i (s.arbWeight n i : Int)) [] }

/-- ARBITER_WINDOW_START: what planned traffic has not asked for in the window that ends goes to the requests that wait; then the counts reload, and the new
window's opportunities go to those that still wait (R288, R289). -/
def execArbiterWindowStart (arbiter : Nat) (s : State) : Out :=
  if arbiterOk arbiter then .next (((s.runArbiter arbiter 0).newWindow arbiter).runArbiter arbiter (arbQuota arbiter)) else .next s

end Sys2Proof.Machine
end

