-- ==== Sys2Proof/Machine/Routing.lean ====
section
/-! DEFINITION. Paths through the fabric: router modes, next hops, multicast branches, buffers and output precedence
(07 R254 to R279). -/

namespace Sys2Proof.Machine

/-! ### Places (Table 1.1, Table 7.1) -/

def siteRow (p : Nat) : Nat := p / 13
def siteCol (p : Nat) : Nat := p % 13

/-- Rows that carry traffic without a grid class: every row that is not unrepairable and, where an E and a W I/O die face no such row, the lowest of theirs whose
crossbars all work (R10, R471). -/
def State.servingRows (s : State) : List Nat :=
  let good := fun y => !s.rowBad false y
  (List.range 3).flatMap (fun q =>
    let ys := (List.range 4).map (4 * q + ·)
    if ys.any good then ys.filter good else (ys.find? (fun y => !s.crossbarLost y)).toList)

/-- Rows selected by the map (R30); the other rows are excluded. With no grid class the rows that carry traffic count as selected, so that the ports
stay in service (R10; DESIGN CHOICE: Table 7.1 gives the routers' modes for the rows of a class alone; log entry 118). -/
def State.selectedRows (s : State) : List Nat :=
  if gridRows s.units.gridClass = 0 then s.servingRows
  else (List.range (gridRows s.units.gridClass)).map s.rowOf

/-- Whether a site's router runs in bypass (Table 7.1). -/
def State.isBypass (s : State) (p : Nat) : Bool := !s.selectedRows.contains (siteRow p)

/-- The faced sites' columns of an N or S die, or rows of an E or W die: lowest and highest (Table 1.1). -/
def facedRange (io : Nat) : Nat × Nat :=
  match io with
  | 0 => (0, 3) | 1 => (4, 8) | 2 => (9, 12)
  | 6 => (0, 3) | 7 => (4, 8) | 8 => (9, 12)
  | 3 => (0, 3) | 4 => (4, 7) | 5 => (8, 11)
  | 9 => (0, 3) | 10 => (4, 7) | _ => (8, 11)

/-- Side of an I/O die: 1 N, 2 S, 3 E, 4 W (Table 6.2). -/
def ioSide (io : Nat) : Nat := if io < 3 then 1 else if io < 6 then 3 else if io < 9 then 2 else 4

/-- The I/O die beyond an edge port of a site (Table 1.1). -/
def edgeIo (p port : Nat) : Nat :=
  let third := fun x => if x < 4 then 0 else if x < 9 then 1 else 2
  let quarter := fun x => x / 4
  match port with
  | 1 => third (siteCol p)
  | 2 => 6 + third (siteCol p)
  | 3 => 3 + quarter (siteRow p)
  | _ => 9 + quarter (siteRow p)

/-- The place one link beyond a site's port. -/
def neighbour (p port : Nat) : Nat :=
  match port with
  | 1 => if siteRow p = 11 then ioPlace (edgeIo p 1) else p + 13
  | 2 => if siteRow p = 0 then ioPlace (edgeIo p 2) else p - 13
  | 3 => if siteCol p = 12 then ioPlace (edgeIo p 3) else p + 1
  | _ => if siteCol p = 0 then ioPlace (edgeIo p 4) else p - 1

/-- The port that faces a port across a link. -/
def opposite (port : Nat) : Nat := match port with | 1 => 2 | 2 => 1 | 3 => 4 | _ => 3

/-- The place of a site among those that its I/O die faces on a side, from 1: the I/O die's port toward it (Table 1.1). -/
def ioPort (io p : Nat) : Nat := 1 + (if ioSide io ≤ 2 then siteCol p else siteRow p) - (facedRange io).1

/-- The number of the inward link into a site by an edge port, among the 50 of Table 7.10. -/
def linkNumber (port p : Nat) : Nat :=
  match port with
  | 1 => siteCol p
  | 3 => 13 + siteRow p
  | 2 => 25 + siteCol p
  | _ => 38 + siteRow p

/-- The value of a list nearest to `x`, the lower on a tie (R262). -/
def nearest (x : Nat) (xs : List Nat) : Nat :=
  xs.foldl (fun b y =>
    let db := if b ≤ x then x - b else b - x
    let dy := if y ≤ x then x - y else y - x
    if dy < db then y else b) (xs.headD x)

/-- Faced columns or selected faced rows of an I/O die; all its rows where none of them can carry traffic. -/
def State.faced (s : State) (io : Nat) : List Nat :=
  let r := facedRange io
  let xs := (List.range (r.2 + 1 - r.1)).map (r.1 + ·)
  if ioSide io ≤ 2 ∨ !xs.any (fun y => s.selectedRows.contains y) then xs else xs.filter (fun y => s.selectedRows.contains y)

/-- The first faced site of an I/O die (R263). -/
def State.firstFaced (s : State) (io : Nat) : Nat :=
  let x := (s.faced io).headD (facedRange io).1
  match ioSide io with
  | 1 => 11 * 13 + x
  | 2 => x
  | 3 => x * 13 + 12
  | _ => x * 13

/-- The site where a packet from an I/O die enters the crumb on its way to a site (Table 7.4). -/
def State.entrySite (s : State) (io dst : Nat) : Nat :=
  match ioSide io with
  | 1 => 11 * 13 + nearest (siteCol dst) (s.faced io)
  | 2 => nearest (siteCol dst) (s.faced io)
  | 3 => nearest (siteRow dst) (s.faced io) * 13 + 12
  | _ => nearest (siteRow dst) (s.faced io) * 13

/-- The site that an endpoint code names: a compute die's, or, as 0x300 and its number, one that holds no logical die, which only management reaches (Table 15.4;
log entry 124). -/
def State.crumbSite (s : State) (e : Nat) : Option Nat :=
  if e < 0x100 then some (s.siteOf e) else if 0x300 ≤ e then some (e - 0x300) else none

/-- Whether an endpoint's hub traffic runs through W0; the rest runs through S0 (R263). -/
def State.viaW0 (s : State) (e : Nat) : Bool :=
  match s.crumbSite e with
  | some d => decide (siteCol d < siteRow d)
  | none => e == ioPlace 0 || e == ioPlace 9 || e == ioPlace 10 || e == ioPlace 11

/-- Whether the hub's link to an I/O die is out of service: the die or the link retired (R461). -/
def State.hubLinkLost (s : State) (io : Nat) : Bool :=
  let plane := fun u => unitKind u == 7 && bitsOf u 19 18 == 3 && unitSite u == (if io = 6 then 1 else 2) && bitsOf u 10 0 == 0x7FF
  s.retired (unitId 3 io 0) || s.units.table.any (fun e => plane e.1 && e.2.state == 2) || s.units.atOnce.any plane

/-- Whether the hub has lost both its links to the crumb and the crust (R461). -/
def State.hubCut (s : State) : Bool := s.hubLinkLost 6 && s.hubLinkLost 9

/-- The I/O die through which a packet reaches or leaves the hub; all traffic takes the other when one is lost (R263, R461). -/
def State.hubIo (s : State) (other : Nat) : Nat :=
  if s.hubLinkLost 9 then 6 else if s.hubLinkLost 6 then 9 else if s.viaW0 other then 9 else 6

/-- The I/O die that host transfers of row memory go through: S0, the other die of the hub once S0 or its link is lost (R245, R461). -/
def State.rowIo (s : State) : Nat := if s.hubLinkLost 6 then 9 else 6

/-- The endpoints between which a packet moves within the panel: a TRANSIT packet's header names panels (R320, R326). -/
def Packet.from_ (p : Packet) : Nat := (p.ends.getD (p.src, p.dst)).1
def Packet.to_ (p : Packet) : Nat := (p.ends.getD (p.src, p.dst)).2

/-- The I/O die at which a packet to an endpoint beyond the crumb leaves it. -/
def State.exitIo (s : State) (p : Packet) : Nat := if p.to_ = hubPlace then s.hubIo p.from_ else p.to_ - 0x100

/-- Movement within the crumb toward a site: along the row, then along the column; straight on in bypass (R261). -/
def State.toward (s : State) (place fromPort dst : Nat) : Nat :=
  if s.isBypass place ∧ (fromPort = 1 ∨ fromPort = 2) then opposite fromPort
  else if siteCol place < siteCol dst then 3
  else if siteCol dst < siteCol place then 4
  else if siteRow place < siteRow dst then 1
  else if siteRow dst < siteRow place then 2
  else 0

/-- Movement toward an I/O die from a packet that entered from a compute die (Table 7.4). -/
def State.leaving (s : State) (place fromPort io : Nat) : Nat :=
  if s.isBypass place ∧ (fromPort = 1 ∨ fromPort = 2) then opposite fromPort
  else
    match ioSide io with
    | 1 => let c := nearest (siteCol place) (s.faced io)
           if siteCol place < c then 3 else if c < siteCol place then 4 else 1
    | 2 => let c := nearest (siteCol place) (s.faced io)
           if siteCol place < c then 3 else if c < siteCol place then 4 else 2
    | side =>
      let edge := if side = 3 then 12 else 0
      let r := nearest (siteRow place) (s.faced io)
      if siteCol place < edge then 3
      else if edge < siteCol place then 4
      else if siteRow place < r then 1
      else if r < siteRow place then 2
      else side

/-- The port between an I/O die and the hub: 9 at the die; at the hub 1 toward S0 and 2 toward W0. The spec numbers no port beyond the routers'
(DESIGN CHOICE: log entry 50). -/
def hubPort (io : Nat) : Nat := if io = 6 then 1 else 2

/-- The next output of a unicast packet at a place: the output port (0 the local output) and the place it leads to. -/
def State.nextHop (s : State) (p : Packet) : Nat × Nat :=
  if p.place = hubPlace then
    if p.to_ = hubPlace then (0, hubPlace) else (hubPort (s.hubIo p.to_), ioPlace (s.hubIo p.to_))
  else if p.place ≥ 0x100 then
    let io := p.place - 0x100
    if p.to_ = p.place then (0, p.place)
    else if p.to_ = hubPlace ∧ s.hubIo p.from_ = io then (9, hubPlace)
    else
      let e := s.entrySite io ((s.crumbSite p.to_).getD (s.firstFaced (s.exitIo p)))
      (ioPort io e, e)
  else
    let port :=
      if (s.crumbSite p.to_).isSome then s.toward p.place p.fromPort ((s.crumbSite p.to_).getD 0)
      else if (s.crumbSite p.from_).isSome then s.leaving p.place p.fromPort (s.exitIo p)
      else
        let f := s.firstFaced (s.exitIo p)
        if p.place = f then ioSide (s.exitIo p) else s.toward p.place p.fromPort f
    if port = 0 then (0, p.place) else (port, neighbour p.place port)

/-- The input port at the far end of a hop. -/
def farPort (place port next : Nat) : Nat :=
  if next = hubPlace then hubPort (place - 0x100)
  else if place = hubPlace then 9
  else if next ≥ 0x100 then ioPort (next - 0x100) place
  else if place ≥ 0x100 then ioSide (place - 0x100) else opposite port

/-- Fabric cycles from a flit's entry into a router to its entry into the next: 5 leaving a bypass router, else 10 (Table 7.1, R262, R263). An edge link out of
a bypass router costs 5 (DESIGN CHOICE: R262 gives 10 to every edge link and Table 7.1 gives 5 to every link that leaves a bypass router; log entry 118). -/
def State.linkCost (s : State) (place : Nat) : Nat := if place < 0x100 ∧ s.isBypass place then 5 else 10

/-- Whether a logical die lies from SRC to DST inclusive on a multicast route. -/
def inSpan (src dst d : Nat) : Bool := (decide (src ≤ d) && decide (d ≤ dst)) || (decide (dst ≤ d) && decide (d ≤ src))

/-- The branches of a multicast packet at a router (R277 to R279): each an output port and whether it is a side copy. -/
def State.branches (s : State) (p : Packet) : List (Nat × Bool) :=
  if p.sideOnly then [(0, false)]
  else if p.kind = 1 then
    let here := match s.dieAt p.place with
      | some d => d / 12 == p.src / 12 && inSpan p.src p.dst d
      | none => false
    let far := s.siteOf p.dst
    (if here then [(0, false)] else []) ++
      (if siteCol p.place < siteCol far then [(3, false)] else if siteCol far < siteCol p.place then [(4, false)] else [])
  else
    let far := s.siteOf p.dst
    let onward := if siteRow p.place < siteRow far then [(1, false)] else if siteRow far < siteRow p.place then [(2, false)] else []
    if s.isBypass p.place then onward
    else
      let y := (List.range (gridRows s.units.gridClass)).find? (fun y => s.rowOf y == siteRow p.place)
      let side := match y with
        | none => []
        | some y =>
          let q := s.siteOf (y * 12 + p.src % 12)
          if q = p.place then [(0, false)] else if p.place < q then [(3, true)] else [(4, true)]
      side ++ onward

/-- A packet one branch on: at the local output, at the next router's input, or, a REDUCE packet at its die, in its reduction entry (R280). -/
def State.along (s : State) (p : Packet) (b : Nat × Nat × Bool) : Packet :=
  if b.1 = 0 then { p with isLocal := true }
  else { p with place := b.2.1, fromPort := farPort p.place b.1 b.2.1, sideOnly := b.2.2,
                isLocal := p.typ == 7 && b.2.1 == s.siteOf p.dst }

/-- The unit of the link into an input on a plane, and of one lane of it; 0x7FF is the whole plane (Table 15.2; log entry 18). -/
def linkLane (place port plane lane : Nat) : Nat :=
  if place = hubPlace then unitId 7 port (3 * 2 ^ 18 + plane * 2 ^ 12 + lane)
  else if place ≥ 0x100 then
    let io := place - 0x100
    if port = 9 then unitId 7 (hubPort io) (3 * 2 ^ 18 + plane * 2 ^ 12 + 2 ^ 11 + lane)
    else
      let x := (facedRange io).1 + port - 1
      let site := match ioSide io with | 1 => 11 * 13 + x | 2 => x | 3 => x * 13 + 12 | _ => x * 13
      unitId 7 site (2 * 2 ^ 18 + ioSide io * 2 ^ 15 + plane * 2 ^ 12 + 2 ^ 11 + lane)
  else unitId 7 place (2 * 2 ^ 18 + port * 2 ^ 15 + plane * 2 ^ 12 + lane)

/-- Whether the unit that a hop leads into may be used: router, I/O die or hub, and the link's plane (R40, R385). A faulty lane stays in use (R292). -/
def State.hopUsable (s : State) (q : Packet) : Bool :=
  (if q.place = hubPlace then s.usable hubUnit
   else if q.place ≥ 0x100 then s.usable (unitId 3 (q.place - 0x100) 0)
   else if s.isBypass q.place then s.usable (unitId 2 q.place 3) else s.usable (unitId 2 q.place 1)) &&
  s.usable (linkLane q.place q.fromPort q.plane 0x7FF)

/-! ### The broadcast tree (R465) -/

/-- Whether a packet is part of a broadcast: management from the hub that comes back to no one but the hub. The spec gives such packets no header (DESIGN CHOICE:
log entry 124). -/
def Packet.broadcast (p : Packet) : Bool := p.typ == 9 && p.src == hubPlace && p.dst == hubPlace

/-- The row along which a broadcast runs: physical row 0, or where the map excludes it the lowest selected row, which it reaches through bypass (R465; DESIGN CHOICE:
log entry 124). -/
def State.treeRow (s : State) : Nat := s.selectedRows.headD 0

/-- The I/O die that a broadcast enters the crumb through: the hub's link to S0, or to W0 where that one is lost (DESIGN CHOICE: R465 says "from the hub's links"; log
entry 124). -/
def State.treeRoot (s : State) : Nat := s.rowIo

/-- Whether a broadcast leaves a site by an edge port: each I/O die gets it once, from its first faced site (R465). -/
def State.treeEdgeOut (s : State) (place port : Nat) : Bool := edgeIo place port != s.treeRoot && s.firstFaced (edgeIo place port) == place

/-- The ports by which a broadcast leaves a site: its own local port, along the tree's row away from where it entered, up the column, and out to the I/O dies. A bypass
router passes it straight on, and a retired site takes no copy (R465, Table 7.1). -/
def State.treePorts (s : State) (place fromPort : Nat) : List Nat :=
  let r := siteRow place
  let c := siteCol place
  let onRow := decide (r = s.treeRow)
  let up := if r < 11 ∨ s.treeEdgeOut place 1 then [1] else []
  let down := onRow && [6, 7, 8].any (fun io => io != s.treeRoot && siteCol (s.firstFaced io) == c)
  if s.isBypass place then
    (if fromPort = 2 then up else if 0 < r ∨ s.treeEdgeOut place 2 then [2] else [])
  else
    (if s.retired (unitId 2 place 0) then [] else [0]) ++ up ++ (if down then [2] else []) ++
      (if c < 12 then (if onRow ∧ fromPort ≠ 3 then [3] else []) else if s.treeEdgeOut place 3 then [3] else []) ++
      (if 0 < c then (if onRow ∧ fromPort ≠ 4 then [4] else []) else if s.treeEdgeOut place 4 then [4] else [])

/-- The branches of a broadcast at a place, into units that may be used (R40, R465). -/
def State.treeHops (s : State) (p : Packet) : List (Nat × Nat × Bool) :=
  let entry := s.entrySite s.treeRoot 0
  let ends : List (Nat × Nat) :=
    if p.place = hubPlace then [(hubPort s.treeRoot, ioPlace s.treeRoot)]
    else if p.place ≥ 0x100 then
      (0, p.place) :: (if p.place = ioPlace s.treeRoot ∧ p.fromPort = 9 then [(ioPort s.treeRoot entry, entry)] else [])
    else (s.treePorts p.place p.fromPort).map (fun b => (b, if b = 0 then p.place else neighbour p.place b))
  (ends.map (fun b => (b.1, b.2, false))).filter (fun b => b.1 == 0 || s.hopUsable (s.along p b))

/-- Every branch of a packet at its place: (port, place it leads to, side copy). -/
def State.hops (s : State) (p : Packet) : List (Nat × Nat × Bool) :=
  if p.broadcast then s.treeHops p
  else if p.kind = 0 ∨ p.typ ≥ 2 then [((s.nextHop p).1, (s.nextHop p).2, false)]
  else (s.branches p).map (fun b => (b.1, if b.1 = 0 then p.place else neighbour p.place b.1, b.2))

/-! ### Buffers and precedence (R266 to R273) -/

/-- Capacity in flits of a partition of one input (Table 7.5, R269). -/
def State.partition (s : State) (place port plane cls : Nat) (planned : Bool) : Nat :=
  match cls with
  | 0 => 4
  | 3 => 16
  | _ =>
    if !planned then 8
    else if cls = 2 then
      let die := if place ≥ 0x100 then some place else s.dieAt place
      24 + (match s.plan, die with
        | some p, some d =>
          ((p.buffers.find? (fun b => b.die == d && b.plane == plane && (b.port == port || decide (place ≥ 0x100 ∧ 1 ≤ port ∧ port ≤ 8)))).map (·.flits)).getD 0
        | _, _ => 0)
    else 24

/-- Whether two packets are of one partition (R266): one class and plane, planned or not alike; TC0 and TC3 have one partition each. -/
def Packet.samePart (p q : Packet) : Bool := q.plane == p.plane && q.cls == p.cls && (q.planned == p.planned || p.cls == 0 || p.cls == 3)

/-- Whether two entries lie in one partition of one input. -/
def Packet.sameInput (p q : Packet) : Bool := q.place == p.place && !q.isLocal && q.fromPort == p.fromPort && p.samePart q

/-- Key of an input's partition. -/
def inKey (p : Packet) : Nat := (((p.place * 16 + p.fromPort) * 8 + p.plane) * 8 + p.cls) * 2 + bit p.planned

/-- Flits in the partition of one input that a packet is in or enters, those on their way to it among them. -/
def State.occupied (s : State) (p : Packet) : Nat :=
  ((s.fabric.packets.filter p.sameInput).map (·.wait.length)).foldl (· + ·) 0

/-- Credits for that partition in a cycle: its free flits, but for those whose credits come back later (R268). -/
def State.credits (s : State) (p : Packet) (x : Nat) : Nat :=
  s.partition p.place p.fromPort p.plane p.cls p.planned -
    (s.occupied p + ((tget [] s.fabric.owed (inKey p)).filter (fun c => decide (x < c))).length)

/-- The memory of a packet's destination row at a place, if it carries a row for a row memory (R271). -/
def State.rowMem (s : State) (p : Packet) (place : Nat) : Option Nat :=
  match s.dieAt place with
  | none => none
  | some d =>
    if p.typ = 0 then some (if p.dm = 0 then d * 16 + p.dcore else clusterMem (2 * d + p.dcore / 8))
    else if p.typ = 3 ∨ (p.typ = 0xA ∧ p.payload ≠ []) then targetMem (panelTarget s.units.gridClass p.addr)
    else none

/-- Delivery slots of a memory in use (R226, R271). -/
def State.slotsTaken (s : State) (mem : Nat) : Nat :=
  (tget [] s.fabric.arrived mem).length +
    (s.fabric.packets.filter (fun q => q.isLocal && s.rowMem q q.place == some mem)).length

/-- Key of an output: place, port and plane. -/
def outKey (place port plane : Nat) : Nat := (place * 16 + port) * 8 + plane

/-- Precedence of a packet at an output (Table 7.6). -/
def Packet.rank (p : Packet) : Nat :=
  match p.cls with
  | 0 => 1
  | 1 => if p.planned then 2 else 5
  | 2 => if p.planned then 3 else 6
  | 3 => 7
  | _ => if p.planned then 4 else 8

/-- Whether a packet may be taken at a place's local output: at a die that works its memory may be used (R40, R385); a die that has been reset answers and
discards what comes (R477). -/
def State.sinkUsable (s : State) (p : Packet) : Bool :=
  if p.place ≥ 0x100 then true
  else s.dieGone p.place || (match s.rowMem p p.place with | some m => s.memUsable m | none => true)

/-- Whether a packet's way leads only into units that may be used (R40, R385). -/
def State.wayUsable (s : State) (p : Packet) : Bool :=
  (s.hops p).all (fun b => if b.1 = 0 then s.sinkUsable p else s.hopUsable (s.along p b))

/-- Poisons every packet and every arrived row that is bound for a unit that may not be used (R387). -/
def State.poisonBound (s : State) : State :=
  { s with fabric := { s.fabric with
    packets := s.fabric.packets.map (fun p => if s.wayUsable p then p else { p with poison := true }),
    arrived := s.fabric.arrived.map (fun e => if s.memUsable e.1 then e else (e.1, e.2.map (fun a => { a with poison := true }))) } }

/-- The arbiter of the link that a packet leaves an I/O die or the hub by: an inward link's, or a hub link's (Table 7.10). -/
def Packet.arbiterAt (p : Packet) (port next : Nat) : Option Nat :=
  if p.place = hubPlace then some (0x300 + (port - 1) * 8 + p.plane)
  else if next < 0x100 then some (0x100 + linkNumber (ioSide (p.place - 0x100)) next * 8 + p.plane)
  else none

/-- Whether the next flit of a packet may take one branch in a cycle. The output has sent none in it; another packet of the partition that has started
there is through (R273). Downstream there is a credit, or at the local output a delivery slot for a row's head (R268, R271). The arbiter of an inward link or of a
hub link lets a head in (R290). TC0 keeps to plane 0 and its caps, and goes alone in the coolant-loss response (R255, R274). -/
def State.branchReady (s : State) (p : Packet) (x : Nat) (b : Nat × Nat × Bool) : Bool :=
  let k := outKey p.place b.1 p.plane
  let q := s.along p b
  (!s.thermal.active || p.cls == 0) &&
  (p.cls != 0 || (p.plane == 0 && decide (tget 0 s.fabric.tc0Out k < 16) &&
    (p.fromPort != 0 || decide (tget 0 s.fabric.tc0Inject p.place < 4)))) &&
  decide (tget 0 s.fabric.sentAt k ≤ x) &&
  !(s.fabric.packets.any (fun r => r.uid != p.uid && r.place == p.place && !r.isLocal && p.samePart r && decide (0 < r.gone) &&
    (s.hops r).any (fun c => c.1 == b.1))) &&
  (if b.1 = 0 then
     s.sinkUsable p && (match s.rowMem p p.place with
       | none => true
       | some m => decide (0 < p.gone) || decide (s.slotsTaken m < 8))
   else
     s.hopUsable q && (q.isLocal || decide (0 < s.credits q x)) &&
     (decide (0 < p.gone) || decide (p.place < 0x100) || (match p.arbiterAt b.1 b.2.1 with | some n => s.edgeOpen n p | none => true)))

/-- Whether a packet is at the head of its partition, with a flit there in a cycle (R272). -/
def State.atHead (s : State) (i : Nat) (p : Packet) (x : Nat) : Bool :=
  !((s.fabric.packets.take i).any p.sameInput) && (match p.wait with | c :: _ => decide (c ≤ x) | [] => false)

/-- Inputs of a place: five at a router, ten at an I/O die and the hub. -/
def inputsAt (place : Nat) : Nat := if place < 0x100 then 5 else 10

/-- The cyclic distance of an input after the last winner (R273); the order among an I/O die's inputs is by number (DESIGN CHOICE: log entry 50). -/
def turn (n lastWin input : Nat) : Nat := (input + n - 1 - lastWin) % n

/-- The input that last won a partition's turn at an output; at first the last, so that local goes first. -/
def State.lastWinner (s : State) (p : Packet) (port : Nat) : Nat :=
  tget (inputsAt p.place - 1) s.fabric.lastWin (outKey p.place port p.plane * 16 + p.rank)

/-- The packets of a place and plane whose next flit is at the head of its partition in a cycle. -/
def State.heads (s : State) (place plane x : Nat) : List Packet :=
  ((s.fabric.packets.zip (List.range s.fabric.packets.length)).filter (fun q =>
    q.1.place == place && !q.1.isLocal && q.1.plane == plane && s.atHead q.2 q.1 x)).map (·.1)

/-- Whether a planned flit is eligible at an output, whatever its other branches are: an unplanned flit does not leave by it then (R272, R274). -/
def State.plannedAt (s : State) (hs : List Packet) (x port : Nat) : Bool :=
  hs.any (fun q => q.planned && (s.hops q).any (fun b => b.1 == port && s.branchReady q x b))

/-- The candidates of a place and plane in a cycle: packets with a flit at the head of their partition whose every branch is eligible, an unplanned one only
where no planned flit is eligible at any of its outputs (R272, R274, R279). -/
def State.candidates (s : State) (place plane x : Nat) : List Packet :=
  let hs := s.heads place plane x
  hs.filter (fun q => (s.hops q).all (fun b => s.branchReady q x b && (decide (q.rank < 5) || !s.plannedAt hs x b.1)))

/-- Whether one candidate goes before another at some output that both need: the earlier of Table 7.6, or of one partition the next in the cyclic order
after the output's last winner (R272, R273). -/
def State.goesBefore (s : State) (q p : Packet) : Bool :=
  q.uid != p.uid && (s.hops q).any (fun b => (s.hops p).any (fun c => c.1 == b.1) &&
    (decide (q.rank < p.rank) || (decide (q.rank = p.rank) &&
      decide (turn (inputsAt p.place) (s.lastWinner p b.1) q.fromPort < turn (inputsAt p.place) (s.lastWinner p b.1) p.fromPort))))

/-- Whether two packets need one output, or are one packet. -/
def State.meets (s : State) (p q : Packet) : Bool := q.uid == p.uid || (s.hops q).any (fun b => (s.hops p).any (fun c => c.1 == b.1))

/-- The earlier of two packets by Table 7.6, of one rank the one from the lower input. -/
def earlierOf (p q : Packet) : Packet := if q.rank < p.rank ∨ (q.rank = p.rank ∧ q.fromPort < p.fromPort) then q else p

/-- The packets among some candidates whose flits leave together: again and again the first before which none goes, and then without those that need one of its
outputs, so that no output stays idle that a candidate could take. Where each goes behind another at some output, the earliest goes, so that no flit waits for
ever (R272, R275; DESIGN CHOICE: R272 and R279 do not say what an output sends when its first candidate is a multicast that loses elsewhere; log entry 118). -/
def State.leaveTogether (s : State) : Nat → List Packet → List Packet
  | 0, _ => []
  | _, [] => []
  | n + 1, c :: cs =>
    let p := ((c :: cs).find? (fun p => !(c :: cs).any (fun q => s.goesBefore q p))).getD (cs.foldl earlierOf c)
    p :: s.leaveTogether n ((c :: cs).filter (fun q => !s.meets p q))

/-- The packets of a place and plane whose flits leave in a cycle. -/
def State.winners (s : State) (place plane x : Nat) : List Packet :=
  s.leaveTogether (s.candidates place plane x).length (s.candidates place plane x)

/-- Whether a packet's next flit may leave its input in a cycle: every branch it needs is eligible, and its outputs take it (R272, R274, R279). -/
def State.eligible (s : State) (i : Nat) (p : Packet) (x : Nat) : Bool :=
  s.atHead i p x && (s.hops p).all (s.branchReady p x) && (s.winners p.place p.plane x).any (fun q => q.uid == p.uid)

/-- Whether a packet is whole at its local output (R258). -/
def Packet.whole (p : Packet) : Bool := p.isLocal && decide (p.flits ≤ p.wait.length)

/-- Whether a packet at a local output is the next of its order: none before it there shares SRC, DST, KIND, class, partition and plane (R264). -/
def State.inOrder (s : State) (i : Nat) (p : Packet) : Bool :=
  !((s.fabric.packets.take i).any (fun q => q.isLocal && q.place == p.place && p.samePart q && q.src == p.src && q.dst == p.dst && q.kind == p.kind))

/-- Whether a packet may be taken at its local output: whole, and next in its order. -/
def State.ready (s : State) (i : Nat) (p : Packet) : Bool := p.whole && s.inOrder i p

end Sys2Proof.Machine
end

