-- ==== Sys2Proof/Machine/Fabric.lean ====
section
/-! DEFINITION. The fabric's events: a packet at a router, a row's landing, requests and replies, reductions, and the windows
(06 R225, R226, R232; 07 R261 to R294). -/

namespace Sys2Proof.Machine

/-- The packet with an index, if there is one. -/
def State.packet (s : State) (i : Nat) : Option Packet := s.fabric.packets[i]?

/-- Replaces the packets. -/
def State.setPackets (s : State) (ps : List Packet) : State := { s with fabric := { s.fabric with packets := ps } }

/-- Takes the packet with an index out of the fabric. -/
def State.dropPacket (s : State) (i : Nat) : State := s.setPackets (s.fabric.packets.eraseIdx i)

/-- The endpoint code of the die agent at a place (Table 15.4, REPORTER). -/
def State.reporterAt (s : State) (place : Nat) : Nat :=
  if place ≥ 0x100 then place else (s.dieAt place).getD (0x300 + place)

/-- Header bytes 0 to 7 of a packet (Table 7.2). -/
def Packet.headNat (p : Packet) : Nat :=
  p.routeId + (p.typ + p.kind * 16) * 2 ^ 16 + (p.cls + bit p.planned * 8 + bit p.poison * 16 + bit p.last * 32) * 2 ^ 24 +
    p.src * 2 ^ 32 + p.dst * 2 ^ 48

/-- A planned packet that is discarded: its waiter times out at the tick. -/
def State.lose (s : State) (p : Packet) : State :=
  if p.planned then { s with fabric := { s.fabric with lost := s.fabric.lost ++ [p] } } else s

/-! ### Flits (R256 to R258, R266 to R274) -/

/-- Flits that wait outside a local input enter it as far as it has room, in order (R256, R266). -/
def enterInto (p : Packet) (x : Nat) : Nat → List Packet → List Packet
  | _, [] => []
  | room, q :: qs =>
    if p.sameInput q then
      let n := min room (q.flits - q.gone - q.wait.length)
      { q with wait := q.wait ++ List.replicate n x } :: enterInto p x (room - n) qs
    else q :: enterInto p x room qs

/-- The flits of a local input's partition that enter by a cycle. -/
def State.enterLocal (s : State) (p : Packet) (x : Nat) : State :=
  if p.fromPort ≠ 0 ∨ p.isLocal then s
  else s.setPackets (enterInto p x (s.partition p.place 0 p.plane p.cls p.planned - s.occupied p) s.fabric.packets)

/-- The stall counter of a router's output: site, port and plane (R254, R294). -/
def stallKey (site port plane : Nat) : Nat := (site * 5 + port) * 8 + plane

/-- The cycle from which the first flit of a packet waits at the head of its partition, if one is there (R294). -/
def State.headFrom (s : State) (i : Nat) (p : Packet) : Option Nat :=
  if (s.fabric.packets.take i).any p.sameInput then none
  else p.wait.head?.map (fun c => max c (tget 0 s.fabric.freedAt (inKey p)))

/-- The first cycle in which some planned flit bound for an output waits at the head of its partition, none where none waits. -/
def State.stallFrom (s : State) (place port plane : Nat) : Option Nat :=
  ((s.fabric.packets.zip (List.range s.fabric.packets.length)).filterMap (fun q =>
    if q.1.planned && q.1.place == place && q.1.plane == plane && !q.1.isLocal && (s.hops q.1).any (fun b => b.1 == port) then s.headFrom q.2 q.1
    else none)).foldl (fun m c => match m with | none => some c | some y => some (min y c)) none

/-- A router's output's stall cycles before a cycle, counted from where they stand: since no planned flit has left by it, each cycle from the first in which one
waits. The count is 32 bits and saturates; `next` is where the counting goes on (R294). -/
def State.countStalls (s : State) (place port plane x next : Nat) : State :=
  let k := outKey place port plane
  let n := match s.stallFrom place port plane with
    | some c => if place < 0x100 then x - max c (tget 0 s.fabric.stalledAt k) else 0
    | none => 0
  let key := stallKey place port plane
  { s with fabric := { s.fabric with
    stalls := if n = 0 then s.fabric.stalls else tset 0 s.fabric.stalls key (min (2 ^ 32 - 1) (tget 0 s.fabric.stalls key + n)),
    stalledAt := tset 0 s.fabric.stalledAt k next } }

/-- What an output counts when a flit leaves by it in a cycle: its stalls before, its last flit, the partition's last winner, and TC0 flits sent and
injected (R272 to R274, R294). -/
def State.countOut (s : State) (p : Packet) (port x : Nat) : State :=
  let k := outKey p.place port p.plane
  let s1 := if p.planned then s.countStalls p.place port p.plane x (x + 1) else s
  { s1 with fabric := { s1.fabric with
    sentAt := tset 0 s1.fabric.sentAt k (x + 1),
    lastWin := tset (inputsAt p.place - 1) s1.fabric.lastWin (k * 16 + p.rank) p.fromPort,
    tc0Out := if p.cls = 0 then tset 0 s1.fabric.tc0Out k (tget 0 s1.fabric.tc0Out k + 1) else s1.fabric.tc0Out,
    tc0Inject := if p.cls = 0 ∧ p.fromPort = 0 then tset 0 s1.fabric.tc0Inject p.place (tget 0 s1.fabric.tc0Inject p.place + 1)
                 else s1.fabric.tc0Inject } }

/-- The entry of a packet at the far end of a branch, with the flit that reaches it in a cycle. -/
def State.landing (s : State) (p : Packet) (x : Nat) (b : Nat × Nat × Bool) : Packet :=
  { s.along p b with gone := 0, wait := [if b.1 = 0 then x else x + s.linkCost p.place] }

/-- A flit of the packet with an index leaves its place in a cycle by every branch: it joins the packet's entry at each branch's end, which its head flit
makes; its credit goes back (R268, R279). -/
def State.moveFlit (s : State) (i : Nat) (p : Packet) (x : Nat) : State :=
  let ends := (s.hops p).map (s.landing p x)
  let s1 := forEach (s.hops p) (fun b s => s.countOut p b.1 x) s
  let s2 :=
    if p.gone = 0 ∧ 0x100 ≤ p.place ∧ p.place < hubPlace then
      forEach ((s.hops p).filter (fun b => decide (b.2.1 < 0x100)))
        (fun b s => s.countEdge (0x100 + linkNumber (ioSide (p.place - 0x100)) b.2.1 * 8 + p.plane) p p.flits) s1
    else s1
  let onward := fun (q : Packet) =>
    match ends.find? (fun e => q.uid == e.uid && q.place == e.place && q.isLocal == e.isLocal) with
    | some e => if p.gone = 0 then q else { q with wait := q.wait ++ e.wait, poison := q.poison || p.poison }
    | none => q
  let mine := { p with gone := p.gone + 1, wait := p.wait.tail }
  let rest := if mine.gone ≥ p.flits then s2.fabric.packets.eraseIdx i else s2.fabric.packets.set i mine
  { s2 with fabric := { s2.fabric with
    packets := rest.map onward ++ (if p.gone = 0 then ends else []),
    freedAt := tset 0 s2.fabric.freedAt (inKey p) (x + 1),
    owed := if p.fromPort = 0 then s2.fabric.owed
            else tset [] s2.fabric.owed (inKey p) ((tget [] s2.fabric.owed (inKey p)).filter (fun c => decide (x < c)) ++ [x + 10]) } }

/-! ### Link errors (R292, R293) -/

/-- The lane of an input that an event is charged to: the one with the most corrected symbols, else the link's whole plane (R312, Table 15.1). -/
def chargedLane (p : Packet) (lane : Option Nat) : Nat :=
  linkLane p.place p.fromPort p.plane (match lane with | some l => l % 0x7FF | none => 0x7FF)

/-- A discarded header: counted against the lane, and the planned packet's waiter times out at the tick (R293, Table 15.1). -/
def State.discardHeader (s : State) (i : Nat) (p : Packet) (lane : Option Nat) : State :=
  let s1 := (s.dropPacket i).countLane { unit := chargedLane p lane, code := 0x1012, cls := 0, location := p.headNat, reporter := s.reporterAt p.place }
  s1.lose p

/-- An uncorrectable payload error poisons the packet (R293); Table 15.1 counts it nowhere, so that each makes a record (R487). -/
def State.poisonPacket (s : State) (i : Nat) (p : Packet) : State :=
  (s.setPackets (s.fabric.packets.set i { p with poison := true })).addError
    { unit := linkLane p.place p.fromPort p.plane 0x7FF, code := 0x1011, cls := 0, location := p.routeId, flags := flPoisoned,
      reporter := s.reporterAt p.place }

/-- A corrected error of a link: a transient upset of its lane, which stays in use even when its fault is permanent (R292). -/
def State.laneError (s : State) (p : Packet) (lane : Option Nat) : State :=
  match lane with
  | none => s
  | some l =>
    if p.fromPort = 0 then s
    else s.countLane { unit := chargedLane p (some l), code := 0x1010, cls := 0, reporter := s.reporterAt p.place }

/-- The index of a packet's entry by its number and place. -/
def State.entryAt (s : State) (uid place : Nat) (isLocal : Bool) : Option Nat :=
  s.fabric.packets.findIdx? (fun q => q.uid == uid && q.place == place && q.isLocal == isLocal)

/-! ### Counters and increments (R170, R207, R210) -/

/-- Increments counter `ctr` of core `c` in a cycle (R170, R171). -/
def State.increment (s : State) (c ctr cycle : Nat) : State :=
  s.modCore c fun k => k.countInc ctr cycle

/-- Whether a packet that was lost at its place would have come to a die: it or a die beyond it on its route. -/
def State.wouldReach (s : State) (p : Packet) (d : Nat) : Bool :=
  let apart := fun (a b : Nat) => if a ≤ b then b - a else a - b
  let src := s.siteOf p.src
  if p.isLocal ∨ p.sideOnly then s.dieAt p.place == some d
  else match p.kind with
    | 1 => decide (apart (siteCol p.place) (siteCol src) ≤ apart (siteCol (s.siteOf d)) (siteCol src))
    | 2 => decide (apart (siteRow p.place) (siteRow src) ≤ apart (siteRow (s.siteOf d)) (siteRow src))
    | _ => p.dst == d

/-- Whether a row that an increment waits for has not landed at its core's die: it awaits landing there, or the die refused it or a router
discarded it, so that it never will (R207, R210, R243, R293). -/
def State.rowsAhead (s : State) (n : Inc) : Bool :=
  let among := fun (route sender msg : Nat) => route == n.route && sender == n.sender && decide (n.lo ≤ msg) && decide (msg < n.hi)
  (s.fabric.arrived.any fun e =>
    let d := if e.1 < 0x80000000 then e.1 / 16 else (e.1 - 0x80000000) / 2
    d == n.core / 16 && e.2.any (fun a => among a.route a.sender a.msg)) ||
  (s.fabric.lost ++ s.fabric.refused).any (fun p => p.typ == 0 && among p.routeId p.core p.msg && s.wouldReach p (n.core / 16))

/-- Applies every waiting increment whose earlier rows have landed, in order. -/
def State.releaseIncs (s : State) (cycle : Nat) : State :=
  let ready := s.fabric.incs.filter (fun n => !s.rowsAhead n)
  let s1 := { s with fabric := { s.fabric with incs := s.fabric.incs.filter (fun n => s.rowsAhead n) } }
  forEach ready (fun n s => s.increment n.core n.ctr cycle) s1

/-- Adds an increment that has arrived. -/
def State.addInc (s : State) (n : Inc) (cycle : Nat) : State :=
  State.releaseIncs { s with fabric := { s.fabric with incs := s.fabric.incs ++ [n] } } cycle

/-- The unit that a packet's sender code names, where it is no core: an I/O die, or the compute die of a sum (R284). -/
def State.senderUnit (s : State) (code : Nat) : Nat :=
  if code / 0x10000 = 2 then unitId 2 (s.siteOf (code % 0x10000)) 0
  else if code / 0x10000 = 3 then unitId 3 (code % 0x10000) 0
  else unitId 3 (code % 0x10000 / 64) 0

/-- A protection or route fault that a receiving die raises against a sending core or die (R208, R215, R284). CYCLE of latch and record is the count of the sending core's
last issue; a row from another panel names no sending core, so that its fault is the ingress I/O die's, with the route in LOCATION and no agent latch (DESIGN CHOICE:
R215 says neither; log entry 134). -/
def State.senderFault (s : State) (p : Packet) (kind : CoreFaultKind) : State :=
  if p.core < 2304 then s.coreFault p.core kind p.pc p.word (s.core p.core).cycle (s.reporterAt p.place) (some p.place)
  else
    (s.addError { unit := s.senderUnit p.core, code := coreFaultStatus kind, cls := 2, location := p.routeId, aux := 0,
                  flags := if s.isRunning then flStepFailed else 0, frame := s.step.frame,
                  reporter := s.reporterAt p.place }).failStep s.step.frame (coreFaultStatus kind) 0xFFFF 0

/-- A row put among those that await landing: in the order of the cycles in which they were whole, of one cycle in plane order (R226). -/
def insertArrived (a : Arrived) : List Arrived → List Arrived
  | [] => [a]
  | b :: bs => if a.cycle < b.cycle ∨ (a.cycle = b.cycle ∧ a.plane < b.plane) then a :: b :: bs else b :: insertArrived a bs

/-- Puts a row in a memory's delivery slots (R226). -/
def State.pushArrived (s : State) (mem : Nat) (a : Arrived) : State :=
  { s with fabric := { s.fabric with arrived := tset [] s.fabric.arrived mem (insertArrived a (tget [] s.fabric.arrived mem)) } }

/-- The cycle from which an arrived row may land: it is whole, and its bank has had no external landing in that cycle (R225, R226). -/
def State.landFrom (s : State) (mem : Nat) (a : Arrived) : Nat :=
  max a.cycle (tget 0 s.fabric.landedAt (mem * 32 + bankOf mem a.row))

/-- Places of the rows that are the first of their bank (R226). -/
def bankHeads (mem : Nat) (as : List Arrived) : List (Nat × Arrived) :=
  ((List.range as.length).zip as).filter (fun p => !((as.take p.1).any (fun b => bankOf mem b.row == bankOf mem p.2.row)))

/-- The first cycle from one on in which some arrived row of a memory may land, with that row's place, and the state with every earlier access made. -/
def State.landScan (mem : Nat) : Nat → Nat → State → Option (Nat × Nat × State)
  | 0, _, _ => none
  | n + 1, x, s =>
    let s1 := s.runTo (memCluster mem) x
    match (bankHeads mem (tget [] s1.fabric.arrived mem)).find? (fun p =>
        decide (s1.landFrom mem p.2 ≤ x) && s1.portFree mem p.2.row .external x) with
    | some p => some (x, p.1, s1)
    | none => State.landScan mem n (x + 1) (s1.cycleAt (memCluster mem) x)

/-- A channel of an I/O die, and a change of it. -/
def State.channel (s : State) (io ch : Nat) : Channel := tget {} (s.ioDie io).channels ch
def State.modChannel (s : State) (io ch : Nat) (f : Channel → Channel) : State :=
  s.modIoDie io fun d => { d with channels := tset {} d.channels ch (f (tget {} d.channels ch)) }

/-- The sender code of a channel's data rows, and of the rows and increments that complete its transfers. -/
def channelCode (io ch : Nat) : Nat := 0x10000 + io * 64 + ch
def completionCode (io ch : Nat) : Nat := 0x40000 + io * 64 + ch

/-- A data row of a planned transfer has landed: one fewer is outstanding (R243). -/
def State.rowLanded (s : State) (sender : Nat) : State :=
  if sender / 0x10000 = 1 then
    s.modChannel (sender % 0x10000 / 64) (sender % 64) (fun c => { c with running := c.running.map (fun r => { r with left := r.left - 1 }) })
  else s

/-- An arrived row lands whole in a cycle: its acknowledgement leaves, and the increment that its SEND's last row carries waits for that SEND's rows alone (R207,
R225, R232). -/
def State.landRow (s : State) (mem cycle i : Nat) : State :=
  let as := tget [] s.fabric.arrived mem
  match as[i]? with
  | none => s
  | some a =>
    let s1 := s.writeRow (memRowAddr mem a.row) a.bytes a.poison
    let s2 := { s1 with fabric := { s1.fabric with
      arrived := tset [] s1.fabric.arrived mem (as.eraseIdx i),
      landedAt := tset 0 s1.fabric.landedAt (mem * 32 + bankOf mem a.row) (cycle + 1) } }
    let s3 := (match a.ack with | some p => s2.inject [p] | none => s2).rowLanded a.sender
    let s4 := match a.notify with
      | some n => { s3 with fabric := { s3.fabric with incs := s3.fabric.incs ++
          [({ core := n.1, ctr := n.2, route := a.route, sender := a.sender, lo := a.msg, hi := a.msg + 1 } : Inc)] } }
      | none => s3
    s4.releaseIncs cycle

/-- The cycles in which the rows of a memory that wait may be landed at the earliest. -/
def State.landStart (s : State) (mem : Nat) : Nat :=
  let hs := (bankHeads mem (tget [] s.fabric.arrived mem)).map (fun p => s.landFrom mem p.2)
  hs.foldl min (hs.headD 0)

/-- EXTERNAL_WRITE_LAND: from a cycle on, the first arrived row of the memory that may land does, in the first cycle in which no higher claimant takes
its bank's write port and no unit reads its row (R225, R226); none while the clock of the memory's cluster is held (R445). -/
def execExternalWriteLand (memory cycle : Nat) (s : State) : Out :=
  if (s.cluster (memCluster memory)).held then .next s
  else match State.landScan memory (s.actsLeft (memCluster memory) + (tget [] s.fabric.reads memory).length + 2) (max cycle (s.landStart memory)) s with
  | some r => .next (r.2.2.landRow memory r.1 r.2.1)
  | none => .next s

/-! ### Requests and replies (R167, R206, R232) -/

/-- The reply to a request, on its reply route (R205). -/
def replyTo (p : Packet) (typ : Nat) (payload : List Byte) (poison : Bool) (fault : Option CoreFaultKind) : Packet :=
  { routeId := p.routeId + 0x8000, typ := typ, cls := 1, planned := true, poison := poison, src := p.dst, dst := p.src,
    dcore := p.core % 16, tag := p.tag, plane := p.plane, payload := payload, core := p.core, place := p.place,
    pc := p.pc, word := p.word, fault := fault }

/-- Whether the die that a request reached serves its address (R206, R218). -/
def State.servesHere (s : State) (place : Nat) (t : Target) : Bool :=
  match t with
  | .scratch d _ _ => s.dieAt place == some d
  | .cluster d _ _ => s.dieAt place == some d
  | .hbm a =>
    match stackOf s.fuses.part (s.resolveHbm a) with
    | some k => place == ioPlace (k / 2) && s.served (.hbm (s.resolveHbm a))
    | none => false
  | _ => false

/-- Whether a write request breaks protection while RUNNING (R206). -/
def State.writeForbidden (s : State) (t : Target) : Bool :=
  s.isRunning && (match t with
    | .hbm a => !s.frameMayWrite a
    | _ => s.isResident t)

/-- The first cycle from one on in which a memory's agent serves no other request (R232). -/
def State.agentFrom (s : State) (m cycle : Nat) : Nat := max cycle (tget 0 s.fabric.served m)

/-- The agent of a memory serves a request in a cycle. -/
def State.agentServed (s : State) (m cycle : Nat) : State :=
  { s with fabric := { s.fabric with served := tset 0 s.fabric.served m (cycle + 1) } }

/-- A row of a memory is read from outside its units in a cycle. -/
def State.noteRead (s : State) (m cycle row : Nat) : State :=
  { s with fabric := { s.fabric with reads := tset [] s.fabric.reads m (tget [] s.fabric.reads m ++ [(cycle, row)]) } }

/-- The first cycle from one on in which a row of a memory may be read from outside: an external landing made in its bank is over (R225, R233). -/
def State.readFrom (s : State) (m row cycle : Nat) : Nat := max cycle (tget 0 s.fabric.landedAt (m * 32 + bankOf m row))

/-- The read of a row-memory GET in the first cycle from its arrival on in which its agent serves no other request and no higher claimant takes the bank's
read port, after every external row of its bank that has landed (R223, R224, R232, R233). -/
def State.serviceAt (s : State) (t : Target) (cycle : Nat) : State :=
  match targetMem t with
  | none => s
  | some m =>
    let r := s.freeFrom m (targetRow t) .service (s.readFrom m (targetRow t) (s.agentFrom m cycle))
    (r.2.agentServed m r.1).noteRead m r.1 (targetRow t)

/-- The ROW packet that answers a READ_REQ, on the transfer's data route (R243, R260). -/
def dataReply (p : Packet) (payload : List Byte) (poison : Bool) : Packet :=
  { routeId := p.routeId - 0x8000, typ := 0, cls := 2, planned := true, poison := poison, src := p.dst, dst := p.src, tag := p.tag,
    plane := p.plane, payload := payload, core := p.core, place := p.place }

/-- The HOST packet that answers a HOST request, back where the request came from (R260). -/
def hostReply (p : Packet) (payload : List Byte) (poison : Bool) (fault : Option CoreFaultKind) : Packet :=
  { p with cls := 1, poison := poison, src := p.dst, dst := p.src, payload := payload, fault := fault }

/-- The data that answers a request to read a row or unit. -/
def readReply (p : Packet) (payload : List Byte) (poison : Bool) : Packet :=
  if p.typ = 8 then dataReply p payload poison else if p.typ = 0xA then hostReply p payload poison none else replyTo p 4 payload poison none

/-- The acknowledgement of a write request, and the answer to a request that is refused. -/
def writeReply (p : Packet) (poison : Bool) : Packet := if p.typ = 0xA then hostReply p [] poison none else replyTo p 5 [] poison none
def faultReply (p : Packet) (k : CoreFaultKind) : Packet := if p.typ = 0xA then hostReply p [] false (some k) else replyTo p 6 [] false (some k)

/-- Whether a request reads. A HOST request that carries no row or unit does (DESIGN CHOICE: the spec gives HOST packets no layout; log entry 50). -/
def Packet.reads (p : Packet) : Bool := p.typ == 2 || p.typ == 8 || (p.typ == 0xA && p.payload == [])

/-- A READ_REQ or a HOST read at the die of its row: the row is read in the first cycle from its arrival on that Table 6.3 leaves to the I/O dies' DMA. -/
def State.serveRead (s : State) (p : Packet) (t : Target) (cycle : Nat) : State :=
  match targetMem t with
  | none => s
  | some m =>
    let r := s.freeFrom m (targetRow t) .dma (s.readFrom m (targetRow t) cycle)
    let s1 := r.2.noteRead m r.1 (targetRow t)
    let a := s1.cellAddr t
    (if p.typ = 8 then s1.consumePoison 0xFFFF 0 t else s1).inject [readReply p (s1.readRow a) (s1.isPoisoned a)]

/-- Whether a place is the site of a die that is used no further. -/
def State.answersPoison (s : State) (place : Nat) : Bool := decide (place < 0x100) && s.dieGone place

/-- A request served at its target: GET answers the row; PUT of an HBM unit writes it; PUT of a row becomes an external write whose
acknowledgement waits for the landing; otherwise a fault reply, and a protection fault is raised by the die that refuses the row (R206, R215, R232). A die
that a retirement has reset answers with POISON (R477), and so does one that a mark names, which serves nothing (R385; log entry 109). -/
def State.serve (s : State) (i : Nat) (p : Packet) (cycle : Nat) : State :=
  let t := panelTarget s.units.gridClass p.addr
  let s0 := s.dropPacket i
  if s.answersPoison p.place then
    s0.inject [if p.reads then readReply p (List.replicate 512 0) true else writeReply p true]
  else if !s.servesHere p.place t then
    if p.typ = 8 then s0.lose p
    else match p.typ == 0xA && decide (0x100 ≤ p.place), targetDie t with
      | true, some d => s0.inject [{ p with src := p.place, dst := d }]
      | _, _ => s0.inject [faultReply p .route]
  else if p.typ = 8 ∨ (p.typ = 0xA ∧ p.reads ∧ p.place < 0x100) then s0.serveRead p t cycle
  else if p.typ = 0xA ∧ p.reads then s0.inject [readReply p (s0.readRow (s0.cellAddr t)) (s0.isPoisoned (s0.cellAddr t))]
  else if p.typ = 2 then
    let s1 := s0.serviceAt t cycle
    let a := s1.cellAddr t
    (s1.consumePoison p.core (s1.core p.core).cycle t).inject [replyTo p 4 (s1.readRow a) (s1.isPoisoned a) none]
  else if p.typ = 3 ∧ s.writeForbidden t then (s0.senderFault p .protection).inject [faultReply p .protection]
  else
    match targetMem t with
    | none => (s0.writeRow (s.cellAddr t) p.payload p.poison).inject [writeReply p false]
    | some m =>
      let x := if p.typ = 3 then s0.agentFrom m cycle else cycle
      (if p.typ = 3 then s0.agentServed m x else s0).pushArrived m
        { cycle := x, row := targetRow t, bytes := p.payload, poison := p.poison, plane := p.plane, route := p.routeId, sender := p.core, notify := none,
          ack := some (writeReply p false) }

/-- Whether a row of an earlier RPUT of the same core and route still waits to land at the die (R233). -/
def State.putWaits (s : State) (p : Packet) : Bool :=
  s.fabric.arrived.any (fun e => e.2.any (fun a => (match a.ack with | some q => q.routeId == p.routeId + 0x8000 && q.place == p.place | none => false) &&
    a.sender == p.core))

/-- Whether a request may be served: it is whole and next in its order, a GET behind the rows of its core's earlier RPUTs on its route, and the units that serve
it may be used (R40, R233, R385); none while the coolant-loss response holds clocks and stacks (R445). -/
def State.mayServe (s : State) (i : Nat) (p : Packet) : Bool :=
  s.ready i p && !s.thermal.active && !(p.typ == 2 && s.putWaits p) &&
  (p.typ == 2 || p.typ == 8 || (p.typ == 0xA && p.cls == 4) || (p.typ == 3 && !(decide (p.place ≥ 0x100) && bitsOf p.addr 47 44 == 3))) &&
  (s.answersPoison p.place || ((decide (p.place < 0x100) || s.ioUsable (p.place - 0x100)) &&
    (s.targetUsable (panelTarget s.units.gridClass p.addr) || !s.servesHere p.place (panelTarget s.units.gridClass p.addr))))

/-- Whether a read by an I/O die's DMA yields to a GET that is whole at the same memory by the cycle and would read the same bank (Table 6.3, R224). -/
def State.yieldsToGet (s : State) (p : Packet) (cycle : Nat) : Bool :=
  let t := panelTarget s.units.gridClass p.addr
  decide (p.place < 0x100) && (p.typ == 8 || p.typ == 0xA) && p.reads &&
    (s.fabric.packets.zip (List.range s.fabric.packets.length)).any (fun q =>
      let u := panelTarget s.units.gridClass q.1.addr
      q.1.typ == 2 && q.1.place == p.place && s.mayServe q.2 q.1 && q.1.wait.all (fun c => decide (c ≤ cycle)) &&
        targetMem u == targetMem t && (match targetMem t with | some m => bankOf m (targetRow u) == bankOf m (targetRow t) | none => false))

/-- The panel once a request's HBM unit has its grant at the stack: planned traffic within the quota, a piece's unit by its host channel's requests; a row-memory
request needs none, and one that is refused takes none (R250, R288, R289, R291). -/
def State.quota (s : State) (p : Packet) : Option State :=
  match panelTarget s.units.gridClass p.addr with
  | .hbm a =>
    if s.servesHere p.place (.hbm a) then
      match stackOf s.fuses.part (s.resolveHbm a) with
      | some k => if p.typ = 0xA then (if s.unitGranted k p then some s else none) else s.planUnit k
      | none => some s
    else some s
  | _ => some s

/-- REMOTE_REQUEST_ARRIVAL (R232): a GET, PUT, READ_REQ or HOST request whole at its target in a cycle; with no grant of its stack it waits, and a DMA read for a
GET of its bank. The I/O die that a HOST request for a row goes through passes it on to the row's die (R245). -/
def execRemoteRequestArrival (pkt cycle : Nat) (s : State) : Out :=
  match s.packet pkt with
  | none => .next s
  | some p =>
    if s.mayServe pkt p && !s.yieldsToGet p cycle then
      match s.quota p with
      | none => .next s
      | some s1 => .next (s1.serve pkt p cycle)
    else .next s

/-- An RGET reply that has arrived: its landing is a write of the requesting core's remote-access agent, in the first cycle from its arrival on, and after an
external landing made in its bank, in which no higher claimant takes the bank's write port; with it the slot frees and the counter increments (R167, R222, R223). -/
def replyJob (p : Packet) (e : ReplySlot) (cycle : Nat) : Job :=
  { unit := 6, word := e.word, bytes := p.payload, bad := p.poison, slot := some p.tag, done := cycle + 1,
    acts := [{ cyc := cycle, write := true, cluster := false, row := e.lrow, key := 0 }] }

/-- A reply at a core's die: a row begins to land; an acknowledgement frees the slot and increments the counter; a fault reply frees the slot and raises the route
fault against the request, or stops the core whose protection fault the receiving die has raised (R167, R206, R212, R215). At a retired site it is
discarded (R477); a core whose clock is held takes none (R445). -/
def State.coreReply (s : State) (pkt cycle : Nat) (p : Packet) : State :=
  match s.dieAt p.place with
  | none => s
  | some d =>
    let c := d * 16 + p.dcore
    match tget none (s.core c).slots p.tag with
    | none => s
    | some e =>
      if s.ready pkt p ∧ !s.clockHeld c ∧ (p.typ = 4 ∨ p.typ = 5 ∨ p.typ = 6) then
        let s0 := s.dropPacket pkt
        if s.dieGone p.place then s0.lose p
        else if p.typ = 4 then
          (s0.runTo (c / 8) cycle).modCore c fun k => k.start (replyJob p e (s0.readFrom c (e.lrow % memRows c) cycle))
        else
          let s1 := s0.modCore c fun k => k.freeSlotAt p.tag cycle
          if p.typ = 5 then s1.increment c e.ctr cycle
          else if p.fault = some .protection then s1.modCore c fun k => { k with mode := .faulted }
          else s1.coreFault c .route e.pc e.word cycle d none
      else s

/-! ### Reductions (R280 to R284, R127) -/

/-- Key of a reduction entry. -/
def redKey (die red plane : Nat) : Nat := (die * 65536 + red) * 8 + plane

/-- The logical direction of a packet's SRC die seen from a die: 0 local, 1 N, 2 S, 3 E, 4 W (R281). -/
def dirOf (die src : Nat) : Option Nat :=
  if src = die then some 0
  else if src = die + 12 then some 1
  else if src + 12 = die then some 2
  else if src = die + 1 ∧ src / 12 = die / 12 then some 3
  else if src + 1 = die ∧ src / 12 = die / 12 then some 4
  else none

/-- The logical neighbour of a die in a direction (R283). -/
def dieToward (die dir : Nat) : Nat := match dir with | 1 => die + 12 | 2 => die - 12 | 3 => die + 1 | 4 => die - 1 | _ => die

/-- One element combined over the inputs present (R127): op 0 sum, 1 maximum, 2 minimum. -/
def combine (op fmt : Nat) (xs : List Nat) : Nat :=
  if fmt = 10 then
    let is := xs.map (fun x => (BitVec.ofNat 32 x).toInt)
    let v : Int := match op with
      | 0 => is.foldl (· + ·) 0
      | 1 => is.foldl max (is.headD 0)
      | _ => is.foldl min (is.headD 0)
    (narrowInt 32 true v).1
  else
    match xs.map (decodeFmt fmt) with
    | [] => 0
    | v :: vs =>
      match op with
      | 0 => rne fmt (decodeFmt 0 (vs.foldl (fun a x => rne 0 (faddExact (decodeFmt 0 a) x)) (rne 0 v)))
      | 1 => rne fmt (vs.foldl fmax v)
      | _ => rne fmt (vs.foldl fmin v)

/-- The row that a node forwards (R282). -/
def combineRows (t : RedTree) (ins : List RedInput) : List Byte :=
  packRow t.fmt ((List.range (perRow t.fmt)).map (fun i => combine t.op t.fmt (ins.map (fun x => getElem t.fmt x.bytes i))))

/-- The inputs of an entry in the order local, N, S, E, W. -/
def orderInputs (ins : List RedInput) : List RedInput := (List.range 5).flatMap (fun d => ins.filter (fun x => x.dir == d))

/-- The packet a node makes of its inputs: a REDUCE packet to the neighbour, or at the root a row for core DCORE, whose increment waits for that row alone
(R209, R282, R283). -/
def State.redResult (s : State) (die : Nat) (t : RedTree) (ins : List RedInput) : Packet :=
  let os := orderInputs ins
  let f := os.headD { dir := 0, bytes := [], drow := 0, dcore := 0, dctr := 0, poison := false, core := 0 }
  { routeId := t.red, typ := if t.out = 0 then 0 else 7, cls := 2, planned := true, poison := ins.any (·.poison), last := t.out == 0,
    src := die, dst := dieToward die t.out, drow := f.drow, dcore := f.dcore, dctr := f.dctr, plane := t.plane,
    payload := combineRows t os, core := 0x20000 + die, place := s.siteOf die, msg := s.fabric.nextUid }

/-- A REDUCE input at its die: discarded with a route fault, held, or the last that combines (R282, R284). -/
def State.reduceInput (s : State) (i die : Nat) (p : Packet) : State :=
  let s0 := s.dropPacket i
  let key := redKey die p.routeId p.plane
  let held := tget [] s.fabric.reds key
  match s.treeOf die p.routeId p.plane, dirOf die p.src with
  | some t, some d =>
    if t.inMask.testBit d ∧ held.all (fun x => x.dir != d) then
      let ins := held ++ [{ dir := d, bytes := p.payload, drow := p.drow, dcore := p.dcore, dctr := p.dctr, poison := p.poison, core := p.core }]
      if ins.length = t.fanin then
        State.inject { (s0.consumeInputs die (orderInputs ins)) with fabric := { (s0.consumeInputs die (orderInputs ins)).fabric with
          reds := terase key s0.fabric.reds } } [s.redResult die t ins]
      else { s0 with fabric := { s0.fabric with reds := tset [] s0.fabric.reds key ins } }
    else s0.senderFault p .route
  | _, _ => s0.senderFault p .route

/-- REDUCE_INPUT_ARRIVAL: an input that is whole and next in its order (R264, R282); at a retired site it is discarded (R477). -/
def execReduceInputArrival (pkt : Nat) (s : State) : Out :=
  match s.packet pkt with
  | none => .next s
  | some p =>
    match s.dieAt p.place with
    | none => .next s
    | some d =>
      if !s.ready pkt p ∨ p.typ ≠ 7 then .next s
      else if s.dieGone p.place then .next ((s.dropPacket pkt).lose p)
      else .next (s.reduceInput pkt d p)

/-! ### Windows (R274) -/

/-- TC0_WINDOW_START: the TC0 caps restart (R274). -/
def execTc0WindowStart (s : State) : Out := .next { s with fabric := { s.fabric with tc0Out := [], tc0Inject := [] } }

end Sys2Proof.Machine
end

