-- ==== Sys2Proof/Machine/Dma.lean ====
section
/-! DEFINITION. Planned DMA transfers and the conversion on the DMA path (06 R236 to R244, 03 R122 to R124). -/

namespace Sys2Proof.Machine

/-! ### Conversion on the DMA path -/

/-- The D entries of Table 3.9. -/
def dPath (sf df : Nat) : Bool :=
  let small := fun f => decide (3 ≤ f) && decide (f ≤ 9)
  (sf == 0 && decide (1 ≤ df ∧ df ≤ 10)) || (df == 0 && decide (1 ≤ sf ∧ sf ≤ 10)) ||
    (sf == 1 && small df) || (df == 1 && (sf == 2 || small sf))

/-- How a transfer converts its elements. -/
structure Conv where
  sfmt : Nat
  dfmt : Nat
  rm : Nat
  sat : Bool
  ssc : Bool
  dsc : Bool
deriving DecidableEq, Repr

/-- Units of 512 B that `n` elements of a format fill (R240). -/
def unitsFor (f n : Nat) : Nat := (n + perRow f - 1) / perRow f

/-- Units that the block scales of `n` elements fill (R241). -/
def scaleUnits (n : Nat) : Nat := ((n + 31) / 32 + 511) / 512

/-- Converts elements (R124, R240, R241): the patterns, the block scales, and the flags. `rnd i` is the draw of element i. -/
def convElems (c : Conv) (scales : List Nat) (rnd : Nat → Nat) (xs : List Nat) : List Nat × List Nat × ConvFlags :=
  if c.sfmt = c.dfmt ∧ c.ssc = false ∧ c.dsc = false then (xs, [], {})
  else
    let vs := (xs.zip (List.range xs.length)).map fun p =>
      if c.ssc then mxValue c.sfmt (scales.getD (p.2 / 32) 0) p.1 else decodeFmt c.sfmt p.1
    if c.dsc then
      let bs := (chunksOf 32 (vs.length + 1) vs).zip (List.range (vs.length + 1))
      let out := bs.map fun b => mxBlock c.dfmt c.rm ((List.range 32).map (fun i => rnd (32 * b.2 + i))) b.1
      (out.flatMap (fun o => o.2.1), out.map (fun o => o.1), out.foldl (fun a o => orFlags a o.2.2) {})
    else
      let es := (vs.zip (List.range vs.length)).map fun p => convert c.dfmt c.rm c.sat false (rnd p.2) p.1
      (es.map (·.1), [], es.foldl (fun a e => orFlags a e.2) {})

/-- The completion word of Table 6.8. -/
def xferWord (nv of wr : Bool) (err : Nat) : Nat := bit nv + 2 * bit of + 4 * bit wr + 8 + 256 * err

/-! ### Descriptors (Tables 6.5 and 6.6) -/

/-- Little-endian field of a byte list. -/
def field (bs : List Byte) (o n : Nat) : Nat := leNat ((bs.drop o).take n)

/-- Reads one descriptor slot; none when its VALID bit is 0 (R238). -/
def readDesc (launcher : Nat) (bs : List Byte) : Option Desc :=
  let c := field bs 0 4
  if c % 2 = 0 then none
  else some
    { sfmt := bitsOf c 4 1, dfmt := bitsOf c 8 5, rm := bitsOf c 11 9, sat := c.testBit 12, ssc := c.testBit 13, dsc := c.testBit 14,
      cw := c.testBit 15, notify := c.testBit 16, count := field bs 4 4, src := field bs 8 8, dst := field bs 0x10 8,
      scale := field bs 0x18 8, cwAddr := field bs 0x20 8, rate := field bs 0x28 2, route := field bs 0x2A 2, core := field bs 0x2C 2,
      ctr := field bs 0x2E 1 % 16, rsv := bitsOf c 31 17 + field bs 0x2E 1 / 16 + field bs 0x2F 17, launcher := launcher }

/-- The eight slots of a launch row, in slot order, valid ones only (R237). -/
def launchSlots (launcher : Nat) (row : List Byte) : List Desc :=
  (List.range 8).filterMap (fun i => readDesc launcher ((row.drop (64 * i)).take 64))

/-- Whether the source side is the HBM side. -/
def Desc.fromHbm (d : Desc) : Bool := decide (bitsOf d.src 47 44 = 2)
/-- The HBM side's and the row side's addresses and formats. -/
def Desc.hbmSide (d : Desc) : Nat := if d.fromHbm then d.src else d.dst
def Desc.rowSide (d : Desc) : Nat := if d.fromHbm then d.dst else d.src
def Desc.hbmFmt (d : Desc) : Nat := if d.fromHbm then d.sfmt else d.dfmt
def Desc.rowFmt (d : Desc) : Nat := if d.fromHbm then d.dfmt else d.sfmt
/-- Whether either side is block-scaled, and whether the scale units lie in HBM. -/
def Desc.scaled (d : Desc) : Bool := d.ssc || d.dsc
def Desc.scaleInHbm (d : Desc) : Bool := (d.ssc && d.fromHbm) || (d.dsc && !d.fromHbm)
/-- Its conversion. -/
def Desc.conv (d : Desc) : Conv := { sfmt := d.sfmt, dfmt := d.dfmt, rm := d.rm, sat := d.sat, ssc := d.ssc, dsc := d.dsc }

/-- The target of unit i from a panel address on. -/
def State.unitTarget (s : State) (a i : Nat) : Target := panelTarget s.units.gridClass (a + 512 * i)

/-- Targets of `n` consecutive units; at least one is checked, so that a COUNT of 0 still names a place (log entry 19). -/
def State.unitTargets (s : State) (a n : Nat) : List Target := (List.range (max n 1)).map (s.unitTarget a)

/-- Whether targets are HBM addresses that lie within one stack that an I/O die serves (R239). -/
def State.inOneStack (s : State) (io : Nat) (ts : List Target) : Bool :=
  let ks := ts.map (fun t => match t with
    | .hbm a => if s.served (.hbm (s.resolveHbm a)) then stackOf s.fuses.part (s.resolveHbm a) else none
    | _ => none)
  match ks.headD none with
  | none => false
  | some k => k / 2 == io && ks.all (· == some k)

/-- Whether targets lie in one row memory. -/
def inMemory (m : Option Nat) (ts : List Target) : Bool := m.isSome && ts.all (fun t => targetMem t == m)

/-- Whether every HBM unit lies within a region and, if written, its rule allows frames to write it (R239, Table 2.6). -/
def State.regionsOk (s : State) (write : Bool) (ts : List Target) : Bool :=
  ts.all (fun t => match t with
    | .hbm a => (s.regionOf a).isSome && (!write || s.frameMayWrite a)
    | _ => false)

/-- The route conditions of R239. -/
def State.dmaRoutesOk (s : State) (io : Nat) (d : Desc) (die : Nat) : Bool :=
  match s.routeOf d.route with
  | none => false
  | some r =>
    decide (d.route < 0x8000) && r.cls == 2 && r.kind == 0 &&
    (if d.fromHbm then r.src == ioPlace io && r.dst == die
     else r.src == die && r.dst == ioPlace io &&
       (match s.routeOf (d.route + 0x8000) with
        | none => false
        | some q => q.cls == 4 && q.kind == 0 && q.src == ioPlace io && q.dst == die && q.plane == r.plane))

/-- R239 for one slot: none when every condition holds, else the fault of Table 6.7 for the first that fails. -/
def State.descFault (s : State) (io : Nat) (d : Desc) : Option CoreFaultKind :=
  let hs := s.unitTargets d.hbmSide (unitsFor d.hbmFmt d.count)
  let rs := s.unitTargets d.rowSide (unitsFor d.rowFmt d.count)
  let ss := s.unitTargets d.scale (scaleUnits d.count)
  let mem := targetMem (rs.headD .none)
  let die := (targetDie (rs.headD .none)).getD 0x100
  let codesOk := d.rsv == 0 && fmtValid d.sfmt && fmtValid d.dfmt && decide (d.rm ≤ 4) && (d.sfmt == d.dfmt || dPath d.sfmt d.dfmt)
  let scaleOk := !(d.ssc && d.dsc) && (!d.ssc || fmtScalable d.sfmt) && (!d.dsc || fmtScalable d.dfmt) &&
    (!d.scaled || d.count % 32 == 0)
  let scaleAt := !d.scaled || (if d.scaleInHbm then s.inOneStack io ss else inMemory mem ss)
  let cwOk := !d.cw || (targetDie (s.unitTarget d.cwAddr 0) == some die)
  let routeOk := codesOk && scaleOk && s.inOneStack io hs && inMemory mem rs && scaleAt && s.dmaRoutesOk io d die &&
    decide (1 ≤ d.rate ∧ d.rate ≤ 320) && (!d.notify || d.core / 16 == die) && cwOk
  if !routeOk then some .route
  else if !(s.regionsOk (!d.fromHbm) hs && (!(d.scaled && d.scaleInHbm) || s.regionsOk d.dsc ss)) then some .protection
  else if s.isRunning && ((d.fromHbm && rs.any s.isResident) || (d.dsc && !d.scaleInHbm && ss.any s.isResident)) then some .protection
  else none

/-- Transfers on a channel, the running one included (R236). -/
def Channel.held (c : Channel) : Nat := c.queue.length + (if c.running.isSome then 1 else 0)

/-- The fault of a launch row, or none when it is accepted (R237): the lowest failing slot decides, then room in the queue. -/
def State.launchFault (s : State) (io : Nat) (p : Packet) : Option CoreFaultKind :=
  match panelTarget s.units.gridClass p.addr with
  | .launch i ch =>
    if i ≠ io ∨ ch ≥ 56 ∨ s.retired (unitId 3 io 0) then some .route
    else
      let ds := launchSlots p.core p.payload
      match ds.findSome? (s.descFault io) with
      | some k => some k
      | none => if (s.channel io ch).held + ds.length > 8 then some .route else none
  | _ => some .route

/-- DMA_LAUNCH: a launch row at an I/O die is queued whole with a good reply, or answered with a fault reply; a protection fault is raised by the die that
refuses the row (R215, R237). -/
def execDmaLaunch (pkt : Nat) (s : State) : Out :=
  match s.packet pkt with
  | none => .next s
  | some p =>
    if s.ready pkt p ∧ p.typ = 3 ∧ p.place ≥ 0x100 ∧ p.place < 0x10C ∧ bitsOf p.addr 47 44 = 3 ∧
        (s.ioUsable (p.place - 0x100) ∨ s.retired (unitId 3 (p.place - 0x100) 0)) then
      let io := p.place - 0x100
      let s0 := (s.dropPacket pkt)
      match s.launchFault io p with
      | some .protection => .next ((s0.senderFault p .protection).inject [replyTo p 6 [] false (some .protection)])
      | some k => .next (s0.inject [replyTo p 6 [] false (some k)])
      | none =>
        .next ((s0.modChannel io (bitsOf p.addr 14 9) (fun c => { c with queue := c.queue ++ launchSlots p.core p.payload })).inject
          [replyTo p 5 [] false none])
    else .next s

/-! ### Running a transfer (R240 to R244) -/

/-- Bytes and poison of a unit. -/
def State.unitData (s : State) (t : Target) : List Byte × Bool := (s.readRow (s.cellAddr t), s.isPoisoned (s.cellAddr t))

/-- Elements of consecutive units in a format, `n` of them. -/
def unitElems (f n : Nat) (us : List (List Byte)) : List Nat := (us.flatMap (fun u => getElems f u 0 (perRow f))).take n

/-- Whether any unit that holds one of elements lo to hi - 1, `per` to a unit, is poisoned. -/
def anyPoisoned (per : Nat) (ps : List Bool) (lo hi : Nat) : Bool := ((ps.drop (lo / per)).take ((hi - 1) / per + 1 - lo / per)).any id

/-- Elements that one unit of block scales covers (R241). -/
def perScaleUnit : Nat := 512 * 32

/-- Whether the destination unit that holds elements lo to hi - 1 takes an element or a scale from a poisoned unit (R244). -/
def poisonedUnit (sf : Nat) (ps sps : List Bool) (lo hi : Nat) : Bool := anyPoisoned (perRow sf) ps lo hi || anyPoisoned perScaleUnit sps lo hi

/-- Elements packed into whole units, zero beyond the last (R96, R240). -/
def packUnits (f : Nat) (xs : List Nat) : List (List Byte) :=
  (chunksOf (perRow f) (xs.length + 1) xs).map (packRow f)

/-- Scale bytes packed 512 to a unit, 0x00 beyond the last (R241). -/
def packScales (xs : List Nat) : List (List Byte) :=
  (chunksOf 512 (xs.length + 1) xs).map (fun c => fitBytes 512 (c.flatMap (toLE 1)))

/-- What a transfer makes of its source units: destination units and destination scale units with their poison marks, and its flags. -/
structure Moved where
  units : List (List Byte × Bool)
  scales : List (List Byte × Bool)
  flags : ConvFlags
  bad : Bool
deriving DecidableEq, Repr

/-- Converts the units that a transfer of a channel has read, its first element taking the number `elem` (R240, R241, R244). -/
def State.convertUnits (s : State) (code : Nat) (d : Desc) (elem : Nat) (data sdata : List (List Byte × Bool)) : Moved :=
  let n := d.count
  let scales := sdata.flatMap (fun u => u.1.map (·.toNat))
  let rnd := fun i => if d.rm = 4 then
    srDraw ((s.plan.map (·.seed)).getD 0) (s.step.frameBase + s.step.frame) code (elem + i) else 0
  let out := convElems d.conv scales rnd (unitElems d.sfmt n (data.map (·.1)))
  let ps := data.map (·.2)
  let sps := sdata.map (·.2)
  let marks := fun (per : Nat) (us : List (List Byte)) =>
    (us.zip (List.range us.length)).map fun v => (v.1, poisonedUnit d.sfmt ps sps (v.2 * per) (min ((v.2 + 1) * per) n))
  { units := marks (perRow d.dfmt) (packUnits d.dfmt out.1), scales := if d.dsc then marks perScaleUnit (packScales out.2.1) else [],
    flags := out.2.2, bad := ps.any id || sps.any id }

/-- A transfer with the flags of its conversion, ERR 0x01 when it read uncorrected data (Table 6.8, R244). -/
def Running.took (r : Running) (m : Moved) : Running :=
  { r with nv := m.flags.nv, of := m.flags.of, wr := m.flags.wr, err := if r.err = 0 ∧ m.bad then 1 else r.err }

/-- Addresses of a transfer's source units, and of the scale units that it reads. -/
def State.srcUnits (s : State) (d : Desc) : List Target := (List.range (unitsFor d.sfmt d.count)).map (s.unitTarget d.src)
def State.scaleSrc (s : State) (d : Desc) : List Target :=
  if d.ssc then (List.range (scaleUnits d.count)).map (s.unitTarget d.scale) else []

/-- A packet of a transfer on one of its routes. -/
def State.xferPacket (s : State) (io : Nat) (d : Desc) (id code : Nat) : Packet :=
  let q := (s.routeOf id).getD { id := id, cls := 2, plane := 0, src := 0, dst := 0, kind := 0 }
  { routeId := id, cls := q.cls, planned := true, src := ioPlace io, dst := (targetDie (s.unitTarget d.rowSide 0)).getD 0, plane := q.plane,
    core := code, place := ioPlace io }

/-- Core, memory and row of a row-memory target, as a packet's header names them (R207). -/
def rowFields (t : Target) : Nat × Nat × Nat :=
  match t with
  | .scratch _ k r => (k, 0, r)
  | .cluster _ j r => (8 * j, 1, r)
  | _ => (0, 0, 0)

/-- The ROW packets that carry destination rows from an address on, on the data route (R222, R260). -/
def State.dataRows (s : State) (io ch : Nat) (d : Desc) (a : Nat) (us : List (List Byte × Bool)) : List Packet :=
  (us.zip (List.range us.length)).map fun u =>
    let f := rowFields (s.unitTarget a u.2)
    { s.xferPacket io d d.route (channelCode io ch) with
      payload := u.1.1, poison := u.1.2, dcore := f.1, dm := f.2.1, drow := f.2.2 }

/-- The READ_REQ packets for a transfer's row-memory source, its rows numbered in TAG, then its scale rows (R260, R270; DESIGN CHOICE: Table 7.2 gives TAG as
the transfer tag of a DMA request and no value; log entry 50). The I/O die holds receive space for every row that they ask for. -/
def State.readRequests (s : State) (io ch : Nat) (d : Desc) : List Packet :=
  let n := unitsFor d.sfmt d.count
  let ask : Nat → Nat → Nat → List Packet := fun a base m => (List.range m).map fun i =>
    { s.xferPacket io d (d.route + 0x8000) (channelCode io ch) with typ := 8, addr := a + 512 * i, tag := base + i }
  ask d.src 0 n ++ (if d.ssc then ask d.scale n (scaleUnits d.count) else [])

/-- HBM-side units of a transfer, scale units on that side among them (R242). -/
def Desc.hbmUnits (d : Desc) : Nat :=
  unitsFor d.hbmFmt d.count + (if d.scaled && d.scaleInHbm then scaleUnits d.count else 0)

/-- The stack of a transfer's HBM side. -/
def State.descStack (s : State) (d : Desc) : Option Nat :=
  match s.unitTarget d.hbmSide 0 with
  | .hbm a => stackOf s.fuses.part (s.resolveHbm a)
  | _ => none

/-- Whether the stack of a transfer's HBM side is retired. -/
def State.descGone (s : State) (d : Desc) : Bool :=
  match s.unitTarget d.hbmSide 0 with
  | .hbm a => !s.served (.hbm (s.resolveHbm a))
  | _ => false

/-- A transfer starts: an HBM source is read whole and its converted rows leave on the data route; rows of a row-memory source are asked for; its units are
requested at the stack's arbiter. A retired stack gives ERR 0x04 and moves nothing (R240, R242, R288). RATE is a promise of the plan's compiler and paces
nothing here (log entry 24). -/
def State.startDesc (s : State) (io ch : Nat) (d : Desc) : State :=
  let c := s.channel io ch
  let r : Running := { desc := d, started := s.now, elem := c.elem }
  let put := fun (r : Running) (s : State) => s.modChannel io ch fun c =>
    { c with queue := c.queue.tail, running := some r, elem := (c.elem + d.count) % 2 ^ 32 }
  if s.descGone d then put { r with err := 4 } s
  else
    let s1 := match s.descStack d with
      | some k => s.request k { who := none, key := plannedKey io ch, units := d.hbmUnits }
      | none => s
    if d.fromHbm then
      let m := s.convertUnits (channelCode io ch) d c.elem ((s.srcUnits d).map s.unitData) ((s.scaleSrc d).map s.unitData)
      let s2 := s1.consumeRows (s.srcUnits d ++ s.scaleSrc d)
      (put { r.took m with left := m.units.length + m.scales.length } s2).inject
        (s.dataRows io ch d d.dst m.units ++ s.dataRows io ch d d.scale m.scales)
    else (put r s1).inject (s.readRequests io ch d)

/-- DMA_TRANSFER_START: the first queued transfer of a channel whose previous one has completed (R240, R242). The I/O die and the stack must be usable (R40). -/
def execDmaTransferStart (io channel : Nat) (s : State) : Out :=
  match (s.channel io channel).running, (s.channel io channel).queue with
  | none, d :: _ =>
    if s.thermal.active ∨ !s.ioUsable io ∨ !(s.descGone d || s.targetUsable (s.unitTarget d.hbmSide 0)) then .next s
    else .next (s.startDesc io channel d)
  | _, _ => .next s

/-- The completion row of a transfer: the word of Table 6.8 and COUNT (R243). -/
def completionRow (r : Running) : List Byte :=
  fitBytes 512 (toLE 4 (xferWord r.nv r.of r.wr r.err) ++ toLE 4 r.desc.count)

/-- The packets that follow a completed transfer on its completion route: the completion row, then the increment (R243). -/
def State.completionPackets (s : State) (io ch : Nat) (r : Running) : List Packet :=
  let d := r.desc
  let base := { s.xferPacket io d (if d.fromHbm then d.route else d.route + 0x8000) (completionCode io ch) with msg := s.fabric.nextUid }
  let f := rowFields (s.unitTarget d.cwAddr 0)
  (if d.cw then [{ base with payload := completionRow r, dcore := f.1, dm := f.2.1, drow := f.2.2 }] else []) ++
    (if d.notify then [{ base with typ := 1, last := true, dcore := d.core % 16, dctr := d.ctr, msg := base.msg + 1 }] else [])

/-- Whether a running transfer has all of its source rows (R240). -/
def Running.allRead (r : Running) : Bool :=
  r.desc.fromHbm || r.err == 4 ||
    decide (r.rows.length = unitsFor r.desc.sfmt r.desc.count + (if r.desc.ssc then scaleUnits r.desc.count else 0))

/-- Whether a running transfer has moved everything: every row has come or landed, and its stack has granted every unit (R243, R288). -/
def State.moved (s : State) (io ch : Nat) (r : Running) : Bool :=
  r.allRead && decide (r.left = 0) && s.granted (plannedKey io ch)

/-- Writes the HBM units of a transfer from row memory, and gives the transfer its flags (R240); none in a stack that may not be used (R40), nor of a transfer that the
coolant-loss response has ended (R445). -/
def State.writeHbm (s : State) (io ch : Nat) (r : Running) : Running × State :=
  let d := r.desc
  if d.fromHbm ∨ r.err = 3 ∨ r.err = 4 then (r, s)
  else
    let row := fun i => tget ([], false) r.rows i
    let n := unitsFor d.sfmt d.count
    let m := s.convertUnits (channelCode io ch) d r.elem ((List.range n).map row)
      (if d.ssc then (List.range (scaleUnits d.count)).map (fun i => row (n + i)) else [])
    let write := fun (a : Nat) (us : List (List Byte × Bool)) (s : State) =>
      forEach (us.zip (List.range us.length)) (fun u s =>
        if s.targetUsable (s.unitTarget a u.2) then s.writeRow (s.cellAddr (s.unitTarget a u.2)) u.1.1 u.1.2 else s) s
    (r.took m, write d.scale m.scales (write d.dst m.units s))

/-- DMA_TRANSFER_COMPLETE: once every destination unit has landed, the completion row and the increment are sent, by an I/O die and to or from a stack that may be
used (R40, R243). -/
def execDmaTransferComplete (io channel : Nat) (s : State) : Out :=
  match (s.channel io channel).running with
  | none => .next s
  | some r =>
    if s.moved io channel r ∧ !s.thermal.active ∧ s.ioUsable io ∧ (s.descGone r.desc ∨ s.targetUsable (s.unitTarget r.desc.hbmSide 0)) then
      let w := s.writeHbm io channel r
      .next ((w.2.modChannel io channel (fun c => { c with running := none })).inject (w.2.completionPackets io channel w.1))
    else .next s

/-- The row of row memory that a data row of a transfer was read from, by its TAG (R260). -/
def State.askedRow (s : State) (p : Packet) : Option Target :=
  (s.channel (p.core % 0x10000 / 64) (p.core % 64)).running.map fun r =>
    let n := unitsFor r.desc.sfmt r.desc.count
    if p.tag < n then s.unitTarget r.desc.src p.tag else s.unitTarget r.desc.scale (p.tag - n)

/-- A unit read whose data has come poisoned to a reader: the record names the place that it was read from (R489; log entry 107). -/
def State.flightRead (s : State) (t : Target) (reader : Nat) : State :=
  s.poisonRead 0xFFFF { unit := s.targetUnit t, code := 0x403, cls := 2, location := poisonLocation t, aux := 1, reporter := reader }

/-- A poisoned unit that a step's output carries: consumed where it lies if it is marked there, else as it comes (R489). -/
def State.consumeUnit (s : State) (t : Target) (reader : Nat) : State :=
  if s.isPoisoned (s.cellAddr t) then s.consumePoison 0xFFFF 0 t else s.flightRead t reader

/-- Data poisoned on its way, which a planned transfer reads: consumed, with the row that it was read from as its place. A row that carries the mark itself was consumed
as the transfer read it (R489; log entry 107). -/
def State.consumeFlight (s : State) (p : Packet) : State :=
  match s.askedRow p with
  | some t => if p.poison && !s.isPoisoned (s.cellAddr t) then s.flightRead t (ioPlace (p.core % 0x10000 / 64)) else s
  | none => s

/-- A data row from a die at the I/O die that asked for it: it takes its reserved place (R270). -/
def State.takeData (s : State) (p : Packet) : State :=
  (s.consumeFlight p).modChannel (p.core % 0x10000 / 64) (p.core % 64) fun c =>
    { c with running := c.running.map (fun r => { r with rows := tinsert p.tag (p.payload, p.poison) r.rows }) }

end Sys2Proof.Machine
end

