-- ==== Sys2Proof/Machine/HostPort.lean ====
section
/-! DEFINITION. The host window, the completion log and the interrupt block (09 R338 to R347, R357 to R364). -/

namespace Sys2Proof.Machine

/-! ### Register images -/

/-- ID (Table 9.3). -/
def State.idReg (s : State) : Nat :=
  partCode s.fuses.part + s.fuses.stepping.toNat * 2 ^ 16 + 2 ^ 24 + s.boot.fwPatch * 2 ^ 64 + s.boot.fwMinor * 2 ^ 80 +
    s.boot.fwMajor * 2 ^ 96 + s.boot.secVersion * 2 ^ 112

/-- STAGE_CODE (Table 9.4): stage, unit kind, unit number and result, and ELAPSED_MS, which saturates. -/
def State.stageReg (s : State) : Nat :=
  s.boot.shown.1 + s.boot.shown.2.1 * 2 ^ 8 + s.boot.shown.2.2.1 * 2 ^ 12 + s.boot.shown.2.2.2 * 2 ^ 16 +
    min (2 ^ 32 - 1) (((s.now : Int) - s.boot.startedAt).toNat / 10 ^ 6) * 2 ^ 32

/-- WINDOW_STATUS (Table 9.5). -/
def State.windowReg (s : State) : Nat :=
  bit s.host.ownedWrite + 2 * bit s.host.badAccess + 4 * bit s.host.retrained + s.host.width * 2 ^ 8 + bit s.boot.tolniReady * 2 ^ 12

/-- STRAP_STATUS (Table 9.6). -/
def State.strapReg (s : State) : Nat :=
  s.straps.role.toNat + s.straps.profile.toNat * 4 + s.straps.boot.toNat * 16 + bit s.straps.hlw * 64 + s.straps.id.toNat * 256

/-- Records that wait for room: those made beyond the 4,096 − (k − CONS) that could be written (R358, Table 9.14). -/
def State.heldRecords (s : State) : Nat := s.log.waiting.length - (4096 - (s.log.count - s.log.cons).toNat)

/-- The completion-log block (Table 9.14). -/
def State.logReg (s : State) : Nat :=
  s.log.base + s.log.prodAddr * 2 ^ 64 + bit s.log.enable * 2 ^ 128 + s.log.cons.toNat * 2 ^ 192 +
    min 511 s.heldRecords * 2 ^ 224 + s.log.lost * 2 ^ 240

/-- The interrupt block (Table 9.18). -/
def State.irqReg (s : State) : Nat :=
  bit s.irq.enable + s.irq.coalesce * 2 ^ 8 + s.irq.holdoffUs * 2 ^ 16 + s.irq.vector * 2 ^ 32 + bit s.irq.pendingLog * 2 ^ 64 +
    bit s.irq.pendingFault * 2 ^ 65

/-- The registers of Table 9.2: offset, size and value. -/
def State.windowRegs (s : State) : List (Nat × Nat × Nat) :=
  [(0x0, 16, s.idReg), (0x10, 8, s.stageReg), (0x18, 8, s.windowReg), (0x40, 8, s.strapReg), (0x3000, 32, s.logReg),
   (0x3100, 16, s.irqReg)]

/-- The register that holds an access wholly, with its size and value. -/
def State.windowReg? (s : State) (off n : Nat) : Option (Nat × Nat × Nat) :=
  s.windowRegs.find? (fun r => decide (r.1 ≤ off ∧ off + n ≤ r.1 + r.2.1))

/-- Whether an access lies within one mailbox slot. -/
def inSlots (off n : Nat) : Bool := decide (0x1000 ≤ off ∧ off + n ≤ 0x3000)

/-- Whether the panel accepts an access (R343). -/
def State.accessOk (s : State) (isWrite : Bool) (off n : Nat) : Bool :=
  decide (n ≠ 0) && off % n == 0 &&
    (if inSlots off n then (if isWrite then [4, 8, 16, 32, 64].contains n else [4, 8].contains n)
     else [4, 8].contains n && (s.windowReg? off n).isSome)

/-- OWN of a mailbox slot: FLAGS[0] at byte 0x03 (Table 9.7). -/
def State.ownBit (s : State) (slot : Nat) : Bool := (tget 0 s.host.slots (slot * 256 + 3)).getLsbD 0

/-! ### Writes -/

/-- LOG_ENABLE_WRITE and any other write of ENABLE (R359, Table 9.14): writing 1 clears LOST, and from 0 to 1 the record count
restarts at zero. -/
def State.setLogEnable (s : State) (v : Bool) : State :=
  { s with log := { s.log with
    enable := v, lost := if v then 0 else s.log.lost, count := if v && !s.log.enable then 0 else s.log.count } }

/-- A register's bytes after a write covers some of them. -/
def patched (val size o : Nat) (bytes : List Byte) : Nat := leNat (patchBytes o bytes (toLE size val))

/-- A write to the completion-log block: LOG_BASE and PROD_ADDR only while ENABLE is 0 (R359). -/
def State.writeLog (s : State) (o : Nat) (bytes : List Byte) : State :=
  let v := patched s.logReg 32 o bytes
  let covers := fun k => decide (o ≤ k ∧ k < o + bytes.length)
  let s1 := if s.log.enable then s
    else { s with log := { s.log with base := bitsOf v 63 12 * 4096, prodAddr := bitsOf v 127 67 * 8 } }
  let s2 := if covers 16 then s1.setLogEnable (v.testBit 128) else s1
  if covers 24 then { s2 with log := { s2.log with cons := BitVec.ofNat 32 (bitsOf v 223 192) } } else s2

/-- A write to the interrupt block (Table 9.18): RW fields take their new value; W1C bits clear where a 1 is written. -/
def State.writeIrq (s : State) (o : Nat) (bytes : List Byte) : State :=
  let v := patched (s.irqReg % 2 ^ 64) 16 o bytes
  { s with irq := { s.irq with
    enable := v.testBit 0, coalesce := bitsOf v 15 8, holdoffUs := bitsOf v 31 16, vector := bitsOf v 47 32,
    pendingLog := s.irq.pendingLog && !v.testBit 64, pendingFault := s.irq.pendingFault && !v.testBit 65 } }

/-- A write to WINDOW_STATUS: a 1 clears each W1C bit (Table 9.5). -/
def State.writeStatus (s : State) (o : Nat) (bytes : List Byte) : State :=
  let v := patched 0 8 o bytes
  { s with host := { s.host with
    ownedWrite := s.host.ownedWrite && !v.testBit 0, badAccess := s.host.badAccess && !v.testBit 1,
    retrained := s.host.retrained && !v.testBit 2 } }

/-- A write to a mailbox slot: discarded with OWNED_WRITE while OWN is 1; setting OWN joins the acceptance order (R346, R347). The starter in
recovery reads slot 0 again each time its first four bytes are rewritten, which it keeps owned (R464). -/
def State.writeSlot (s : State) (off : Nat) (bytes : List Byte) : State :=
  let slot := (off - 0x1000) / 256
  if s.ownBit slot ∧ slot = 0 ∧ off + bytes.length ≤ 0x1004 ∧ s.boot.recovery ∧ s.boot.running.contains (3, 0) then
    let s1 := { s with host := { s.host with slots := writeBytes s.host.slots (off - 0x1000) bytes }, boot := { s.boot with reread := true } }
    if s1.ownBit 0 then s1 else { s1 with host := { s1.host with acceptQ := s1.host.acceptQ.filter (· != 0) } }
  else if s.ownBit slot then { s with host := { s.host with ownedWrite := true } }
  else
    let s1 := { s with host := { s.host with slots := writeBytes s.host.slots (off - 0x1000) bytes } }
    if s1.ownBit slot then { s1 with host := { s1.host with acceptQ := s1.host.acceptQ ++ [slot] } } else s1

/-- An access that R343 refuses: BAD_ACCESS, and a read returns zero. -/
def State.badAccess (s : State) (isWrite : Bool) (n : Nat) : State :=
  { s with host := { s.host with badAccess := true, readData := if isWrite then s.host.readData else List.replicate n 0 } }

/-- What a read returns. -/
def State.windowRead (s : State) (off n : Nat) : List Byte :=
  if inSlots off n then readBytes s.host.slots (off - 0x1000) n
  else
    match s.windowReg? off n with
    | some r => ((toLE r.2.1 r.2.2).drop (off - r.1)).take n
    | none => List.replicate n 0

/-- HOST_WINDOW_WRITE: any other access of the window (R343 to R346); with the link down no access reaches the panel. -/
def execHostWindowWrite (isWrite : Bool) (offset : Nat) (bytes : List Byte) (s : State) : Out :=
  if s.host.linkUp = false then .next s
  else if !s.accessOk isWrite offset bytes.length then .next (s.badAccess isWrite bytes.length)
  else if isWrite then
    if inSlots offset bytes.length then .next (s.writeSlot offset bytes)
    else if 0x3000 ≤ offset ∧ offset < 0x3020 then .next (s.writeLog (offset - 0x3000) bytes)
    else if 0x3100 ≤ offset then .next (s.writeIrq (offset - 0x3100) bytes)
    else if offset / 8 = 3 then .next (s.writeStatus (offset - 0x18) bytes)
    else .next s
  else .next (State.sendHost { s with host := { s.host with readData := s.windowRead offset bytes.length } } (s.windowRead offset bytes.length))

/-- LOG_ENABLE_WRITE (R359). -/
def execLogEnableWrite (value : Bool) (s : State) : Out := if s.host.linkUp then .next (s.setLogEnable value) else .next s

/-- CONS_WRITE (R358). -/
def execConsWrite (value : BitVec 32) (s : State) : Out :=
  if s.host.linkUp then .next { s with log := { s.log with cons := value } } else .next s

/-! ### Records and interrupts -/

/-- Whether the log has room for the next record: k − CONS, modulo 2^32, below 4,096 (R358). -/
def State.logRoom (s : State) : Bool := decide ((s.log.count - s.log.cons).toNat < 4096)

/-- Writes one record and then the producer count to host memory (R357). -/
def State.writeRecord (s : State) (r : Rec) : State :=
  let s1 := s.writeHost (s.log.base + 32 * (s.log.count.toNat % 4096)) (recBytes r)
  s1.writeHost s.log.prodAddr (toLE 8 (s.log.count + 1).toNat)

/-- Writes the first waiting record, once ENABLE is 1, the link up and room exists; a command's record ends its flight (R342, R348,
R357 to R359). -/
def State.writeWaiting (s : State) : State :=
  match s.log.waiting with
  | [] => s
  | r :: rest =>
    if s.log.enable ∧ s.host.linkUp ∧ s.logRoom then
      let s1 := s.writeRecord r
      { s1 with
        log := { s1.log with count := s1.log.count + 1, waiting := rest },
        cmds := { s1.cmds with inflight := s1.cmds.inflight.filter (fun c => c.seq != r.seq) },
        irq := { s1.irq with pendingLog := true, pendingFault := s1.irq.pendingFault || r.fault,
                             unsignalled := s1.irq.unsignalled ++ [(s.now, r.noIrq)], faultDue := s1.irq.faultDue || r.fault } }
    else s

/-- Whether R364 calls for an interrupt message. -/
def State.irqDue (s : State) : Bool :=
  s.irq.enable && (s.irq.faultDue ||
    ((decide (s.irq.unsignalled.length ≥ s.irq.coalesce + 1) ||
        (s.irq.holdoffUs != 0 && (match s.irq.unsignalled with
          | [] => false
          | u :: _ => decide (s.now ≥ u.1 + 1000 * s.irq.holdoffUs)))) &&
      s.irq.unsignalled.any (fun u => !u.2)))

/-- INTERRUPT_MESSAGE: names VECTOR and covers every record written before it, whose frames go first (R341, R364). -/
def execInterruptMessage (s : State) : Out :=
  if s.irqDue ∧ s.host.linkUp then
    .next (State.sendHost { s with irq := { s.irq with sent := s.irq.sent ++ [s.irq.vector], unsignalled := [], faultDue := false } }
      (toLE 2 s.irq.vector))
  else .next s

/-! ### Completing commands -/

/-- NO_IRQ of a command. -/
def Cmd.noIrq (c : Cmd) : Bool := c.flags.testBit 2

/-- Makes a command's completion record (R360): status, SLOT, DETAIL, RESULT and XFER_WORD, with the timebase given. -/
def State.completeAt (s : State) (c : Cmd) (t status slot detail result xferWord flags : Nat) : State :=
  s.pushRec { opcode := c.opcode, tag := c.tag, flags := flags, status := status, slot := slot, detail := detail, timebase := t,
              xferWord := xferWord, result := result, noIrq := c.noIrq, fault := false, seq := c.seq }

/-- A record with no SLOT made now. -/
def State.complete (s : State) (c : Cmd) (status detail result : Nat) : State :=
  s.completeAt c s.now status 0xFFFF detail result 0 0

/-- The command in flight with a tag. -/
def State.cmdOf (s : State) (tag : Nat) : Option Cmd := s.cmds.inflight.find? (fun c => c.tag == tag)

/-- DETAIL of an argument fault in the payload: its offset in the slot, or in the indirect payload with bit 63 set (R361). -/
def Cmd.at (c : Cmd) (o : Nat) : Nat := if c.flags.testBit 1 then o + 2 ^ 63 else 0x20 + o

/-- A payload field of a command. -/
def Cmd.arg (c : Cmd) (o n : Nat) : Nat := field c.payload o n

end Sys2Proof.Machine
end

