-- ==== Sys2Proof/Machine/Settings.lean ====
section
/-! DEFINITION. Settings: staging, proof, commit and read (10 R365 to R383). Each command's run answers the state and whether it still
holds the control lane. -/

namespace Sys2Proof.Machine

/-- Whether Table 10.2 lists a key with an INDEX in its range (R365, R370). -/
def keyDefined (key : Nat) : Bool :=
  let g := bitsOf key 31 24
  let i := bitsOf key 23 16
  let t := bitsOf key 15 0
  let chan := fun base => decide (base + 0x38 ≤ t ∧ t ≤ base + 0x3F)
  match g with
  | 1 => i == 0 && (t == 1 || t == 2)
  | 2 => i == 0 && (t == 1 || t == 2)
  | 3 => (t == 3 && decide (i < 60)) || (i == 0 && (t == 1 || t == 2 || t == 4))
  | 4 => (t == 1 && decide (i < 64)) || (i == 0 && decide (2 ≤ t ∧ t ≤ 8))
  | 5 => (chan 0x100 && decide (i < 24)) || ((chan 0x200 || t == 0x240) && decide (i < 12)) || (chan 0x300 && decide (i < 2))
  | _ => false

/-- The range of a key's values (Table 10.2). -/
def inRange (p : Part) (key v : Nat) : Bool :=
  let t := bitsOf key 15 0
  let between := fun lo hi => decide (lo ≤ v ∧ v ≤ hi)
  match bitsOf key 31 24 with
  | 1 => if t = 1 then between 20000 20000000 else between 256 65536
  | 2 => if t = 1 then between 0 3 else between 0 1
  | 3 => if t = 1 then between 0 2 else if t = 4 then between 0 20000000 else between 3000 24000
  | 4 =>
    if t = 1 then (between 0 7 && portPresent p (bitsOf key 23 16)) || v == 15
    else if t ≤ 5 then between 1 4096
    else if t = 6 then between 0 (2 ^ 32 - 1)
    else if t = 7 then between 0 4095
    else between 100 600
  | _ => between 1 255

/-- Group-wide keys (R382). -/
def groupWide (key : Nat) : Bool := key == keyFrameTicks || key == keyGuardCycles || key == keyEnvelopeStretch

/-- Keys that R72 holds back while a step runs. -/
def deferredKeys : List Nat := [keyFrameTicks, keyGuardCycles, keyProfile, keyClockMode]

/-- The value an entry gives its key (Table 10.1). -/
def State.entryValue (s : State) (e : StagedEntry) : Nat := if e.op = 1 then settingDefault s.straps e.key else e.value

/-- The candidate value of a key: staged, else committed (R374). -/
def State.candidate (s : State) (es : List StagedEntry) (key : Nat) : Nat :=
  match es.find? (fun e => e.key == key) with
  | some e => s.entryValue e
  | none => s.setting key

/-- Entries in ascending key order. -/
def byKey (es : List StagedEntry) : List StagedEntry :=
  es.foldr (fun e acc => (acc.takeWhile (fun x => decide (x.key < e.key))) ++ e :: acc.dropWhile (fun x => decide (x.key < e.key))) []

/-- Whether an entry is defined (R365, R367). -/
def entryDefined (e : StagedEntry) : Bool := keyDefined e.key && decide (e.op ≤ 1) && e.rsv == 0 && (e.op != 1 || e.value == 0)

/-- Table 10.6: the status that role and state give a staged change, 0 when it is allowed. -/
def State.changeStatus (s : State) (e : StagedEntry) : Nat :=
  let v := s.entryValue e
  let t := bitsOf e.key 15 0
  let g4 := bitsOf e.key 31 24 == 4
  if groupWide e.key && s.isWorker then 0x305
  else if g4 && t == 1 && v != 15 && s.straps.role == 2 then 0x304
  else if g4 && decide (t ≤ 7) && s.plan.isSome && v != s.setting e.key then 0x304
  else if g4 && t == 8 && s.plan.isSome && decide (v > s.setting e.key) then 0x304
  else 0

/-- One cross-field rule: whether it holds, and its keys (Table 10.5). -/
structure Rule where
  holds : Bool
  keys : List Nat
deriving DecidableEq, Repr

/-- Sum of candidate values. -/
def State.candSum (s : State) (es : List StagedEntry) (ks : List Nat) : Nat := (ks.map (s.candidate es)).foldl (· + ·) 0

/-- Table 10.5 on a candidate set, in table order. -/
def State.rules (s : State) (es : List StagedEntry) : List Rule :=
  let v := s.candidate es
  let ft := v keyFrameTicks
  let sizes := (List.range 4).map keyGroupSize
  let dimOk := fun d => d == 15 || (let n := v (keyGroupSize (d / 2)); n != 1 && !(n == 2 && d % 2 == 1))
  let prod := (sizes.map v).foldl (· * ·) 1
  let chans := fun n base => (List.range 8).map (fun i => keyArb n (base + i))
  [{ holds := decide (v keyEnvelopeStretch ≤ ft), keys := [keyFrameTicks, keyEnvelopeStretch] },
   { holds := decide (ft * 110 / 100 ≥ v keyGuardCycles + 1), keys := [keyFrameTicks, keyGuardCycles] }] ++
  ((List.range 8).map fun e =>
    let ks := (List.range 8).map (fun i => keyPortDir (8 * e + i))
    let ds := (ks.map v).filter (· != 15)
    { holds := ds.isEmpty || (decide (ds.length ≥ 2) && ds.all (· == ds.headD 15)), keys := ks }) ++
  ((List.range 64).map fun p => { holds := dimOk (v (keyPortDir p)), keys := keyPortDir p :: sizes }) ++
  [{ holds := decide (prod ≤ 4096 ∧ v keyGroupSlot < prod), keys := sizes ++ [keyGroupSlot] },
   { holds := decide (((sizes.map v).map (· / 2)).foldl (· + ·) 0 ≤ 24), keys := sizes }] ++
  ((List.range 24).map fun n => { holds := decide (s.candSum es (chans n 0x138) ≤ 64), keys := chans n 0x138 }) ++
  ((List.range 12).map fun n => { holds := decide (s.candSum es (chans n 0x238 ++ [keyArb n 0x240]) ≤ 32), keys := chans n 0x238 ++ [keyArb n 0x240] }) ++
  ((List.range 2).map fun n => { holds := decide (s.candSum es (chans n 0x338) ≤ 256), keys := chans n 0x338 })

/-- Checks 1 to 4 of Table 10.4: the first failure's status and offending key (R374, R375); key 0 where the rule that fails has no staged key, of which R375 says
nothing (DESIGN CHOICE: log entry 127). -/
def State.proofFails (s : State) (es : List StagedEntry) : Option (Nat × Nat) :=
  let ks := byKey es
  match ks.find? (fun e => !entryDefined e) with
  | some e => some (0x301, e.key)
  | none =>
    match ks.find? (fun e => !inRange s.fuses.part e.key (s.entryValue e)) with
    | some e => some (0x302, e.key)
    | none =>
      match ks.find? (fun e => s.changeStatus e != 0) with
      | some e => some (s.changeStatus e, e.key)
      | none =>
        match (s.rules es).find? (fun r => !r.holds) with
        | some r => some (0x303, ((ks.find? (fun e => r.keys.contains e.key)).map (·.key)).getD 0)
        | none => none

/-- The frame period in force (R49). -/
def State.period (s : State) : Nat := s.frameTicks + s.clock.stretch

/-- The value that a key will have at a tick: that of a pending commit that takes effect by then, else the committed one (R72, R377). -/
def State.valueBy (s : State) (key n : Nat) : Nat :=
  let named := [s.settings.groupCommit, s.settings.pendingCommit].filterMap (fun p => p.bind (fun p =>
    if p.tick ≤ n ∧ !s.isRunning then (p.entries.find? (fun e => e.key == key)).map
      (fun e => if e.op = 1 then settingDefault s.straps key else e.value) else none))
  named.getLastD (s.setting key)

/-- The period of the frame that a coming tick begins, as far as commits and stretch changes named by now decide it (R49, R52). -/
def State.periodFrom (s : State) (n : Nat) : Nat :=
  s.valueBy keyFrameTicks n + min (s.clock.stretchBy n) (s.valueBy keyEnvelopeStretch n)

/-- The first tick at or after a time, counting on from a tick: `fuel` ticks one by one, the rest by the period of the last. -/
def State.countTicks (s : State) (t : Nat) : Nat → Nat → Nat
  | 0, n => if t ≤ n then n else n + (t - n + s.periodFrom n - 1) / s.periodFrom n * s.periodFrom n
  | fuel + 1, n => if t ≤ n then n else s.countTicks t fuel (n + s.periodFrom n)

/-- The first frame tick at or after a time, as the commits and stretch changes named by now place the ticks (R377; log entry 104). What waits for
that tick holds the time itself, so that a later change moves both alike. -/
def State.tickAtOrAfter (s : State) (t : Nat) : Nat :=
  match s.clock.nextTick with
  | none => t
  | some n => s.countTicks t 8 n

/-- E of R377: the earliest time for a commit of a set fixed now. -/
def State.earliestCommit (s : State) (es : List StagedEntry) : Nat :=
  s.now + 2 * (s.frameTicks + s.stretchMax) +
    (if s.isManager && es.any (fun e => groupWide e.key) then 4000 * s.depthH else 0)

/-- The period that a worker outside its group counts the epoch sequence by: the manager's, once its beacons have given it (R402). -/
def State.groupPeriod (s : State) : Nat :=
  match s.group.values with
  | some v => v.frameTicks + v.stretch
  | none => s.period

/-- The next tick of the epoch sequence after a time (R402). -/
def State.epochAfter (s : State) (epoch t : Nat) : Nat :=
  if t < epoch then epoch else epoch + ((t - epoch) / max 1 s.groupPeriod + 1) * max 1 s.groupPeriod

/-- The next tick of the epoch sequence after now. -/
def State.epochTick (s : State) (epoch : Nat) : Nat := s.epochAfter epoch s.now

/-! ### Taking effect (R379, R380) -/

/-- Every port whose committed PORT_DIR is 0xF is DISABLED, with no lane in use and no peer; a port given a direction is DOWN (Tables 8.5 and 8.6). -/
def State.syncPorts (s : State) : State :=
  forEach (List.range 64) (fun p s =>
    let st := (s.port p).state
    if s.portDir p = 15 ∧ st ≠ 0 ∧ st ≠ 5 then s.modPort p (fun q =>
      { q with state := 0, width := 0, peerSlot := 0, peerPort := 0, challenge := none, retryAt := none })
    else if s.portDir p ≠ 15 ∧ st = 0 then s.modPort p (fun q => { q with state := 1 })
    else s) s

/-- A cluster's physical site. -/
def State.clusterSite (s : State) (ci : Nat) : Nat := s.siteOf (ci / 2)

/-- The VCORE zone of a cluster (Table 12.2). -/
def State.clusterZone (s : State) (ci : Nat) : Nat :=
  let p := s.clusterSite ci
  let x := siteCol p
  siteRow p / 3 * 4 + (if x < 3 then 0 else if x < 7 then 1 else if x < 10 then 2 else 3)

/-- Clusters of the presented class. -/
def State.clusters_ (s : State) : List Nat := List.range (24 * gridRows s.units.gridClass)

/-- A cluster's present point in MHz; 0 in P3 (Table 11.7). -/
def State.pointOf (s : State) (ci : Nat) : Nat :=
  if s.power.profile = 3 then 0 else ((s.cluster ci).point).getD (profileNom s.power.profile)

/-- Fused largest current of a cluster at a point, in A (R422). -/
def State.fusedCurrent (s : State) (ci mhz : Nat) : Nat := tget 0 s.fuses.phaseCurrent ((2 * s.clusterSite ci + ci % 2) * 2048 + mhz)

/-- The capped set within a profile: points whose fused current is at most 105 A (R422). -/
def State.cappedPoints (s : State) (ci p : Nat) : List Nat := (profilePoints p).filter (fun m => decide (s.fusedCurrent ci m ≤ 105))

/-- The highest point that a cluster may take: f_nom, or with a phase lost the highest capped point, f_floor where there is none or
R437 keeps it there. -/
def State.highPoint (s : State) (ci : Nat) : Nat :=
  let p := s.power.profile
  if (s.cluster ci).floorOnly then profileFloor p
  else if (s.cluster ci).lost = [] then profileNom p else ((s.cappedPoints ci p).getLast?).getD (profileFloor p)

/-- A cluster has run at a frequency in the present second (Table 11.7). -/
def Cluster.noteMhz (c : Cluster) (f : Nat) : Cluster := { c with minMhz := some (min (c.minMhz.getD f) f) }

/-- Where a cluster starts in the profile in force: f_nom, below it only where its phases, R437 or a warned zone keep it (R403, R422, R431, R437). -/
def State.startPoint (s : State) (ci : Nat) : Nat :=
  if (tget none s.power.zones (s.clusterZone ci)).isSome then profileFloor s.power.profile else s.highPoint ci

/-- Every cluster starts at the f_nom point of a new profile, or as near to it as it may (R403); in P3 clocks are gated. The frequency that it ran at
counts in the second (Table 11.7). -/
def State.enterProfile (s : State) (p : Nat) : State :=
  let s1 := { s with power := { s.power with profile := p, worstProfile := max s.power.worstProfile p } }
  let ran := decide (s.power.profile < 3) && !s.boot.clocksOff
  { s1 with clusters := s1.clusters_.foldl (fun t ci =>
      let c := s1.cluster ci
      let pt := s1.startPoint ci
      tset ({} : Cluster) t ci { (if ran then c.noteMhz (s.pointOf ci) else c) with
        point := if pt = profileNom p then none else some pt, want := none, protective := decide (pt < s1.highPoint ci), heldHot := false, lowered := false }) s1.clusters }

/-- A commit that changes PROFILE: the committed value is in force, and the power controller starts afresh (R430); where it is in force already no cluster's point
changes. During the coolant-loss response it acts from the exit (Table 13.4). -/
def State.commitProfile (s : State) (p : Nat) : State :=
  if s.thermal.active then { s with thermal := { s.thermal with heldProfile := some p } }
  else
    let s1 := { s with power := { s.power with reduction := false, reductionThermal := false, overRun := 0, past := [] } }
    if p = s.power.profile then s1 else s1.enterProfile p

/-- A new GROUP_ID re-forms the group: nobody has joined, no manager is lost, and a worker may step its timebase again (R333, R400). -/
def State.reformGroup (s : State) : State :=
  { s with group := { s.group with
    joined := [], selfJoined := false, beacons := 0, lastBeacon := none, firstBeacon := none, stepped := false, epoch := none, managerLost := false, values := none,
    joining := false, images := [] } }

/-- Every block takes the whole set at once. A committed PROFILE that differs from the last becomes the profile in force; one that restates it changes nothing (R72,
R380, R430). Another GROUP_ID re-forms the group (R333).
Mode 2 marks its minute in the energy report (Table 12.8).
During the coolant-loss response a new CLOCK_MODE acts from the exit (Table 13.4). -/
def State.applySettings (s : State) (es : List StagedEntry) : State :=
  let s1 := forEach es (fun e s => { s with settings := { s.settings with
    committed := tset (settingDefault s.straps e.key) s.settings.committed e.key (s.entryValue e), proofed := false } }) s
  let s0 := if s.thermal.active && s.thermal.heldMode.isNone then { s1 with thermal := { s1.thermal with heldMode := some (s.setting keyClockMode) } } else s1
  let s2 := if s0.setting keyProfile ≠ s.setting keyProfile then s0.commitProfile (s0.setting keyProfile) else s0
  let s3 := if s2.setting keyGroupId ≠ s.setting keyGroupId then s2.reformGroup else s2
  let s4 := if s3.setting keyEnvelopeMode = 2 then { s3 with power := { s3.power with minuteFlags := s3.power.minuteFlags ||| 4 } } else s3
  if es.any (fun e => bitsOf e.key 31 24 == 4) then s4.syncPorts else s4

/-! ### Commands -/

/-- STAGE's entries read from host memory (R367). -/
def State.readEntries (s : State) (a n : Nat) : List StagedEntry :=
  (List.range n).map fun i =>
    let o := a + 16 * i
    { key := readLE s.hostMem o 4, op := readLE s.hostMem (o + 4) 1, rsv := readLE s.hostMem (o + 5) 3, value := readLE s.hostMem (o + 8) 8 }

/-- Adds an entry, replacing one of the same key in place (R372). -/
def stageEntry (es : List StagedEntry) (e : StagedEntry) : List StagedEntry :=
  if es.any (fun x => x.key == e.key) then es.map (fun x => if x.key = e.key then e else x) else es ++ [e]

/-- STAGE (R372): more than 4,096 keys has no effect at all, and a set that stays as it was keeps its proof (R377). A misaligned HOST_ADDR is named
before a reserved bit (DESIGN CHOICE: R353 gives no order; log entry 105). -/
def runStage (c : Cmd) (s : State) : State :=
  if c.arg 0 8 % 64 ≠ 0 then s.complete c 0x10A (c.at 0) 0
  else if bitsOf (c.arg 12 4) 31 1 ≠ 0 then s.complete c 0x102 (c.at 12) 0
  else
    let base := if (c.arg 12 4).testBit 0 then [] else s.settings.staged
    let es := (s.readEntries (c.arg 0 8) (c.arg 8 4)).foldl stageEntry base
    if es.length > 4096 then s.complete c 0x108 (c.at 8) s.settings.staged.length
    else State.complete { s with settings := { s.settings with
      staged := es, proofed := s.settings.proofed && es == s.settings.staged } } c 0 0 es.length

/-- PROOF (R374, Table 10.7). -/
def runProof (c : Cmd) (s : State) : State :=
  if s.settings.staged = [] then s.complete c 0 0 0
  else
    match s.proofFails s.settings.staged with
    | some f => s.complete c f.1 f.2 0
    | none => State.complete { s with settings := { s.settings with proofed := true } } c 0 0 0

/-- Whether a commit would change one of R72's keys from its committed value. -/
def State.changesDeferred (s : State) (es : List StagedEntry) : Bool :=
  es.any (fun e => deferredKeys.contains e.key && s.entryValue e != s.setting e.key)

/-- COMMIT once it may run (R377, R378, R539): fixes the tick, the first at or after the later of TICK and E, and moves the staged set, or applies it
at once before the first tick. -/
def runCommit (c : Cmd) (s : State) : State :=
  let es := s.settings.staged
  if es = [] then s.complete c 0 0 0
  else
    match (if s.settings.proofed then none else s.proofFails es) with
    | some f => s.complete c f.1 f.2 0
    | none =>
      if s.boot.firstTick = false then
        State.complete ({ s with settings := { s.settings with staged := [], proofed := false } }.applySettings es) c 0 0 0
      else
        let e := s.earliestCommit es
        let tick := c.arg 0 8
        if tick ≠ 0 ∧ tick < e then s.complete c 0x306 (s.tickAtOrAfter e) 0
        else
          let from_ := max tick e
          let s1 := { s with settings := { s.settings with
            staged := [], proofed := false, pendingCommit := some { entries := es, tick := from_, tag := some c.tag } } }
          if s.isManager && es.any (fun e => groupWide e.key) then
            s1.send (.commit ((es.filter (fun e => groupWide e.key)).map (fun e => (e.key, s.entryValue e))) from_ (s.changesDeferred es))
          else s1

/-- READ: the committed value in DETAIL; a reserved key is a reserved encoding (R381, Table 10.7). -/
def runRead (c : Cmd) (s : State) : State :=
  if c.arg 8 8 % 64 ≠ 0 then s.complete c 0x10A (c.at 8) 0
  else if c.arg 4 4 ≠ 0 then s.complete c 0x102 (c.at 4) 0
  else if !keyDefined (c.arg 0 4) then s.complete c 0x102 (c.at 0) 0
  else s.complete c 0 (s.setting (c.arg 0 4)) 8

/-- Whether the group's step has not left RUNNING before this tick. -/
def State.groupLive (s : State) : Bool := s.group.live || decide (s.now ≤ s.group.leftAt)

/-- Whether a set must wait whole: it changes a key of R72 here or, where the manager sends it, in the manager's own set, and the step runs here or, for
group-wide keys, the group's step has not left RUNNING before this tick (R72, R382; log entry 104). -/
def State.deferCommit (s : State) (p : PendingCommit) : Bool :=
  (if p.tag.isNone then p.waits else s.changesDeferred p.entries) &&
    (s.isRunning || (p.entries.any (fun e => groupWide e.key) && s.groupLive))

/-- The manager's group-wide values that stand, sent to the group after a set of its own has failed at its tick: the workers, which cannot know it, took the set's
values, and take these at their next tick, so that the group holds one value again (R379, R382; DESIGN CHOICE: the spec does not say how the workers learn of it;
log entry 129). -/
def State.recallCommit (s : State) (p : PendingCommit) : State :=
  let ks := (p.entries.filter (fun e => groupWide e.key)).map (·.key)
  if s.isManager ∧ p.tag.isSome ∧ ks ≠ [] then s.send (.commit (ks.map (fun k => (k, s.setting k))) s.now false) else s

/-- A pending commit at the first frame tick at or after its time (R72, R379): deferred while a step runs, proofed once more, applied or discarded. A
manager's set has been proofed by the manager and no other key bears on it (R382). -/
def State.commitOne (s : State) (p : PendingCommit) : Option State :=
  if s.now < p.tick ∨ s.deferCommit p then none
  else
    let done := fun (s : State) status detail => match p.tag.bind s.cmdOf with
      | none => s
      | some c => s.complete c status detail 0
    match (if p.tag.isNone then none else s.proofFails p.entries) with
    | some f => some (done (s.recallCommit p) f.1 f.2)
    | none => some (done (s.applySettings p.entries) 0 0)

/-- A worker that has joined takes the manager's committed values and stretch at its next tick (R382). -/
def State.joinAtTick (s : State) : State :=
  match s.group.joining, s.group.values with
  | true, some v =>
    let s1 := s.applySettings [{ key := keyFrameTicks, op := 0, rsv := 0, value := v.frameTicks },
      { key := keyGuardCycles, op := 0, rsv := 0, value := v.guardCycles },
      { key := keyEnvelopeStretch, op := 0, rsv := 0, value := v.envelopeStretch }]
    { s1 with group := { s1.group with joining := false }, clock := { s1.clock with stretch := v.stretch } }
  | _, _ => s

/-- The manager's values once its commit has taken effect here, so that an older beacon brings no older value back (R52, R382). -/
def State.noteValues (s : State) : State :=
  { s with group := { s.group with
    values := s.group.values.map (fun v =>
      { v with frameTicks := s.frameTicks, guardCycles := s.guardCycles, envelopeStretch := s.setting keyEnvelopeStretch }),
    valuesAt := s.now } }

/-- The pending commits at a frame tick: the values of a group just joined, the manager's commit, then this panel's own. -/
def State.commitAtTick (s : State) : State :=
  let s0 := s.joinAtTick
  let s1 := match s0.settings.groupCommit.bind s0.commitOne with
    | none => s0
    | some t => State.noteValues { t with settings := { t.settings with groupCommit := none } }
  match s1.settings.pendingCommit.bind s1.commitOne with
  | none => s1
  | some t => { t with settings := { t.settings with pendingCommit := none } }

end Sys2Proof.Machine
end

