-- ==== Sys2Proof/Machine/Map.lean ====
section
/-! DEFINITION. Retirement of units and the physical-to-logical map (01 R29 to R32, 10 R384 to R387, 14 R473, 15 R484). -/

namespace Sys2Proof.Machine

/-- A physical-to-logical map: grid class, retired column of each row, physical row of each logical row. -/
structure GridMap where
  grid : Nat
  cols : Tab Nat
  rows : List Nat
deriving DecidableEq, Repr

/-- The unrepairable rows. -/
def State.badRowList (s : State) (derated : Bool) : List Nat := (List.range 12).filter (s.rowBad derated)

/-- The map that the unit state table gives (R29, R30, Table 0.3). -/
def State.formMap (s : State) (derated : Bool) : GridMap :=
  let bad := s.badRowList derated
  let good := (List.range 12).filter (fun r => !bad.contains r)
  let cols := (List.range 12).foldl (fun t r => tset 13 t r ((s.goneCols derated r).headD 13)) []
  if s.boot.noGrid ∨ s.hubCut ∨ bad.length ≥ 3 then { grid := 0, cols := cols, rows := [] }
  else if s.fuses.part = .gn2000 ∨ bad ≠ [] then { grid := 120, cols := cols, rows := good.take 10 }
  else { grid := 144, cols := cols, rows := List.range 12 }

/-- The table of a map's registers. -/
def State.withMap (s : State) (m : GridMap) : State :=
  { s with units := { s.units with gridClass := m.grid, mapCols := m.cols, mapRows := m.rows } }

/-- Entries of a table by cluster index, moved with their sites. -/
def moveClusters [DecidableEq α] (dflt : α) (mv : Nat → Option Nat) (t : Tab α) : Tab α :=
  t.foldl (fun acc e => if e.1 ≥ 288 then tset dflt acc e.1 e.2 else match mv (e.1 / 2) with
    | some d => tset dflt acc (2 * d + e.1 % 2) e.2
    | none => acc) []

/-- The panel address of a row-memory byte after its die's index has moved. -/
def moveAddr (mv : Nat → Option Nat) (a : Nat) : Option Nat :=
  if a ≥ 2 * 2 ^ 44 then some a else (mv (bitsOf a 43 36)).map (fun d => a - bitsOf a 43 36 * 2 ^ 36 + d * 2 ^ 36)

/-- What the table's retired phases and sensors leave with the clusters and pairs of the logical dies: a lost phase caps its cluster (Table 12.6), a sensor leaves its
pair in sensor fault (Table 15.3, R436; DEDUCED, log entry 128). -/
def State.noteLost (s : State) : State :=
  forEach (s.units.table.filter (fun e => e.2.state == 2)) (fun (e : Nat × UnitEntry) s =>
    if unitKind e.1 = 9 ∧ (unitSub e.1).testBit 4 = false then
      match s.dieAt (unitSite e.1) with
      | some d => s.modCluster (2 * d + bitsOf e.1 3 3) (fun c =>
          if c.lost.contains (bitsOf e.1 2 0) then c else { c with lost := c.lost ++ [bitsOf e.1 2 0] })
      | none => s
    else if unitKind e.1 = 10 then
      match s.pairOfUnit e.1 with
      | some k => if (s.pair k).fault then s else s.setPair k (s.pair k).inFault
      | none => s
    else s) s

/-- Puts a map in force; the router modes of Table 7.1 follow from it (R32). What a site holds moves with the site to the logical die that it
now is: row memories, cluster state and sensors; phases lost at a site that joins the grid count there. -/
def State.applyMap (s : State) (m : GridMap) : State :=
  if m = { grid := s.units.gridClass, cols := s.units.mapCols, rows := s.units.mapRows } then s
  else
    let t := s.withMap m
    let mv := fun d => t.dieAt (s.siteOf d)
    let t1 := { t with
      mem := t.mem.foldl (fun (acc : List Host.Cell) (e : Host.Cell) => match moveAddr mv e.1 with | some a => tset 0 acc a e.2 | none => acc) [],
      poison := t.poison.foldl (fun (acc : List Nat) (a : Nat) => match moveAddr mv a with | some b => insertNat b acc | none => acc) [],
      clusters := moveClusters {} mv t.clusters,
      thermal := { t.thermal with pairs := t.thermal.pairs.foldl (fun (acc : Tab Pair) (e : Nat × Pair) =>
        if 288 ≤ e.1 ∧ e.1 < 0x200 then tset {} acc e.1 e.2
        else tset {} acc (t.pairKey (s.pairPlace e.1).1 (s.pairPlace e.1).2) e.2) [] } }
    t1.noteLost

/-- Discards the loaded plan: the step state becomes NO_PLAN at once, or when the running step has stopped (R32, R235). The alias
table stays (R77), and a flip already fixed still happens (R69). A worker tells its manager, which then refuses a step (R65). -/
def State.discardPlan (s : State) : State :=
  let s1 := { s with plan := none,
                     step := if s.isRunning then s.step else { s.step with state := .noPlan } }
  if s.isWorker && s.plan.isSome then s1.send (.planLost s.groupSlot) else s1

/-- The step state as host software and the command checks see it: NO_PLAN once the plan is discarded (R32, R235). -/
def State.shownState (s : State) : StepState := if s.plan.isNone then .noPlan else s.step.state

/-- What a retirement takes out of service with a unit (R461, Table 15.3). -/
def withContained (u : Nat) : List Nat :=
  match unitKind u with
  | 3 =>
    let n := unitSite u
    [u, unitId 5 (2 * n) 0, unitId 5 (2 * n + 1) 0] ++
      (match ioEngine n with
       | some e => (List.range 8).map (fun i => unitId 6 (8 * e + i) 0)
       | none => [])
  | 8 => u :: (List.range 8).map (fun i => unitId 6 (8 * unitSite u + i) 0)
  | 5 => if unitSub u ≥ 0x100 then [u, unitId 5 (unitSite u) 0] else [u]
  | 7 => if bitsOf u 19 18 = 1 then [u, unitId 6 (unitSite u) 0] else [u]
  | _ => [u]

/-- A port's state changes: event 0xE006, a fault event when it leaves ACTIVE; in a group the running step then fails (R334, R363). -/
def State.portState (s : State) (p st : Nat) : State :=
  let q := s.port p
  if q.state = st then s
  else
    let s1 := (s.modPort p (fun q => { q with state := st })).event 0xE006 (p + st * 256) (q.state == 4)
    if q.state = 4 ∧ s.groupCount > 1 then s1.failWith { unit := unitId 6 p 0, code := 0x405, cls := 1, reporter := ioPlace (engineIo (p / 8)) } 0 else s1

/-- The time from which a die is DERATED, one ns on so that none reads as never (R423). -/
def deratedTime (t : Tab Nat) (u st now : Nat) : Tab Nat :=
  if unitKind u = 2 ∧ unitSub u = 0 then tset 0 t (unitSite u) (if st = 1 then now + 1 else 0) else t

/-- Sets a unit's state in the table: a retired or absent unit stays so, and every change raises event 0xE002 (R384, R386, R387). A die's 24 h begin as it becomes
DERATED (R423). -/
def State.setUnit (s : State) (u st source : Nat) : State :=
  let e := s.unitEntry u
  if e.state = 2 ∨ e.state = 3 ∨ e.state = st ∨ (e.state = 4 ∧ st = 1) then s
  else
    let s1 := { s with units := { s.units with
      table := tset {} s.units.table u { state := st, source := source, since := s.now },
      version := s.units.version + 1, versionTick := s.now, deratedAt := deratedTime s.units.deratedAt u st s.now } }
    let s2 := s1.event 0xE002 u false
    if unitKind u = 6 ∧ unitSite u < 64 ∧ st = 2 then (s2.portState (unitSite u) 5).modPort (unitSite u) (fun p => { p with width := 0 }) else s2

/-- Whether the running step uses a unit: a die of the logical grid, a stack that holds a region or side of the plan, or an I/O die
that a route ends at or whose stack the plan uses (R386). -/
def State.stepUses (s : State) (u : Nat) : Bool :=
  match s.plan with
  | none => false
  | some p =>
    let inStack := fun k =>
      p.regions.any (fun r => [some r.base, r.sideB].any (fun b => match b with
        | some b => (List.range ((r.len + stackBytes s.fuses.part - 1) / stackBytes s.fuses.part + 1)).any (fun i =>
            stackOf s.fuses.part (min (b + i * stackBytes s.fuses.part) (b + r.len - 1)) == some k)
        | none => false))
    match unitKind u with
    | 0 => (s.dieAt (unitSite u)).isSome
    | 1 => (s.dieAt (unitSite u)).isSome
    | 2 => if unitSub u = 1 then s.selectedRows.contains (siteRow (unitSite u)) else (s.dieAt (unitSite u)).isSome
    | 3 => p.routes.any (fun r => r.src == ioPlace (unitSite u) || r.dst == ioPlace (unitSite u)) ||
        inStack (2 * unitSite u) || inStack (2 * unitSite u + 1)
    | 5 => inStack (unitSite u)
    | _ => false

/-- The step that uses a unit fails with 0x040B, with a record of the retirement (R386, R487, Table 15.6). -/
def State.failUser (s : State) (u : Nat) : State :=
  if s.stepUses u then s.failWith { unit := u, code := 0x40B, cls := 1, flags := flRetired } u else s

/-! ### Lanes and bypass paths (R292, R470, Table 14.5) -/

/-- Whether a unit is a fabric lane, or a link's whole plane (Table 15.2). -/
def fabricLane (u : Nat) : Bool := unitKind u == 7 && bitsOf u 19 18 == 2

/-- Whether a unit is a lane with spares: one of the fabric, or of a hub link (R292, Table 14.5). -/
def sparedLane (u : Nat) : Bool := fabricLane u || (unitKind u == 7 && bitsOf u 19 18 == 3 && unitSite u != 0)

/-- Lanes that a link's plane and direction has spent: each that the ledger, the fuses or the table names, once (R469, Table 14.5). -/
def State.lanesSpent (s : State) (u : Nat) : Nat :=
  let told := (s.units.ledger.entries.filter (fun e => e.action == 0 || e.action == 2)).map (·.unit) ++ s.fuses.retired ++
    (s.fuses.repairs.filter (fun r => r.2.1 == 2)).map (·.1) ++ (s.units.table.filter (fun e => e.2.state == 2)).map (·.1)
  ((told.filter (fun v => sparedLane v && v / 2 ^ 11 == u / 2 ^ 11 && decide (bitsOf v 10 0 ≠ 0x7FF))).foldl (fun l v => insertNat v l) []).length

/-- Whether the loss of a unit is one that no spare repairs: a third lane of a plane and direction, a whole plane, or a bypass path. -/
def State.unspared (s : State) (u : Nat) : Bool :=
  (sparedLane u && (bitsOf u 10 0 == 0x7FF || decide (2 < s.lanesSpent u))) || (unitKind u == 2 && unitSub u == 3)

/-- A unit leaves service between frame ticks: marked, unused from now on, the table following at the next tick (R384, R386). -/
def State.markAtOnce (s : State) (us : List Nat) (source : Nat) : State :=
  { s with units := { s.units with
    marks := us.foldl (fun m v => insertNat v m) s.units.marks,
    atOnce := us.foldl (fun m v => insertNat v m) s.units.atOnce,
    due := s.units.due ++ us.map (fun v => (v, 2, source)) } }

/-- What such a loss does: a horizontal link or one to an E or W I/O die makes its row unrepairable; a vertical link, one to an N or S I/O die
or a bypass path leaves no grid class; a link of the hub is retired, and its traffic takes the other (R461). `atTick` says that the loss is taken at a frame tick, or
before the first; else the link's retirement shows from the next tick (R386). -/
def State.spareLost (s : State) (atTick : Bool) (u : Nat) : State :=
  if unitKind u = 7 ∧ fabricLane u = false then
    let plane := u / 2 ^ 11 * 2 ^ 11 + 0x7FF
    if atTick then s.setUnit plane 2 4 else if s.retired plane || s.units.atOnce.contains plane then s else s.markAtOnce [plane] 4
  else if fabricLane u ∧ 3 ≤ bitsOf u 17 15 then
    { s with units := { s.units with badRows := insertNat (siteRow (unitSite u)) s.units.badRows } }
  else { s with boot := { s.boot with noGrid := true } }

/-- A cluster after a reset: its counts start afresh; what its supply and the controllers hold stays (Table 14.6). -/
def Cluster.afterReset (c : Cluster) : Cluster :=
  { c with minMhz := none, deferrals := 0, droops := 0, holds := 0, shown := (0, 0, 0, 0) }

/-- The die reset of a retired site, `d` its logical die: its clusters and cores, the data path of its agent, and its row memories' contents (R235, R474, Table 14.6; log
entry 4). Its router's mode and its clock forwarding stay, and what still comes for it waits at its local port (R477). -/
def State.resetDie (s : State) (d : Nat) : State :=
  let inDie := fun (m : Nat) => if m < 0x80000000 then m / 16 == d else (m - 0x80000000) / 2 == d
  let gone := fun a => decide (a < 2 * 2 ^ 44 ∧ bitsOf a 43 36 = d)
  let site := s.siteOf d
  let s1 := { s with
    mem := s.mem.filter (fun e => !gone e.1), poison := s.poison.filter (fun a => !gone a),
    cores := s.cores.filter (fun e => e.1 / 16 != d), agents := terase site s.agents,
    fabric := { s.fabric with
      arrived := s.fabric.arrived.filter (fun e => !inDie e.1), incs := s.fabric.incs.filter (fun n => n.core / 16 != d),
      reds := s.fabric.reds.filter (fun e => e.1 / 524288 != d), served := s.fabric.served.filter (fun e => !inDie e.1),
      landedAt := s.fabric.landedAt.filter (fun e => !inDie (e.1 / 32)), reads := s.fabric.reads.filter (fun e => !inDie e.1) } }
  forEach [2 * d, 2 * d + 1] (fun ci s => s.modCluster ci Cluster.afterReset) s1

/-- The die reset that a unit's retirement brings. -/
def State.dieReset (s : State) (u : Nat) : State :=
  match s.dieAt (unitSite u) with
  | some d => if siteUnit u then s.resetDie d else s
  | none => s

/-! ### Halts (Table 14.2, R461, R462) -/

/-- A halt of a stage: no further stage runs. Halt A stops the hub; in Halt B Tolni runs and accepts commands, and the panel presents no grid class (log entry 33). -/
def State.halt (s : State) (code unit : Nat) (a : Bool) : State :=
  let s1 := { s with boot := { s.boot with
    halt := some code, haltUnit := unit, haltA := a, running := [], tolniReady := !a, ready := false, noGrid := true } }
  (s1.applyMap (s1.formMap false)).discardPlan

/-- Halt B once the hub has lost both its links to the crumb and the crust (R461); a loss after READY belongs to no stage, and shows as 0x20 (DESIGN CHOICE: log
entry 33). -/
def State.haltIfCut (s : State) (code unit : Nat) : State :=
  if s.hubCut && s.boot.halt.isNone then
    let s1 := s.halt code unit false
    { s1 with boot := { s1.boot with shown := (code, if 0x20 ≤ code ∧ code ≤ 0x26 then 3 else 4, unit, 2) } }
  else s

/-- After units were withdrawn in operation, `us`: a lane without a spare counts by Table 14.5; a row that became unrepairable, or what now leaves no grid class,
changes the map at once and discards the plan; the die reset of a logical die's site loses its rows and discards the plan (R32, R235, Table 1.3). `bad` are the
unrepairable rows before. -/
def State.settleMap (s0 : State) (atTick : Bool) (bad : List Nat) (us : List Nat) : State :=
  let s := forEach us (fun u s => s.dieReset u) (forEach (us.filter s0.unspared) (fun u s => s.spareLost atTick u) s0)
  if s.hubCut then s.haltIfCut 0x20 0
  else if s.badRowList false ≠ bad ∨ (s.boot.noGrid ∧ s0.boot.noGrid = false ∧ s.units.gridClass ≠ 0) then (s.applyMap (s.formMap false)).discardPlan
  else if us.any (fun u => siteUnit u && (s.dieAt (unitSite u)).isSome) then s.discardPlan
  else s

/-! ### Marks of the data path (R385, R387) -/

/-- Whether a unit is one that Table 15.3 never retires: hub logic, reference input, flash and converters. -/
def neverRetired (u : Nat) : Bool := unitKind u == 4

/-- The DISAGREE record of a mark (Table 15.5): code of the mark, unit id of the reporter. -/
def State.disagree (s : State) (unit code reporter : Nat) : State :=
  s.addError { unit := unit, code := 0x1060, cls := 1, location := code, aux := reporter,
               reporter := match unitKind reporter with
                 | 3 => ioPlace (unitSite reporter)
                 | 4 => hubPlace
                 | _ => (s.dieAt (unitSite reporter)).getD (0x300 + unitSite reporter) }

/-- A mark of the data path: it takes effect at once, and what is bound for the unit is poisoned; a unit that the table holds usable becomes SUSPECT with a
DISAGREE record. Hub logic is not retired: the panel presents no grid class until the next start (R385, R387, Table 15.3). -/
def State.markUnit (s : State) (unit code reporter : Nat) : State :=
  let st := (s.unitEntry unit).state
  if st = 2 ∨ st = 3 then s
  else
    let s1 := State.poisonBound { s with units := { s.units with marks := insertNat unit s.units.marks } }
    let s2 := s1.disagree unit code reporter
    if unit = hubUnit then
      let s3 := { s2 with boot := { s2.boot with noGrid := true } }
      (s3.applyMap (s3.formMap false)).discardPlan
    else if neverRetired unit ∨ st = 4 then s2
    else
      let s3 := s2.setUnit unit 4 3
      { s3 with units := { s3.units with suspects := s3.units.suspects ++ [(unit, s.now, none)] } }

/-! ### Retirement (R386) -/

/-- The ledger entry of a permanent fault found in operation: a unit retired, a fabric lane, or a die derated (R468, Table 14.4). -/
def State.ledgerEntry (s : State) (u st source : Nat) : State :=
  if fabricLane u ∧ bitsOf u 10 0 ≠ 0x7FF then s.addLedger u 2 source (u % 2 ^ 16)
  else s.addLedger u (if st = 1 then 5 else 0) source 0

/-- Withdraws units at a frame tick (R386), each with what it takes out of service. -/
def State.withdraw (s : State) (u source : Nat) : State :=
  let bad := s.badRowList false
  let us := withContained u
  let s0 := if s.retired u || s.units.atOnce.contains u then s else s.ledgerEntry u 2 source
  let s1 := forEach us (fun v s => (s.failUser v).setUnit v 2 source) s0
  s1.settleMap true bad us

/-- Retires a unit at once: marked, unused from now on, the table following at the next tick (R386). -/
def State.retireAtOnce (s : State) (u source : Nat) : State :=
  let bad := s.badRowList false
  let us := withContained u
  State.settleMap ((forEach us (fun v s => s.failUser v) (s.ledgerEntry u 2 source)).markAtOnce us source) false bad us

/-- The unit changes due at a frame tick (R386). -/
def State.dueChanges (s : State) : State :=
  let s1 := { s with units := { s.units with due := [] } }
  let s2 := forEach s.units.due (fun d s => if d.2.1 = 2 then s.withdraw d.1 d.2.2
    else (if d.2.1 = 1 ∧ (s.unitEntry d.1).state = 0 then s.ledgerEntry d.1 1 d.2.2 else s).setUnit d.1 d.2.1 d.2.2) s1
  { s2 with units := { s2.units with atOnce := [] } }

/-- Enabled Zhenlink ports (R306). -/
def State.enabledPorts (s : State) : List Nat := (List.range 64).filter s.portEnabled

end Sys2Proof.Machine
end

