-- ==== Sys2Proof/Machine/PlanImage.lean ====
section
/-! DEFINITION. The plan image and the checks of Table 2.11 (02 R79 to R85, R541; 07 R296). Where several fields of one check offend,
DETAIL names the one of the lowest offset; of two records that clash, the later one (log entry 20). -/

namespace Sys2Proof.Machine

/-- A plan image as bytes. -/
abbrev Img := List Byte

/-- The lowest of a list of offending offsets, as a failing status with the DETAIL of R361. -/
def failAt (status : Nat) (bad : List Nat) : Option (Nat × Nat) :=
  match bad with
  | [] => none
  | b :: bs => some (status, 2 ^ 62 + bs.foldl min b)

/-- Offsets of the bytes in a range that are not zero. -/
def nonZero (img : Img) (lo hi : Nat) : List Nat :=
  (((img.drop lo).take (hi - lo)).zip (List.range (hi - lo))).filterMap (fun b => if b.1 = 0 then none else some (lo + b.2))

/-- DIGEST_OFFSET and the section directory's place. -/
def digestOff (img : Img) : Nat := field img 8 8
def dirOff (img : Img) : Nat := field img 0x60 8
/-- SIGNED. -/
def isSigned (img : Img) : Bool := (field img 0x18 4).testBit 0

/-- One directory entry with its own offset (R81). -/
structure Sect where
  at_ : Nat
  typ : Nat
  count : Nat
  off : Nat
  len : Nat
deriving DecidableEq, Repr

/-- The SECTION_COUNT directory entries, as far as they lie below the digest (R79, R81; log entry 21). -/
def sections (img : Img) : List Sect :=
  let n := min (field img 0x1C 4) ((digestOff img - dirOff img) / 32)
  (List.range n).map fun i =>
    let o := dirOff img + 32 * i
    { at_ := o, typ := field img o 2, count := field img (o + 4) 4, off := field img (o + 8) 8, len := field img (o + 16) 8 }

/-- Record size of a section type (Table 2.9). -/
def recSize (t : Nat) : Nat := match t with | 1 => 4 | 2 => 16 | 3 => 32 | 4 => 16 | 5 => 16 | 6 => 8 | 7 => 16 | 8 => 32 | 9 => 16 | _ => 1

/-- The section of a type. -/
def sectOf (ss : List Sect) (t : Nat) : Option Sect := ss.find? (fun e => e.typ == t)

/-- A record with its offset in the image. -/
structure PRec where
  at_ : Nat
  bytes : List Byte
deriving DecidableEq, Repr

/-- A field of a record. -/
def PRec.f (r : PRec) (o n : Nat) : Nat := field r.bytes o n

/-- The records of a section type. -/
def records (img : Img) (ss : List Sect) (t : Nat) : List PRec :=
  match sectOf ss t with
  | none => []
  | some e =>
    ((chunksOf (recSize t) (e.count + 1) ((img.drop e.off).take e.len)).zip (List.range e.count)).map fun c =>
      { at_ := e.off + recSize t * c.2, bytes := c.1 }

/-- Bytes of a record that Table 2.10 does not assign: from, to. -/
def unassignedBytes (t : Nat) : List (Nat × Nat) :=
  match t with
  | 3 => [(12, 16), (24, 32)]
  | 4 => [(12, 16)]
  | 5 => [(9, 16)]
  | 6 => [(6, 8)]
  | 7 => [(10, 16)]
  | 8 => [(3, 8), (24, 32)]
  | 9 => [(2, 8)]
  | _ => []

/-! ### Checks 3 to 10 -/

/-- Check 3: MAGIC, FORMAT_VERSION, HEADER_SIZE, DIGEST_OFFSET and IMAGE_SIZE. -/
def check3 (img : Img) : Option (Nat × Nat) :=
  let d := digestOff img
  failAt 0x101 <|
    (if field img 0 4 ≠ 0x4E4C5047 then [0] else []) ++ (if field img 4 2 ≠ 1 then [4] else []) ++
    (if field img 6 2 ≠ 0x100 then [6] else []) ++ (if d % 16 ≠ 0 ∨ d < 0x100 then [8] else []) ++
    (if field img 0x10 8 ≠ img.length ∨ field img 0x10 8 ≠ d + 64 + (if isSigned img then 3376 else 0) then [0x10] else [])

/-- Check 4: the digest (R84). -/
def check4 (img : Img) : Option (Nat × Nat) :=
  if digest64 (img.take (digestOff img)) = (img.drop (digestOff img)).take 64 then none else some (0x501, 0)

/-- The keys that may sign plans: OWNER_KEY and every present PLAN_KEY (R510). -/
def Policy.planSigners (p : Policy) : List (List Byte) := p.owner.toList ++ p.planKeys.map (·.2)

/-- Checks 5 and 6. -/
def State.check56 (s : State) (img : Img) : Option (Nat × Nat) :=
  if !isSigned img then (if s.security.policy.signedOnly then some (0x502, 0) else none)
  else
    let d := (img.drop (digestOff img)).take 64
    let b := (img.drop (digestOff img + 64)).take 3376
    if s.security.policy.planSigners.any (fun k => blockOk k d b) then none else some (0x503, 0)

/-- Check 7: reserved encodings and bytes of the header and the directory entries (R80, R81, R541). -/
def check7 (img : Img) : Option (Nat × Nat) :=
  let g := field img 0x30 2
  let f := field img 0x34 2
  failAt 0x102 <|
    (if field img 0x18 4 ≥ 2 then [0x18] else []) ++ (if g = 144 ∨ g = 120 then [] else [0x30]) ++
    (if f = 1450 ∨ f = 1280 ∨ f = 1100 then [] else [0x34]) ++ nonZero img 0x68 0x100 ++
    (sections img).flatMap fun e =>
      (if 1 ≤ e.typ ∧ e.typ ≤ 10 then [] else [e.at_]) ++ nonZero img (e.at_ + 2) (e.at_ + 4) ++ nonZero img (e.at_ + 24) (e.at_ + 32)

/-- Check 8: FRAMES_PER_STEP is the header's sizing field (R82). -/
def check8 (img : Img) : Option (Nat × Nat) := failAt 0x103 (if field img 0x48 4 = 0 then [0x48] else [])

/-- Cores of the class that the image declares (Table 2.9). -/
def imgCores (img : Img) : Nat := if field img 0x30 2 = 144 then 2304 else 1920

/-- Whether two byte ranges meet. -/
def meets (a b : Nat × Nat) : Bool := decide (a.1 < b.1 + b.2) && decide (b.1 < a.1 + a.2) && decide (a.2 ≠ 0) && decide (b.2 ≠ 0)

/-- Offending fields among ranges given with their field offsets, in order: the later of each pair that meets. -/
def overlaps : List (Nat × Nat × Nat) → List Nat
  | [] => []
  | x :: xs => (xs.filter (fun y => meets (x.2.1, x.2.2) (y.2.1, y.2.2))).map (fun y => max x.1 y.1) ++ overlaps xs

/-- Check 9: the directory and the sections (R79, R81, Table 2.9). -/
def check9 (img : Img) : Option (Nat × Nat) :=
  let ss := sections img
  let d := digestOff img
  let n := imgCores img
  let sc := field img 0x1C 4
  let dirBad := dirOff img < 0x100 ∨ dirOff img + 32 * sc > d
  let aliased := ((records img ss 8).filter (fun r => r.f 2 1 == 4)).length
  let countBad : Sect → Bool := fun e =>
    match e.typ with
    | 1 => e.count != field img 0x48 4 * n
    | 2 => e.count == 0 || decide (e.count > n)
    | 9 => e.count != aliased
    | _ => false
  let typs := ss.map (·.typ)
  if sc < 3 ∨ sc > 10 then failAt 0x104 [0x1C]
  else if dirBad then failAt 0x104 [0x60]
  else
    failAt 0x104 <|
      (ss.flatMap fun e =>
        (if (ss.filter (fun x => x.typ == e.typ && decide (x.at_ < e.at_))).isEmpty then [] else [e.at_]) ++
        (if countBad e then [e.at_ + 4] else []) ++
        (if e.off % 8 ≠ 0 ∨ e.off < 0x100 ∨ e.off + e.len > d then [e.at_ + 8] else []) ++
        (if e.len ≠ e.count * recSize e.typ then [e.at_ + 16] else [])) ++
      overlaps ((0x60, dirOff img, 32 * sc) :: ss.map (fun e => (e.at_ + 8, e.off, e.len))) ++
      (if [1, 2, 4].all typs.contains ∧ (typs.contains 9 ∨ aliased = 0) then [] else [0x1C])

/-- Reserved codes of a record (R541). -/
def recCodes (t : Nat) (r : PRec) : List Nat :=
  let bad := fun o (ok : Nat → Bool) => if ok (r.f o 1) then [] else [r.at_ + o]
  match t with
  | 5 => bad 2 (fun v => v == 1 || v == 2 || v == 4) ++ bad 8 (fun v => decide (v ≤ 2))
  | 6 => bad 2 (fun v => decide (v ≤ 4))
  | 7 => bad 5 (fun v => decide (v ≤ 2)) ++ bad 6 (fun v => v == 0 || v == 1 || v == 10) ++ bad 8 (fun v => decide (v < 32)) ++
      bad 9 (fun v => decide (v ≤ 4))
  | 8 => bad 2 (fun v => decide (v ≤ 4))
  | _ => []

/-- Zero sizing fields of a record (R82). -/
def recZero (t : Nat) (r : PRec) : List Nat :=
  match t with
  | 6 => if r.f 4 2 = 0 then [r.at_ + 4] else []
  | 7 => if r.f 7 1 = 0 then [r.at_ + 7] else []
  | 8 => if r.f 16 8 = 0 then [r.at_ + 16] else []
  | _ => []

/-- Types whose records check 10 examines. -/
def recTypes : List Nat := [2, 3, 4, 5, 6, 7, 8, 9]

/-- Check 10: codes and reserved bytes, then sizing fields, then the frame table's budget. -/
def check10 (img : Img) : Option (Nat × Nat) :=
  let ss := sections img
  let all := fun (g : Nat → PRec → List Nat) => recTypes.flatMap (fun t => (records img ss t).flatMap (g t))
  let max := field img 0x4C 4
  let over_ := (records img ss 1).filterMap (fun r => if r.f 0 4 > max then some r.at_ else none)
  (failAt 0x102 (all fun t r => recCodes t r ++ (unassignedBytes t).flatMap (fun u =>
      (nonZero r.bytes u.1 u.2).map (r.at_ + ·)))).or <|
  (failAt 0x103 (all recZero)).or <|
  failAt 0x105 ((if max + field img 0x44 4 > field img 0x40 4 * field img 0x34 2 / 1000 then [0x4C] else []) ++ over_)

/-! ### Check 11 -/

/-- Number of dies and of rows of the class declared. -/
def imgDies (img : Img) : Nat := imgCores img / 16

/-- Whether an endpoint code names a die of the class or an I/O die. -/
def endpointOk (img : Img) (e : Nat) : Bool := decide (e < imgDies img) || (decide (0x100 ≤ e) && decide (e ≤ 0x10B))

/-- Records whose key an earlier record of the list holds. -/
def repeated [BEq α] (key : PRec → α) : List α → List PRec → List PRec
  | _, [] => []
  | seen, r :: rs => if seen.contains (key r) then r :: repeated key seen rs else repeated key (key r :: seen) rs

/-- Whether bytes lie in the DATA section. -/
def inData (ss : List Sect) (off n : Nat) : Bool :=
  n == 0 || (match sectOf ss 10 with
    | some e => decide (e.off ≤ off) && decide (off + n ≤ e.off + e.len)
    | none => false)

/-- USED_ROWS of a memory in an image (R83). -/
def usedRows (allocs : List PRec) (m : Nat) : Nat :=
  match allocs.find? (fun r => r.f 0 4 == m) with
  | some r => r.f 8 4
  | none => memRows m

/-- ROW_ALLOC, CORE_PROGRAMS and CORE_CONSTANTS records (Table 2.10, R82, R83). -/
def memLimits (img : Img) (ss : List Sect) : List Nat :=
  let allocs := records img ss 4
  let progs := records img ss 2
  let grid := field img 0x30 2
  (allocs.flatMap fun r =>
    (if memValid grid (r.f 0 4) then [] else [r.at_]) ++ (if r.f 8 4 ≤ memRows (r.f 0 4) then [] else [r.at_ + 8]) ++
    (if r.f 4 4 ≤ r.f 8 4 then [] else [r.at_ + 4])) ++
  (repeated (fun r => r.f 0 4) [] allocs).map (·.at_) ++
  (progs.flatMap fun r =>
    (if r.f 0 4 < imgCores img then [] else [r.at_]) ++ (if r.f 4 4 ≤ 16384 then [] else [r.at_ + 4]) ++
    (if r.f 4 4 > 16384 ∨ inData ss (r.f 8 8) (8 * r.f 4 4) then [] else [r.at_ + 8])) ++
  (repeated (fun r => r.f 0 4) [] progs).map (·.at_) ++
  ((records img ss 3).flatMap fun r =>
    if r.f 8 4 = 0 then []
    else
      let t := panelTarget grid (r.f 0 8)
      match targetMem t with
      | none => [r.at_]
      | some m =>
        (if targetRow t + r.f 8 4 ≤ usedRows allocs m then [] else [r.at_ + 8]) ++
          (if inData ss (r.f 16 8) (512 * r.f 8 4) then [] else [r.at_ + 16]))

/-- ROUTES and RESERVED_BUFFERS records (Table 2.10, Table 7.12). -/
def routeLimits (img : Img) (ss : List Sect) : List Nat :=
  let rs := records img ss 5
  let bs := records img ss 6
  let io := fun e => decide (0x100 ≤ e)
  let crowded := fun (r : PRec) e => decide ((rs.filter (fun q => decide (q.at_ ≤ r.at_) && (q.f 4 2 == e || q.f 6 2 == e))).length > 4096)
  (rs.flatMap fun r =>
    let a := r.f 4 2
    let b := r.f 6 2
    let k := r.f 8 1
    let line := (k == 1 && a / 12 == b / 12) || (k == 2 && a % 12 == b % 12)
    (if r.f 3 1 ≤ 7 then [] else [r.at_ + 3]) ++ (if endpointOk img a then [] else [r.at_ + 4]) ++
    (if endpointOk img b && !(io a && io b) then [] else [r.at_ + 6]) ++
    (if k = 0 ∨ (r.f 2 1 = 2 ∧ !io a ∧ !io b ∧ line) then [] else [r.at_ + 8]) ++
    (if crowded r a then [r.at_ + 4] else []) ++ (if crowded r b then [r.at_ + 6] else [])) ++
  (repeated (fun r => r.f 0 2) [] rs).map (·.at_) ++
  (bs.flatMap fun r =>
    (if endpointOk img (r.f 0 2) then [] else [r.at_]) ++ (if io (r.f 0 2) ∧ r.f 2 1 ≠ 0 then [r.at_ + 2] else []) ++
    (if r.f 3 1 ≤ 7 then [] else [r.at_ + 3]) ++ (if r.f 4 2 ≤ 40 then [] else [r.at_ + 4])) ++
  (repeated (fun r => (r.f 0 2, r.f 2 1, r.f 3 1)) [] bs).map (·.at_)

/-- Bits set in an input mask. -/
def maskBits (m : Nat) : Nat := ((List.range 5).filter (fun i => m.testBit i)).length

/-- The logical neighbour of a die in the declared class, if it exists. -/
def imgNeighbour (img : Img) (d dir : Nat) : Option Nat :=
  match dir with
  | 1 => if d + 12 < imgDies img then some (d + 12) else none
  | 2 => if d ≥ 12 then some (d - 12) else none
  | 3 => if d % 12 < 11 then some (d + 1) else none
  | 4 => if d % 12 > 0 then some (d - 1) else none
  | _ => none

/-- The record of a tree at a die. -/
def treeAt (ts : List PRec) (d red plane : Nat) : Option PRec := ts.find? (fun r => r.f 2 2 == d && r.f 0 2 == red && r.f 4 1 == plane)

/-- Whether following OUT_PORT from a record reaches a root within `n` steps (R284, Table 7.12). -/
def reachesRoot (img : Img) (ts : List PRec) : Nat → PRec → Bool
  | 0, _ => false
  | n + 1, r =>
    if r.f 9 1 = 0 then true
    else
      match imgNeighbour img (r.f 2 2) (r.f 9 1) with
      | none => false
      | some d => match treeAt ts d (r.f 0 2) (r.f 4 1) with
        | none => false
        | some q => reachesRoot img ts n q

/-- REDUCTION_TREES records (Table 2.10, Table 7.12). -/
def treeLimits (img : Img) (ss : List Sect) : List Nat :=
  let ts := records img ss 7
  let joined := fun (r : PRec) dir (ok : PRec → Bool) =>
    match imgNeighbour img (r.f 2 2) dir with
    | none => false
    | some d => match treeAt ts d (r.f 0 2) (r.f 4 1) with
      | none => false
      | some q => ok q
  (ts.flatMap fun r =>
    let m := r.f 8 1
    let o := r.f 9 1
    let many := decide ((ts.filter (fun q => decide (q.at_ ≤ r.at_) && q.f 2 2 == r.f 2 2 && q.f 4 1 == r.f 4 1)).length > 16)
    (if r.f 2 2 < imgDies img ∧ !many then [] else [r.at_ + 2]) ++ (if r.f 4 1 ≤ 7 then [] else [r.at_ + 4]) ++
    (if r.f 7 1 ≤ 5 then [] else [r.at_ + 7]) ++
    (if maskBits m = r.f 7 1 ∧ [1, 2, 3, 4].all (fun b => !m.testBit b || joined r b (fun q => q.f 9 1 == opposite b)) then []
     else [r.at_ + 8]) ++
    (if !m.testBit o ∧ (o = 0 ∨ joined r o (fun q => (q.f 8 1).testBit (opposite o))) ∧ reachesRoot img ts (ts.length + 1) r then []
     else [r.at_ + 9])) ++
  (repeated (fun r => (r.f 0 2, r.f 2 2, r.f 4 1)) [] ts).map (·.at_)

/-- The region record of an id. -/
def regionRec (ss : List PRec) (id : Nat) : Option PRec := ss.find? (fun r => r.f 0 2 == id)

/-- HBM_LAYOUT and ALIAS_LIST records (Table 2.10). BASE and SIDE_B are byte addresses of the HBM, without the SPACE field of a panel address (DESIGN CHOICE: the table
says "HBM address", and R217 names plan records among panel addresses; log entry 133). -/
def hbmLimits (img : Img) (ss : List Sect) : List Nat :=
  let rs := records img ss 8
  let as := records img ss 9
  let cap := field img 0x38 8
  let lenOf : PRec → Nat := fun a => match regionRec rs (a.f 0 2) with | some r => r.f 16 8 | none => 0
  (rs.flatMap fun r =>
    (if r.f 8 8 % 512 = 0 ∧ r.f 8 8 + r.f 16 8 ≤ cap then [] else [r.at_ + 8]) ++ (if r.f 16 8 % 512 = 0 then [] else [r.at_ + 16])) ++
  (repeated (fun r => r.f 0 2) [] rs).map (·.at_) ++
  (as.flatMap fun a =>
    (match regionRec rs (a.f 0 2) with
     | some r => if r.f 2 1 = 4 then [] else [a.at_]
     | none => [a.at_]) ++
    (if a.f 8 8 % 512 = 0 ∧ a.f 8 8 + lenOf a ≤ cap then [] else [a.at_ + 8])) ++
  (repeated (fun r => r.f 0 2) [] as).map (·.at_) ++
  overlaps (rs.map (fun r => (r.at_ + 8, r.f 8 8, r.f 16 8)) ++ as.map (fun a => (a.at_ + 8, a.f 8 8, lenOf a)))

/-- Check 11. -/
def check11 (img : Img) : Option (Nat × Nat) :=
  let ss := sections img
  failAt 0x106 <|
    (if field img 0x32 2 ≤ 64 then [] else [0x32]) ++
    (if 1 ≤ field img 0x36 2 ∧ field img 0x36 2 ≤ 4096 then [] else [0x36]) ++
    (if field img 0x48 4 ≤ 16777216 then [] else [0x48]) ++
    memLimits img ss ++ routeLimits img ss ++ treeLimits img ss ++ hbmLimits img ss

/-! ### The plan of an image -/

/-- HBM spans of the image's regions and sides: base and length. -/
def hbmSpans (img : Img) : List (Nat × Nat) :=
  let rs := records img (sections img) 8
  rs.map (fun r => (r.f 8 8, r.f 16 8)) ++
    (records img (sections img) 9).map (fun a => (a.f 8 8, match regionRec rs (a.f 0 2) with | some r => r.f 16 8 | none => 0))

/-- Whether a span of HBM touches a retired stack (R253). -/
def State.touchesRetired (s : State) (a n : Nat) : Bool :=
  let b := stackBytes s.fuses.part
  (List.range ((a + n - 1) / b + 1 - a / b)).any (fun i => match (partStacks s.fuses.part)[a / b + i]? with
    | some k => s.stackRetired k
    | none => false)

/-- Checks 1 to 13 of Table 2.11 in order; 0 is made by the command. -/
def State.planChecks (s : State) (img : Img) : Option (Nat × Nat) :=
  let m := s.formMap true
  let one := fun (ok : Bool) (st : Nat) => if ok then none else some (st, 0)
  (one (m.grid != 0) 0x401).or <| (one (s.shownState != .running) 0x203).or <| (check3 img).or <| (check4 img).or <|
  (s.check56 img).or <| (check7 img).or <| (check8 img).or <| (check9 img).or <| (check10 img).or <| (check11 img).or <|
  (one (field img 0x30 2 == m.grid) 0x201).or <|
  one (decide (s.enabledHbm ≥ field img 0x38 8) && decide (s.enabledPorts.length ≥ field img 0x32 2) &&
    (hbmSpans img).all (fun x => !s.touchesRetired x.1 x.2)) 0x202

/-- The plan that an image holds. -/
def planOf (img : Img) : Plan :=
  let ss := sections img
  let as := records img ss 9
  { planId := field img 0x20 8, groupPlanId := field img 0x28 8, gridClass := field img 0x30 2, zlPorts := field img 0x32 2,
    fFloor := field img 0x34 2, groupSize := field img 0x36 2, hbmBytes := field img 0x38 8, frameTicks := field img 0x40 4,
    guardCycles := field img 0x44 4, frames := field img 0x48 4, maxFrame := field img 0x4C 4, seed := field img 0x50 16,
    digest := (img.drop (digestOff img)).take 64,
    signer := if isSigned img then (img.drop (digestOff img + 64)).take 64 else [], signed := isSigned img, image := img,
    tableAt := ((sectOf ss 1).map (·.off)).getD 0,
    routes := (records img ss 5).map (fun r => { id := r.f 0 2, cls := r.f 2 1, plane := r.f 3 1, src := r.f 4 2, dst := r.f 6 2, kind := r.f 8 1 }),
    buffers := (records img ss 6).map (fun r => { die := r.f 0 2, port := r.f 2 1, plane := r.f 3 1, flits := r.f 4 2 }),
    trees := (records img ss 7).map (fun r =>
      { red := r.f 0 2, die := r.f 2 2, plane := r.f 4 1, op := r.f 5 1, fmt := r.f 6 1, fanin := r.f 7 1, inMask := r.f 8 1, out := r.f 9 1 }),
    rowAlloc := (records img ss 4).map (fun r => { mem := r.f 0 4, resident := r.f 4 4, used := r.f 8 4 }),
    regions := (records img ss 8).map (fun r =>
      { id := r.f 0 2, kind := r.f 2 1, base := r.f 8 8, len := r.f 16 8,
        sideB := (as.find? (fun a => a.f 0 2 == r.f 0 2)).map (fun a => a.f 8 8) }) }

/-- FRAME_TABLE[f × N + c] (R82); an index beyond the table reads 0. -/
def Plan.entry (p : Plan) (f c : Nat) : Nat :=
  let n := if p.gridClass = 144 then 2304 else 1920
  if f < p.frames ∧ c < n then field p.image (p.tableAt + 4 * (f * n + c)) 4 else 0

/-- Programs of an image: core and words (R182). -/
def programsOf (img : Img) : List (Nat × List (BitVec 64)) :=
  (records img (sections img) 2).map fun r =>
    (r.f 0 4, ((chunksOf 8 (r.f 4 4 + 1) ((img.drop (r.f 8 8)).take (8 * r.f 4 4))).map (fun w => BitVec.ofNat 64 (leNat w))))

/-- Constant rows of an image: memory, row and bytes (Table 2.10). -/
def constantsOf (img : Img) : List (Nat × Nat × List Byte) :=
  (records img (sections img) 3).flatMap fun r =>
    if r.f 8 4 = 0 then []
    else
      let t := panelTarget (field img 0x30 2) (r.f 0 8)
      match targetMem t with
      | none => []
      | some m =>
        ((chunksOf 512 (r.f 8 4 + 1) ((img.drop (r.f 16 8)).take (512 * r.f 8 4))).zip (List.range (r.f 8 4))).map
          (fun c => (m, targetRow t + c.2, c.1))

end Sys2Proof.Machine
end

