-- ==== Sys2Proof/Machine/Steps.lean ====
section
/-! DEFINITION. Loading a plan and running, committing and replaying a step (02 R60 to R86). -/

namespace Sys2Proof.Machine

/-! ### Who may run plan and step commands -/

/-- A factory-test panel that no factory unlock has opened (R456). -/
def State.factoryLocked (s : State) : Bool := s.isFactory && !s.security.factoryOpen

/-- The role condition of the plan and step commands (R329, R456); STEP_COMMIT is not refused by the factory role. -/
def State.roleForbids (s : State) (commit : Bool) : Bool := s.isWorker || (s.factoryLocked && !commit)

/-- Whether the panel leads a group of more than one panel. -/
def State.leads (s : State) : Bool := s.isManager && decide (s.groupCount > 1)

/-- Before READY, which a halt never reaches, and during COMPUTE_RESET commands that need the crumb are refused (R351, R463). -/
def State.resetting (s : State) : Bool := !s.boot.ready || s.boot.resetTag.isSome

/-- The refusals that come before a plan or step command's own checks: role, reset, coolant loss (R329, R351, R463; log entry 22). -/
def State.gate (s : State) (commit : Bool) : Nat :=
  if s.roleForbids commit then 0x20B
  else if s.resetting then 0x20F
  else if s.thermal.active then 0x20C
  else 0

/-- The same for PLAN_LOAD: in a halt it takes its own checks, the first of which finds no grid class (Table 14.2). -/
def State.loadGate (s : State) : Nat :=
  if s.roleForbids false then 0x20B
  else if s.resetting ∧ s.boot.halt.isNone then 0x20F
  else if s.thermal.active then 0x20C
  else 0

/-- Whether every other slot of the group has joined (R331). -/
def State.allJoined (s : State) : Bool :=
  (List.range s.groupCount).all (fun g => g == s.groupSlot || s.group.joined.contains g)

/-! ### The management tree (R305, R330) -/

/-- Coordinate of a slot in dimension i. -/
def State.coord (s : State) (g i : Nat) : Nat :=
  g / ((s.groupSizes.take i).foldl (· * ·) 1) % max 1 (s.groupSizes.getD i 1)

/-- The slot after `h` on the dimension-ordered shortest path from slot `m` to slot `g`, ties in the + direction. -/
def State.treeNext (s : State) (m h g : Nat) : Nat :=
  match (List.range 4).find? (fun i => s.coord g i != s.coord h i) with
  | none => h
  | some i =>
    let n := max 1 (s.groupSizes.getD i 1)
    let up := (s.coord g i + n - s.coord m i) % n
    let c := s.coord h i
    let w := (s.groupSizes.take i).foldl (· * ·) 1
    h - c * w + (if up ≤ n - up then (c + 1) % n else (c + n - 1) % n) * w

/-- The slots of the path from a slot to `g`, at most `n` of them; a tree is at most 24 hops deep. -/
def State.treePath (s : State) (m g : Nat) : Nat → Nat → List Nat
  | 0, _ => []
  | n + 1, h => h :: (if h = g then [] else s.treePath m g n (s.treeNext m h g))

/-- The manager's slot as this panel knows it. -/
def State.managerSlot (s : State) : Nat := if s.isManager then s.groupSlot else s.group.manager

/-- The neighbour to which this hub forwards what is for slot `g`, where `g` lies below it in the tree. -/
def State.treeEdge (s : State) (g : Nat) : Option Nat :=
  if g ≠ s.groupSlot ∧ (s.treePath s.managerSlot g 25 s.managerSlot).contains s.groupSlot then
    some (s.treeNext s.managerSlot s.groupSlot g)
  else none

/-- Whether a slot lies below this hub, so that it relays what the manager sends to all. -/
def State.hasBelow (s : State) : Bool := (List.range s.groupCount).any (fun g => (s.treeEdge g).isSome)

/-- Images go down each tree edge toward their slots, an image that several slots share once per edge (R332). -/
def State.distribute (s : State) (imgs : List (Nat × List Byte)) : State :=
  let edges := imgs.foldl (fun es x => match s.treeEdge x.1 with | some e => insertNat e es | none => es) []
  forEach edges (fun e s =>
    let mine := imgs.filter (fun x => s.treeEdge x.1 == some e)
    let distinct := mine.foldl (fun bs x => if bs.contains x.2 then bs else bs ++ [x.2]) []
    forEach distinct (fun b s => s.send (.planImage ((mine.filter (fun x => x.2 == b)).map (·.1)) b)) s) s

/-! ### PLAN_LOAD (R85, R86, R332) -/

/-- The alias table of a new plan: an entry of the old table with the same BASE, SIDE_B and LENGTH keeps its mapping (R77). -/
def newAliases (old : List Alias) (p : Plan) : List Alias :=
  p.regions.filterMap fun r =>
    match r.sideB with
    | none => none
    | some b => some { base := r.base, sideB := b, len := r.len,
                       swapped := old.any (fun a => a.base == r.base && a.sideB == b && a.len == r.len && a.swapped) }

/-- Units that are DERATED in the table. -/
def State.deratedUnits (s : State) : List Nat := (s.units.table.filter (fun e => e.2.state == 1)).map (·.1)

/-- The map of a plan load goes into force: each DERATED site is retired, its table entry at the next tick (R386, R473). -/
def State.loadMap (s : State) : State :=
  let us := s.deratedUnits
  let s1 := s.applyMap (s.formMap true)
  { s1 with units := { s1.units with
    atOnce := us.foldl (fun m v => insertNat v m) s1.units.atOnce, due := s1.units.due ++ us.map (fun v => (v, 2, 4)) } }

/-- Everything that a load writes once every check has passed: map, programs and registers, constants, routers, alias table (R85,
Table 5.1). -/
def State.applyPlan (s : State) (img : Img) : State :=
  let p := planOf img
  let s1 := s.loadMap
  let s2 := forEach (constantsOf img) (fun c s => s.writeRow (memRowAddr c.1 c.2.1) c.2.2 false) s1
  { s2 with
    plan := some p, aliases := newAliases s.aliases p,
    cores := (programsOf img).foldl (fun t c => tset {} t c.1 { prog := c.2 }) [],
    step := { s2.step with state := .idle, phase := .inputs, faults := [], reports := [], stop := none, replay := false, lastOverrun := [],
                           startAt := none, flip := none, flipTag := none } }

/-- Bytes of host memory. -/
def State.hostBytes (s : State) (a n : Nat) : List Byte := readBytes s.hostMem a n

/-- The images of a set that lie one after another, image g for GROUP_SLOT g (R332; log entry 23). -/
def splitImages : Nat → Img → List Img
  | 0, _ => []
  | n + 1, bs =>
    let k := if field bs 0x10 8 = 0 then bs.length else field bs 0x10 8
    if bs = [] then [] else bs.take k :: splitImages n (bs.drop k)

/-- Loads an image on this panel: the status and DETAIL, and the state; a security refusal is recorded (R482). -/
def State.loadImage (s : State) (img : Img) : (Nat × Nat) × State :=
  match s.planChecks img with
  | some f => (f, s.noteRefusal f.1)
  | none => ((0, 0), s.applyPlan img)

/-- Makes a record that names a group slot. -/
def State.completeSlot (s : State) (c : Cmd) (status slot detail : Nat) : State := s.completeAt c s.now status slot detail 0 0 0

/-- PLAN_LOAD of a group at its manager: own checks, then every slot joined, then the images go out and the outcomes are awaited
(R86, R331, R332). SLOT of a load refused because a panel has not joined is the manager's own: neither R86 nor Table 9.15 says (DESIGN CHOICE: log entry 125). -/
def State.groupLoad (s : State) (c : Cmd) : State :=
  let imgs := splitImages s.groupCount (s.hostBytes (c.arg 0 8) (c.arg 8 8))
  match s.planChecks (imgs.getD s.groupSlot []) with
  | some f => (s.noteRefusal f.1).completeSlot c f.1 s.groupSlot f.2
  | none =>
    if !s.allJoined then s.completeSlot c 0x20E s.groupSlot 0
    else
      let slots := (List.range s.groupCount).filter (· != s.groupSlot)
      let s1 := s.applyPlan (imgs.getD s.groupSlot [])
      State.distribute { s1 with group := { s1.group with
        loadWait := some (c.tag, []), images := (imgs.zip (List.range imgs.length)).map (fun p => (p.2, p.1)) } }
        (slots.map (fun g => (g, imgs.getD g [])))

/-- PLAN_LOAD (R85). The load that passes its checks writes from now on and completes at the next frame tick (DESIGN CHOICE: the spec gives it no time; log entry 122).
A misaligned IMAGE_ADDR is named before every check of Table 2.11 (DESIGN CHOICE: the spec places 0x010A nowhere among them;
log entry 105). -/
def runPlanLoad (c : Cmd) (s : State) : State :=
  if s.loadGate ≠ 0 then s.complete c s.loadGate 0 0
  else if c.arg 0 8 % 64 ≠ 0 then s.complete c 0x10A (c.at 0) 0
  else if s.leads then s.groupLoad c
  else
    let r := s.loadImage (s.hostBytes (c.arg 0 8) (c.arg 8 8))
    if r.1.1 = 0 then { r.2 with cmds := { r.2.cmds with loading := some c.tag } } else r.2.complete c r.1.1 r.1.2 0

/-- The load whose writing has begun completes, everything in place (R85). -/
def State.finishLoad (s : State) : State :=
  let s1 := { s with cmds := { s.cmds with loading := none } }
  match s.cmds.loading.bind s.cmdOf with
  | none => s1
  | some c => s1.complete c 0 0 0

/-- The coolant-loss response ends a load whose writing has begun, a group's at its manager among them: 0x020C, no plan, and the alias table kept (Table 13.4). -/
def State.stopLoad (s : State) : State :=
  match (s.cmds.loading.or (s.group.loadWait.map (·.1))).bind s.cmdOf with
  | none => s
  | some c =>
    let s1 := State.discardPlan { s with cmds := { s.cmds with loading := none }, group := { s.group with loadWait := none, images := [] } }
    s1.completeSlot c 0x20C (if s.leads then s.groupSlot else 0xFFFF) 0

/-- A worker's outcome of a group load reaches the manager; with all of them in, the command completes with the lowest failing slot's
status and DETAIL, and after a failure the group holds no consistent images (R65, R86). -/
def State.loadReport (s : State) (slot status detail : Nat) : State :=
  match s.group.loadWait with
  | none => s
  | some (tag, got) =>
    let got := if got.any (fun g => g.1 == slot) then got else got ++ [(slot, status, detail)]
    let s1 := { s with group := { s.group with loadWait := some (tag, got) } }
    if got.length + 1 < s.groupCount then s1
    else
      let bad := got.filter (fun g => g.2.1 != 0)
      let low := bad.foldl (fun m g => if g.1 < m.1 then g else m) (bad.headD (0xFFFF, 0, 0))
      let s2 := { s1 with group := { s1.group with loadWait := none, images := if bad = [] then s1.group.images else [] } }
      match s2.cmdOf tag with
      | none => s2
      | some c => s2.completeSlot c low.2.1 low.1 low.2.2

/-- Every fault known here: this panel's with its slot, and those reported to a manager. -/
def State.allFaults (s : State) : List (Nat × StepFault) := s.step.faults.map (fun f => (s.groupSlot, f)) ++ s.step.reports

/-! ### STEP_START (R64, R65) -/

/-- One descriptor of a STEP_START payload. -/
def descrAt (c : Cmd) (i : Nat) : Descr :=
  let o := 24 + 24 * i
  { hostAddr := c.arg o 8, offset := c.arg (o + 8) 8, len := c.arg (o + 16) 4, region := c.arg (o + 20) 2, rsv := c.arg (o + 22) 2 }

/-- The descriptors of a payload: inputs, then outputs. -/
def descrs (c : Cmd) : List Descr := (List.range (c.arg 0x14 2 + c.arg 0x16 2)).map (descrAt c)

/-- The region record of an id in the loaded plan. -/
def State.regionById (s : State) (id : Nat) : Option Region :=
  match s.plan with
  | none => none
  | some p => p.regions.find? (fun r => r.id == id)

/-- Offset of a descriptor's first field that breaks R64 with 0x0107, if any: fields in payload order. -/
def State.descrBad (s : State) (isInput : Bool) (d : Descr) : Option Nat :=
  let region := if d.len = 0 then true else (s.regionById d.region).any (fun r => r.kind == (if isInput then 0 else 1))
  let fits := if d.len = 0 then true else (s.regionById d.region).all (fun r => decide (d.offset + d.len ≤ r.len))
  if d.offset % 512 ≠ 0 ∨ !fits then some 8
  else if d.len % 512 ≠ 0 then some 16
  else if !region then some 20
  else if d.rsv ≠ 0 then some 22
  else none

/-- The first descriptor that fails, in payload order: its status and DETAIL (R64). -/
def State.descrFail (s : State) (c : Cmd) : Option (Nat × Nat) :=
  let nIn := c.arg 0x14 2
  ((descrs c).zip (List.range (descrs c).length)).findSome? fun p =>
    let o := 24 + 24 * p.2
    if p.1.hostAddr % 64 ≠ 0 then some (0x10A, c.at o)
    else (s.descrBad (decide (p.2 < nIn)) p.1).map (fun k => (0x107, c.at (o + k)))

/-- Whether a step is FAILED and not replayable. -/
def State.failedFinal (s : State) : Bool := s.shownState == .failedFinal

/-- The panels whose profile the checks of R65 cover, and the slot that a record names for one (R431). -/
def State.panels (s : State) : List Nat := if s.leads then List.range s.groupCount else [s.groupSlot]
def State.slotShown (s : State) (g : Nat) : Nat := if s.leads then g else 0xFFFF

/-- The profile in force on a panel, as its last report has it, and the F_FLOOR_MHZ of its image. -/
def State.profileOf (s : State) (g : Nat) : Nat := if g = s.groupSlot then s.power.profile else tget 0 s.group.profiles g
def State.floorOf (s : State) (p : Plan) (g : Nat) : Nat :=
  if g = s.groupSlot then p.fFloor else ((s.group.images.find? (fun x => x.1 == g)).map (fun x => field x.2 0x34 2)).getD 0

/-- Conditions of R65's table from "Profile is not P3" to the group images: the first failing status, else 0, with the slot of the panel that fails
(R43, R431). -/
def State.runConditions (s : State) (p : Plan) : Nat × Nat :=
  let sameImage := fun (g : Nat) => match s.group.images.find? (fun x => x.1 == g) with
    | none => false
    | some x => field x.2 0x28 8 == p.groupPlanId && field x.2 0x40 4 == p.frameTicks && field x.2 0x48 4 == p.frames
  match s.panels.find? (fun g => s.profileOf g == 3), s.panels.find? (fun g => decide (profileFloor (s.profileOf g) < s.floorOf p g)) with
  | some g, _ => (0x206, s.slotShown g)
  | none, some g => (0x205, s.slotShown g)
  | none, none =>
    if s.frameTicks ≠ p.frameTicks ∨ s.guardCycles > p.guardCycles then (0x207, 0xFFFF)
    else if (match s.settings.pendingCommit with | some q => s.changesDeferred q.entries | none => false) then (0x208, 0xFFFF)
    else if s.leads ∧ !(List.range s.groupCount).all (fun g => g == s.groupSlot || sameImage g) then (0x20A, 0xFFFF)
    else (0, 0xFFFF)

/-- Capacity and planned width of an engine's bundle (R314). -/
def State.bundleNarrow (s : State) (e : Nat) : Bool :=
  let ps := s.bundle e
  let cap := ((ps.filter (fun p => (s.port p).state == 4)).map (fun p => (s.port p).width)).foldl (· + ·) 0
  decide (cap < (ps.length - 1) * 7)

/-- Outbound routes' engines (R321): CLASS 2 unicast from a die to an I/O die whose engine holds a bundle. -/
def State.outboundEngines (s : State) (p : Plan) : List Nat :=
  p.routes.filterMap fun r =>
    if r.cls = 2 ∧ r.kind = 0 ∧ r.src < 0x100 ∧ r.dst ≥ 0x100 then
      (ioEngine (r.dst - 0x100)).bind (fun e => if (s.bundle e).isEmpty then none else some e)
    else none

/-- The three further checks of R65: reference, group, bundles. -/
def State.lastChecks (s : State) (p : Plan) : Nat :=
  if s.clock.ref ≠ .locked then 0x408
  else if s.leads ∧ !s.allJoined then 0x20E
  else if (s.outboundEngines p).any s.bundleNarrow then 0x20D
  else 0

/-- The first of several checks that fails: its status, the slot that its record names, and DETAIL. -/
def first (xs : List (Nat × Nat × Nat)) : Option (Nat × Nat × Nat) := xs.find? (fun x => x.1 != 0)

/-- A check that names no slot. -/
def noSlot (f : Nat × Nat) : Nat × Nat × Nat := (f.1, 0xFFFF, f.2)

/-- R65's conditions on the panels, as a check. -/
def State.panelCheck (s : State) (p : Plan) : Nat × Nat × Nat := ((s.runConditions p).1, (s.runConditions p).2, 0)

/-- The checks of STEP_START in the order of R65: the failing status, the slot that its record names, and DETAIL. -/
def State.startFail (s : State) (c : Cmd) : Option (Nat × Nat × Nat) :=
  let nIn := c.arg 0x14 2
  let nOut := c.arg 0x16 2
  if s.gate false ≠ 0 then some (noSlot (s.gate false, 0))
  else if bitsOf (c.arg 0x10 4) 31 1 ≠ 0 then some (noSlot (0x102, c.at 0x10))
  else if nIn > 8 then some (noSlot (0x107, c.at 0x14))
  else if nOut > 8 - nIn then some (noSlot (0x107, c.at 0x16))
  else if c.len ≠ 24 + 24 * (nIn + nOut) then some (noSlot (0x108, 4))
  else
    match s.plan with
    | none => some (noSlot (0x204, 0))
    | some p =>
      if c.arg 0 8 ≠ p.planId then some (noSlot (0x107, c.at 0))
      else
        first [noSlot (if p.overBudget then 0x209 else 0, 0), noSlot (if s.failedFinal then 0x209 else 0, 0),
               noSlot (if s.step.state ≠ .idle then 0x203 else 0, 0), s.panelCheck p, noSlot ((s.descrFail c).getD (0, 0)),
               noSlot (s.lastChecks p, 0)]

/-- H of Table 2.12: the depth of the deepest worker from the manager, 0 for a panel that leads none. -/
def State.leadHops (s : State) : Nat := if s.leads then s.depthH else 0

/-- The time whose first tick at or after starts the frames, for a step whose inputs are in place now (R67). -/
def State.startBound (s : State) : Nat := max (s.now + s.period) (s.step.acceptedAt + s.period + 2000 * s.leadHops)

/-- The cycle-limit overruns of a run by slot, core and frame, this panel's and those reported to a manager (R59, R61). -/
def State.overruns (s : State) : List (Nat × Nat × Nat) :=
  (s.allFaults.filter (fun f => f.2.status == 0x110)).map (fun f => (f.1, f.2.core, f.2.frame))

/-! ### The step's own transfers (R67, R68, R236, R245) -/

/-- Where a piece that starts at HBM plan address `a` must end, at most `hi`: the stack's end, or an alias side's edge (R245, R76). -/
def State.cutAt (s : State) (a hi : Nat) : Nat :=
  let b := stackBytes s.fuses.part
  let edges := s.aliases.flatMap (fun e => [e.base, e.base + e.len, e.sideB, e.sideB + e.len])
  (edges.filter (fun x => decide (a < x))).foldl min (min hi (a + (b - s.resolveHbm a % b)))

/-- An HBM range cut into pieces, each within one stack: address and bytes. -/
def State.hbmPieces (s : State) : Nat → Nat → Nat → List (Nat × Nat)
  | 0, _, _ => []
  | fuel + 1, a, hi => if hi ≤ a then [] else (a, s.cutAt a hi - a) :: s.hbmPieces fuel (s.cutAt a hi) hi

/-- The stacks that a range of HBM plan addresses touches, by piece. -/
def State.hbmStacks (s : State) (a hi : Nat) : List Nat :=
  (s.hbmPieces (32 + 4 * s.aliases.length) a hi).filterMap (fun p => stackOf s.fuses.part (s.resolveHbm p.1))

/-- Pieces of a transfer (R245). -/
def State.piecesOf (s : State) (a n fmt count : Nat) : List Piece :=
  match panelTarget s.units.gridClass a with
  | .hbm b =>
    (s.hbmPieces (32 + 4 * s.aliases.length) b (b + 512 * n)).map fun p =>
      let e := (p.1 - b) / 512 * perRow fmt
      { addr := hbmAddr p.1, first := e, count := min (p.2 / 512 * perRow fmt) (count - e), running := false, word := 0 }
  | _ => if n = 0 then [] else [{ addr := a, first := 0, count := count, running := false, word := 0 }]

/-- Whether a packet is one of a command's HOST packets, and whether an arrived row came in one. -/
def ofCommand (tag : Nat) (p : Packet) : Bool := p.typ == 0xA && p.tag == tag
def rowOfCommand (tag : Nat) (a : Arrived) : Bool := match a.ack with | some p => ofCommand tag p | none => false

/-- The requests of a transfer's pieces leave the arbiters, and its packets the fabric. -/
def State.dropPieces (s : State) (x : Xfer) : State :=
  let s1 := s.dropRequests (fun r => x.pieces.any (fun p => r.key == pieceKey x.cmd.tag p.first))
  { s1 with fabric := { s1.fabric with
    packets := s1.fabric.packets.filter (fun p => !ofCommand x.cmd.tag p),
    arrived := s1.fabric.arrived.map (fun e => (e.1, e.2.filter (fun a => !rowOfCommand x.cmd.tag a))) } }

/-- The tag of the transfer of the step's i-th input or output, beyond every command's. -/
def stepTag (i : Nat) : Nat := 256 + i

/-- Whether a transfer is one of the step's own. -/
def Xfer.ofStep (x : Xfer) : Bool := decide (256 ≤ x.cmd.tag)

/-- The transfer of one descriptor of the step: its bytes move unchanged between host memory and its region, in pieces on the host channels as a host's do (R64, R236,
R245). An empty one moves nothing. -/
def State.stepXfer (s : State) (write : Bool) (i : Nat) (d : Descr) : List Xfer :=
  match s.regionById d.region with
  | none => []
  | some r =>
    let a := hbmAddr (r.base + d.offset)
    if d.len = 0 then []
    else [{ cmd := { opcode := 0, tag := stepTag i, flags := 0, len := 0, payAddr := 0, dest := 0xFFFF, payload := [], seq := s.step.seq },
            write := write, hostAddr := d.hostAddr, panelAddr := a, count := d.len, hfmt := 8, pfmt := 8, rm := 0, sat := false,
            pieces := s.piecesOf a (d.len / 512) 8 d.len, words := [], status := 0, detail := 0 }]

/-- The transfers of the step's inputs or of its outputs join those that run. -/
def State.openStep (s : State) (write : Bool) (ds : List Descr) : State :=
  { s with cmds := { s.cmds with xfers := s.cmds.xfers ++ ((List.range ds.length).zip ds).flatMap (fun d => s.stepXfer write d.1 d.2) } }

/-- Whether a transfer of the step has yet to end. -/
def State.stepMoving (s : State) : Bool := s.cmds.xfers.any Xfer.ofStep

/-- The step ends: what its transfers have not moved stays where it is. -/
def State.dropStep (s : State) : State :=
  let s1 := forEach (s.cmds.xfers.filter Xfer.ofStep) (fun x s => s.dropPieces x) s
  { s1 with cmds := { s1.cmds with xfers := s1.cmds.xfers.filter (fun x => !x.ofStep) } }

/-- A group's step is under way, and the manager says so (R72, R382; log entry 104). -/
def State.takeGroup (s : State) : State :=
  if s.leads then State.send { s with group := { s.group with live := true } } .stepTaken else s

/-- Starts a run of the step under a command, with the transfers of its inputs to come (R65, R66, R70). -/
def State.beginRun (s : State) (c : Cmd) (st : Step) : State :=
  State.openStep (State.takeGroup { s with
    step := { st with
      state := .running, phase := .inputs, frame := 0, tag := c.tag, opcode := c.opcode, startAt := none, flip := none, flipTag := none,
      faults := [], reports := [], stop := none, seq := c.seq, acceptedAt := s.now },
    group := { s.group with done := [], live := false } }) true st.inputs

/-- STEP_START (R65): the step runs, and an open state-load window closes (R336). -/
def runStepStart (c : Cmd) (s : State) : State :=
  match s.startFail c with
  | some f => s.completeSlot c f.1 f.2.1 f.2.2
  | none =>
    let nIn := c.arg 0x14 2
    let f := ((s.plan.map (·.frames)).getD 0)
    let ds := descrs c
    let idx := c.arg 8 8
    let s1 := s.beginRun c { s.step with
      stepIndex := idx, frameBase := idx * f % 2 ^ 64, inputs := ds.take nIn, outputs := ds.drop nIn,
      autoCommit := (c.arg 0x10 4).testBit 0, replay := false, lastOverrun := [],
      clockRuns := if idx = s.step.stepIndex then s.step.clockRuns else [] }
    { s1 with group := { s1.group with window := none } }

/-! ### STEP_COMMIT and STEP_REPLAY (R69 to R71) -/

/-- The time of the flip of a step that commits now: the first frame tick after, in a group at least 2 µs × H after (R69). -/
def State.flipBound (s : State) : Nat := if s.leads then s.now + max 1 (2000 * s.depthH) else s.now + 1

/-- Fixes the flip, and tells the group: it takes place at the first tick at or after one time, here and at every worker (R69). -/
def State.fixFlip (s : State) (tag : Option Nat) : State :=
  let s1 := { s with step := { s.step with flip := some s.flipBound, flipTag := tag } }
  if s.leads then s1.send (.stepCommit s.flipBound) else s1

/-- STEP_COMMIT (R69, Table 2.5). -/
def runStepCommit (c : Cmd) (s : State) : State :=
  if s.gate true ≠ 0 then s.complete c (s.gate true) 0 0
  else
    match s.shownState with
    | .noPlan => s.complete c 0x204 0 0
    | .running => s.complete c 0x203 0 0
    | .awaitCommit =>
      if c.arg 0 8 ≠ s.step.stepIndex then s.complete c 0x107 (c.at 0) 0 else s.fixFlip (some c.tag)
    | _ => s.complete c 0x209 0 0

/-- STEP_REPLAY (R65, R70, Table 2.5). -/
def runStepReplay (c : Cmd) (s : State) : State :=
  if s.gate false ≠ 0 then s.complete c (s.gate false) 0 0
  else
    let go := fun (_ : Unit) =>
      match s.plan with
      | none => s.complete c 0x204 0 0
      | some p =>
        if c.arg 0 8 ≠ s.step.stepIndex then s.complete c 0x107 (c.at 0) 0
        else
          match first [s.panelCheck p, noSlot (s.lastChecks p, 0)] with
          | some f => s.completeSlot c f.1 f.2.1 f.2.2
          | none => s.beginRun c { s.step with replay := true, lastOverrun := s.overruns }
    match s.shownState with
    | .noPlan => s.complete c 0x204 0 0
    | .running => s.complete c 0x203 0 0
    | .idle => s.complete c 0x209 0 0
    | .failedFinal => s.complete c 0x209 0 0
    | .awaitCommit => go ()
    | .failed => go ()

/-! ### How a run ends (R60, R61, R68, R216, R491) -/

/-- Rank of a status: the kinds of Table 5.12 in its order, other codes ascending, the timeout last (R491). -/
def faultRank (status : Nat) : Nat :=
  match status with
  | 0x111 => 0
  | 0x113 => 1
  | 0x114 => 2
  | 0x115 => 3
  | 0x402 => 4
  | 0x110 => 5
  | 0x116 => 0x10000
  | n => 6 + n

/-- Whether one reported fault goes before another: frame, rank, slot, core (R216, R491). -/
def faultBefore (a b : Nat × StepFault) : Bool :=
  let key := fun (x : Nat × StepFault) => [x.2.frame, faultRank x.2.status, x.1, x.2.core]
  decide (key a < key b)

/-- The fault that gives the step its status (R216, R491). -/
def chooseFault : List (Nat × StepFault) → Option (Nat × StepFault)
  | [] => none
  | x :: xs => match chooseFault xs with
    | none => some x
    | some y => if faultBefore y x then some y else some x

/-- Marks the plan over budget when the replay overruns at the same core of the same panel in the same frame (R59). -/
def State.judgeBudget (s : State) : State :=
  if s.step.replay && s.overruns.any s.step.lastOverrun.contains then
    { s with plan := s.plan.map (fun p => { p with overBudget := true }) }
  else s

/-- The state after a failed run: NO_PLAN once the plan is gone, not replayable when over budget or after a protection fault on any panel of the
group (R71, R73). -/
def State.afterFailure (s : State) : StepState :=
  match s.plan with
  | none => .noPlan
  | some p => if p.overBudget || s.allFaults.any (fun f => f.2.status == 0x111) then .failedFinal else .failed

/-- Every core is held (R60); the fault latches clear (Table 5.1). -/
def State.holdCores (s : State) : State :=
  { s with cores := s.cores.map (fun e => (e.1, { e.2 with mode := .held, latch := none })), agents := [] }

/-- The group's step leaves RUNNING at a time, and the manager says so (R72, R382; log entry 104). -/
def State.leaveGroup (s : State) (t : Nat) : State :=
  if s.leads then State.send { s with group := { s.group with live := false, leftAt := t } } (.stepLeft t) else s

/-- A worker reports each of its failures to its manager (R61). -/
def State.reportFaults (s : State) : State :=
  forEach s.step.faults (fun f s => s.send (.failure s.groupSlot f.frame f.status f.core f.detail)) s

/-- Whether every worker of the group has run its frames (R68, R87). -/
def State.workersDone (s : State) : Bool :=
  !s.leads || (List.range s.groupCount).all (fun g => g == s.groupSlot || s.group.done.contains g)

/-- Whether workers of the group may still run frames of the manager's step. -/
def State.groupRuns (s : State) : Bool :=
  s.leads && (s.step.phase == .wait || s.step.phase == .frames || (s.step.phase == .outputs && !s.workersDone))

/-- A manager's own failure while workers run: its cores are held, and the step stops on every panel, this one among them, at a tick that it names two frame
periods ahead (R60, R61). -/
def State.orderOwnStop (s : State) : State :=
  match s.step.stop, chooseFault s.allFaults with
  | none, some f =>
    let t := s.now + 2 * s.period
    (State.send { s with step := { s.step with stop := some t } } (.stepStop f.1 f.2.status t)).holdCores
  | _, _ => s.holdCores

/-- Clusters with a clock overrun in this run. -/
def State.overrunClusters (s : State) : List Nat :=
  (s.step.faults.filter (fun f => f.status == 0x402)).foldl (fun m f => insertNat (f.core / 8) m) []

/-- Successive runs of the step with a clock overrun, by cluster: a failed run counts one more where it had one, and starts afresh elsewhere, whatever failed it
(Table 15.1). -/
def State.countClockRuns (s : State) : State :=
  { s with step := { s.step with
    clockRuns := s.overrunClusters.foldl (fun t ci => tset 0 t (s.clusterUnit ci) (tget 0 s.step.clockRuns (s.clusterUnit ci) + 1)) [] } }

/-- Ends a failed run: state, record with the chosen status, or a worker's report of its own failures to its manager; a
manager's own failure stops the group too (R60, R61, R216). -/
def State.endFailed (s : State) : State :=
  match chooseFault s.allFaults with
  | none => s
  | some f =>
    let s1 := s.dropStep.judgeBudget.countClockRuns
    let s2 := { s1 with step := { s1.step with state := s1.afterFailure, phase := .inputs, startAt := none, stop := none } }
    let s3 := s2.holdCores
    if s3.isWorker then s3.reportFaults
    else
      let stop := s3.now + 2 * s3.period
      let s4 := if s3.leads ∧ s.step.stop.isNone then (s3.send (.stepStop f.1 f.2.status stop)).leaveGroup stop else s3.leaveGroup s3.now
      match s4.cmdOf s4.step.tag with
      | none => s4
      | some c => s4.completeAt c s4.now f.2.status (if s4.leads then f.1 else 0xFFFF) f.2.detail 0 0 0

/-- Ends a run whose outputs reached the host: AWAIT_COMMIT, or at once the flip of an auto-commit, whose record gives the flip
tick (R68, R69). -/
def State.endClean (s : State) : State :=
  let s0 := { s with step := { s.step with state := .awaitCommit, phase := .inputs, startAt := none, lastOverrun := [], clockRuns := [] } }
  if s0.isWorker then s0.send (.stepDone s0.groupSlot)
  else
    let s1 := s0.leaveGroup s0.now
    let t := if s1.step.autoCommit then s1.tickAtOrAfter s1.flipBound else s1.now
    let s2 := if s1.step.autoCommit then s1.fixFlip none else s1
    match s2.cmdOf s2.step.tag with
    | none => s2
    | some c => s2.completeAt c t 0 0xFFFF 0 0 0 0

/-- The flip at its tick: every alias entry swaps its views, and the step state becomes IDLE (R69, R75). -/
def State.flipAtTick (s : State) : State :=
  match s.step.flip with
  | none => s
  | some b =>
    if s.now < b then s
    else
      let s1 := { s with
        aliases := s.aliases.map (fun a => { a with swapped := !a.swapped }),
        step := { s.step with flip := none, flipTag := none, state := if s.plan.isSome then .idle else .noPlan } }
      match s.step.flipTag.bind s.cmdOf with
      | none => s1
      | some c => s1.complete c 0 0 0

/-! ### Inputs and outputs (R67, R68) -/

/-- The I/O die that runs a piece: the one that serves its stack, or S0 for row memory, which W0 stands in for (R245, R461). -/
def State.pieceIo (s : State) (p : Piece) : Nat :=
  match panelTarget s.units.gridClass p.addr with
  | .hbm a => ((stackOf s.fuses.part (s.resolveHbm a)).map (· / 2)).getD s.rowIo
  | _ => s.rowIo

/-- The host channels of an I/O die that run a piece (R236). -/
def State.busyChannels (s : State) (io : Nat) : List Nat :=
  s.cmds.xfers.flatMap (fun x => (x.pieces.filter (fun p => p.running && s.pieceIo p == io)).map (·.chan))

/-- Whether a transfer command is a DMA_READ from HBM. -/
def Xfer.hbmRead (x : Xfer) : Bool := !x.write && bitsOf x.panelAddr 47 44 == 2

/-- Whether a transfer-lane command that waits is a DMA_READ from HBM. -/
def Cmd.hbmRead (c : Cmd) : Bool := c.opcode == 0x302 && bitsOf (c.arg 8 8) 47 44 == 2

/-- Transfer-lane commands that must complete before the step's inputs begin: running, waiting, or a GROUP_COPY (R351). -/
def State.inputsBlocked (s : State) : Bool :=
  s.cmds.xfers.any (fun x => decide (x.cmd.seq < s.step.seq) && !x.hbmRead) ||
    s.cmds.xferQueue.any (fun c => decide (c.seq < s.step.seq) && !c.hbmRead) ||
    s.group.copies.any (fun k => (s.cmdOf k.tag).any (fun c => decide (c.seq < s.step.seq)))

/-- STEP_INPUTS_DONE: the last input byte is in HBM, every input's transfer over; the time whose first tick at or after starts the frames is fixed, and a group's workers get it
(R67). -/
def execStepInputsDone (s : State) : Out :=
  if s.isRunning ∧ s.step.phase = .inputs ∧ !s.inputsBlocked ∧ s.host.linkUp ∧ !s.stepMoving ∧ s.step.faults = [] then
    let b := s.startBound
    let s2 := { s with step := { s.step with phase := .wait, startAt := some b } }
    if s2.leads then
      .next (s2.send (if s2.step.replay then .stepReplay s2.step.stepIndex b else .stepStart s2.step.stepIndex b))
    else .next s2
  else .next s

/-- STEP_OUTPUTS_DONE: the outputs have reached the host, every output's transfer over or failed, and the step ends (R68). -/
def execStepOutputsDone (s : State) : Out :=
  if s.isRunning ∧ s.step.phase = .outputs ∧ s.host.linkUp ∧ s.workersDone ∧ (!s.stepMoving ∨ s.allFaults ≠ []) then
    if s.allFaults = [] then .next s.endClean else .next s.endFailed
  else .next s

end Sys2Proof.Machine
end

