-- ==== Sys2Proof/Machine/Transfers.lean ====
section
/-! DEFINITION. Host-requested transfers: DMA_WRITE, DMA_READ and their pieces (06 R245, Table 6.9; 09 R351 to R355). A piece moves unit by unit, each with a
HOST packet and its reply (R260, R270). -/

namespace Sys2Proof.Machine

/-- Host bytes of `n` packed elements (R354). -/
def hostSpan (f n : Nat) : Nat := if fmtWidth f = 6 then 24 * ((n + 31) / 32) else (n * fmtWidth f + 7) / 8

/-- Whether a panel range of `n` units lies within one scratchpad, one cluster memory or enabled HBM (Table 9.13). -/
def State.rangeOk (s : State) (a n : Nat) : Bool :=
  match panelTarget s.units.gridClass a with
  | .scratch _ _ r => decide (r + n ≤ 8192)
  | .cluster _ _ r => decide (r + n ≤ 32768)
  | .hbm b => decide (b + 512 * n ≤ hbmCapacity s.fuses.part)
  | _ => false

/-- The stacks that a range of `n` units touches. -/
def State.stacksOf (s : State) (a n : Nat) : List Nat :=
  match panelTarget s.units.gridClass a with
  | .hbm b => s.hbmStacks b (b + 512 * n)
  | _ => []

/-- The first retired stack that an HBM range touches (Table 9.13). -/
def State.retiredIn (s : State) (a n : Nat) : Option Nat := (s.stacksOf a n).find? s.stackRetired

/-- Whether every stack of a range may be used (R40). -/
def State.unitsUsable (s : State) (a n : Nat) : Bool := (s.stacksOf a n).all s.stackUsable

/-- The panel range of a transfer-lane command: its address and units. -/
def Cmd.range (c : Cmd) : Nat × Nat :=
  if c.opcode = 0x804 then (c.arg 0 8, c.arg 16 8 / 512) else (c.arg 8 8, unitsFor (c.arg 0x14 1 / 16) (c.arg 0x10 4))

/-- Whether a transfer-lane command waits: until every stack that it touches has passed stage 0x23 and may be used, or is retired (R40, R463). The coolant-loss
response refuses it without a wait (R351). -/
def State.stacksWait (s : State) (c : Cmd) : Bool :=
  !s.thermal.active && (s.stacksOf c.range.1 c.range.2).any (fun k =>
    !s.stackRetired k && !((s.boot.ready || s.boot.done.contains (0x23, k / 2)) && s.stackUsable k))

/-- The checks of Table 9.13, HOST_ADDR's alignment first (R353, R355): failing status and DETAIL. -/
def State.dmaFail (s : State) (c : Cmd) (write : Bool) : Option (Nat × Nat) :=
  let fmt := c.arg 0x14 1
  let conv := c.arg 0x15 1
  let hf := fmt % 16
  let pf := fmt / 16
  let sf := if write then hf else pf
  let df := if write then pf else hf
  let n := unitsFor pf (c.arg 0x10 4)
  if c.arg 0 8 % 64 ≠ 0 then some (0x10A, c.at 0)
  else if !(fmtValid hf && fmtValid pf && (sf == df || dPath sf df)) then some (0x102, c.at 0x14)
  else if conv / 16 ≠ 0 ∨ conv % 8 > 4 then some (0x102, c.at 0x15)
  else if c.arg 0x16 2 ≠ 0 then some (0x102, c.at 0x16)
  else if conv % 8 = 4 then some (0x112, c.at 0x15)
  else if !s.rangeOk (c.arg 8 8) n then some (0x10B, c.at 8)
  else (s.retiredIn (c.arg 8 8) n).map (fun k => (0x404, unitId 5 k 0))

/-- DMA_WRITE and DMA_READ as they start in the transfer lane (R350, R354, R355): a COUNT of 0 completes at once. -/
def State.startXfer (s : State) (c : Cmd) (write : Bool) : State :=
  match s.dmaFail c write with
  | some f => s.complete c f.1 f.2 0
  | none =>
    let n := c.arg 0x10 4
    let pf := c.arg 0x14 1 / 16
    let conv := c.arg 0x15 1
    if n = 0 then s.completeAt c s.now 0 0xFFFF 0 0 (xferWord false false false 0) 0
    else
      let x : Xfer :=
        { cmd := c, write := write, hostAddr := c.arg 0 8, panelAddr := c.arg 8 8, count := n, hfmt := c.arg 0x14 1 % 16, pfmt := pf,
          rm := conv % 8, sat := conv.testBit 3, pieces := s.piecesOf (c.arg 8 8) (unitsFor pf n) pf n, words := [], status := 0,
          detail := 0 }
      { s with cmds := { s.cmds with xfers := s.cmds.xfers ++ [x] } }

def runDmaWrite (c : Cmd) (s : State) : State := s.startXfer c true
def runDmaRead (c : Cmd) (s : State) : State := s.startXfer c false

/-! ### Pieces -/

/-- The transfer with a tag. -/
def State.xferOf (s : State) (tag : Nat) : Option Xfer := s.cmds.xfers.find? (fun x => x.cmd.tag == tag)

/-- Replaces the transfer with a tag. -/
def State.setXfer (s : State) (x : Xfer) : State :=
  { s with cmds := { s.cmds with xfers := s.cmds.xfers.map (fun y => if y.cmd.tag = x.cmd.tag then x else y) } }

/-- The merged XFER_WORD (R355): NV, OF and WR ORed over the pieces, DONE set even where none has run, ERR the first non-zero in address order. -/
def mergeWords (ws : List (Nat × Nat)) : Nat :=
  let ordered := ws.foldr (fun w acc => acc.takeWhile (fun x => decide (x.1 < w.1)) ++ w :: acc.dropWhile (fun x => decide (x.1 < w.1))) []
  let has := fun b => ws.any (fun w => w.2.testBit b)
  let err := ((ordered.map (fun w => bitsOf w.2 15 8)).find? (· != 0)).getD 0
  xferWord (has 0) (has 1) (has 2) err

/-- A step's own transfer that names a retired stack fails the step with 0x0404, as Table 6.9 refuses a host's (DESIGN CHOICE: the spec names no outcome for a step's own
transfer; log entry 119). Every other failure of one has failed the step where it arose. -/
def State.endStepXfer (s : State) (x : Xfer) : State :=
  if x.status = 0x404 then s.failWith { unit := x.detail, code := 0x404, cls := 1 } x.detail else s

/-- Completes a transfer that has no piece left, with its merged word (R355); one of the step's own has no record. -/
def State.endXfer (s : State) (x : Xfer) : State :=
  if x.pieces = [] then
    let s1 := { s with cmds := { s.cmds with xfers := s.cmds.xfers.filter (fun y => y.cmd.tag != x.cmd.tag) } }
    if x.ofStep then s1.endStepXfer x else s1.completeAt x.cmd s.now x.status 0xFFFF x.detail x.moved (mergeWords x.words) 0
  else s.setXfer x

/-- Whether an HBM range meets a region or side of one of the kinds given: the lowest plan address of the meeting. -/
def State.meetsKind (s : State) (a n : Nat) (kinds : List Nat) : Option Nat :=
  match s.plan with
  | none => none
  | some p =>
    let hits := p.regions.flatMap fun r =>
      if kinds.contains r.kind then
        (r.base :: r.sideB.toList).filterMap (fun b => if b < a + n ∧ a < b + r.len then some (max a b) else none)
      else []
    match hits with
    | [] => none
    | h :: hs => some (hs.foldl min h)

/-- What Table 6.9 gives a piece that is about to start: the refusing status, 0 when it runs; for 0x0111 with the panel address of the
refused write. -/
def State.pieceTest (s : State) (x : Xfer) (p : Piece) : Nat × Nat :=
  let n := 512 * unitsFor x.pfmt p.count
  match panelTarget s.units.gridClass p.addr with
  | .hbm a =>
    if s.thermal.active then (0x20C, 0)
    else
      match stackOf s.fuses.part (s.resolveHbm a) with
      | none => (0x10B, 0)
      | some k =>
        if s.stackRetired k then (0x404, unitId 5 k 0)
        else if x.write && s.isRunning && !x.ofStep then
          match s.meetsKind a n [0, 2, 4], s.meetsKind a n [1, 3] with
          | none, none => (0, 0)
          | some _, none => (0x203, 0)
          | none, some b => (0x111, hbmAddr b)
          | some u, some b => if u < b then (0x203, 0) else (0x111, hbmAddr b)
        else (0, 0)
  | _ =>
    if s.thermal.active then (0x20C, 0)
    else if s.resetting then (0x20F, 0)
    else if s.isRunning then (0x203, 0)
    else if s.power.profile = 3 then (0x206, 0)
    else (0, 0)

/-- The refusal of a protected write: error record against the hub, the step fails, DETAIL carries core index 0xFFFF (R361). -/
def State.hostProtection (s : State) (a : Nat) : State :=
  let d := coreDetail s.step.frame 0xFFFF
  (s.addError { unit := hubUnit, code := 0x111, cls := 2, location := a, flags := flStepFailed, frame := s.step.frame }).failStep
    s.step.frame 0x111 0xFFFF d

/-- Conversion of a piece. -/
def Xfer.conv (x : Xfer) : Conv :=
  { sfmt := if x.write then x.hfmt else x.pfmt, dfmt := if x.write then x.pfmt else x.hfmt, rm := x.rm, sat := x.sat, ssc := false, dsc := false }

/-- Host address of element `e` of a transfer; pieces and units begin on whole bytes (R354). -/
def Xfer.hostAt (x : Xfer) (e : Nat) : Nat := x.hostAddr + hostSpan x.hfmt e

/-- Units of a piece. -/
def Xfer.unitsOf (x : Xfer) (p : Piece) : Nat := unitsFor x.pfmt p.count

/-- The unit that a piece moves next: its elements, and the host address and host bytes that they take. -/
def Xfer.nextUnit (x : Xfer) (p : Piece) : Nat × Nat × Nat :=
  let per := perRow x.pfmt
  let n := min per (p.count - p.done * per)
  (n, x.hostAt (p.first + p.done * per), hostSpan x.hfmt n)

/-- A piece with the flags of a conversion ORed in, and with the first ERR that came (Table 6.8). -/
def Piece.noted (p : Piece) (f : ConvFlags) (err : Nat) : Piece :=
  { p with word := xferWord (p.word.testBit 0 || f.nv) (p.word.testBit 1 || f.of) (p.word.testBit 2 || f.wr) (if p.word / 256 = 0 then err else p.word / 256) }

/-- The sender code of a command's HOST packets. -/
def hostCode (tag : Nat) : Nat := 0x50000 + tag

/-- The HOST request for a piece's next unit: with the converted unit for a write. One unit of a piece is asked for at a time, so that the hub's space for its
reply is one unit; XFER_COUNT gives the units that have not moved, by which the arbiters on the way know the unit's grant (R245, R260, R270, R289; DESIGN CHOICE:
the spec gives HOST packets no layout and no number under way; log entry 50). -/
def State.hostRequest (s : State) (x : Xfer) (p : Piece) (payload : List Byte) : Packet :=
  { routeId := 0xFFFF, typ := 0xA, cls := 4, src := hubPlace, dst := ioPlace (s.pieceIo p), addr := p.addr + 512 * p.done, tag := x.cmd.tag,
    xferCount := x.unitsOf p - p.done, msg := p.first, core := hostCode x.cmd.tag, payload := payload, place := hubPlace }

/-- The hub asks for a piece's next unit: the piece with the flags of a write's conversion, and the panel with the request handed to the fabric. -/
def State.askUnit (s : State) (x : Xfer) (p : Piece) : Piece × State :=
  if x.write then
    let u := x.nextUnit p
    let out := convElems x.conv [] (fun _ => 0) (getElems x.hfmt (s.hostBytes u.2.1 u.2.2) 0 u.1)
    (p.noted out.2.2 0, s.inject [s.hostRequest x p (packRow x.pfmt out.1)])
  else (p, s.inject [s.hostRequest x p []])

/-- A transfer with one of its pieces in a new form. -/
def Xfer.withPiece (x : Xfer) (p : Piece) : Xfer :=
  { x with pieces := x.pieces.map (fun q => if q.first = p.first then p else q) }

/-- A transfer with a status and DETAIL, unless it has one. -/
def Xfer.failed (x : Xfer) (status detail : Nat) : Xfer :=
  { x with status := if x.status = 0 then status else x.status, detail := if x.status = 0 then detail else x.detail }

/-- A HOST reply at the hub moves its unit: a read's elements are converted and written to host memory, free bytes for uncorrected data, which gives ERR 0x01 and
0x0403. The next unit is asked for. A refused unit, its stack retired, gives ERR 0x04 and ends its piece (R240, R244, Table 6.9, R355). -/
def State.takeHostReply (s : State) (p : Packet) : State :=
  match s.xferOf p.tag with
  | none => s
  | some x =>
    match x.pieces.find? (fun q => q.running && q.first == p.msg && q.done < x.unitsOf q && q.addr + 512 * q.done == p.addr) with
    | none => s
    | some q =>
      let unit := s.targetUnit (s.unitTarget p.addr 0)
      if p.fault.isSome then
        s.setXfer ((x.withPiece { q.noted {} 4 with done := x.unitsOf q }).failed 0x404 unit)
      else
        let u := x.nextUnit q
        let out := convElems x.conv [] (fun _ => 0) (getElems x.pfmt p.payload 0 u.1)
        let s1 := if x.write then s else if p.poison then ((if x.ofStep then s.consumeUnit (s.unitTarget p.addr 0) hubPlace else s).writeHost u.2.1 (s.freeBytes u.2.2)).takeFree u.2.2
          else s.writeHost u.2.1 (fitBytes u.2.2 (packElems x.hfmt out.1))
        let x1 := if p.poison then x.failed 0x403 unit else x
        let q1 := { (if p.poison then q.noted {} 1 else if x.write then q else q.noted out.2.2 0) with done := q.done + 1 }
        let r := if q1.done < x.unitsOf q then s1.askUnit x q1 else (q1, s1)
        r.2.setXfer { x1.withPiece r.1 with moved := x.moved + u.2.2 }

/-- Whether the units that a piece needs may be used (R40); Table 6.9 refuses a retired stack, and every piece during the coolant-loss response. -/
def State.pieceReady (s : State) (p : Piece) : Bool :=
  s.thermal.active || match panelTarget s.units.gridClass p.addr with
  | .hbm a => match stackOf s.fuses.part (s.resolveHbm a) with
    | some k => s.stackRetired k || s.targetUsable (.hbm a)
    | none => true
  | t => s.resetting || (s.targetUsable t && s.ioUsable s.rowIo)

/-- The host channel that takes a piece: the lowest of 56 to 63 that is free, none while all are taken (R236, R245; log entry 96). -/
def State.hostChannel (s : State) (io : Nat) : Option Nat :=
  let busy := s.busyChannels io
  ((List.range 8).map (56 + ·)).find? (fun c => !busy.contains c)

/-- Whether a transfer of the step may not begin yet, or no longer: R351 holds its inputs, workers still run, or the step has failed (R68, R351). -/
def State.stepHeld (s : State) (x : Xfer) : Bool :=
  x.ofStep && !(s.isRunning && s.step.faults == [] && ((s.step.phase == .inputs && !s.inputsBlocked) || (s.step.phase == .outputs && s.workersDone)))

/-- The arbiters on a piece's way (Table 7.10): the hub's link, the inward links by which its requests and its replies enter the crumb, and its stack. The spec names
no plane for such traffic; the model takes plane 0 (log entry 96). -/
def State.pieceArbiters (s : State) (p : Piece) : List Nat :=
  let edge := fun (io dst : Nat) => 0x100 + linkNumber (ioSide io) (s.entrySite io dst) * 8
  let hub := fun (io : Nat) => 0x300 + (if io = 6 then 0 else 1) * 8
  match panelTarget s.units.gridClass p.addr with
  | .hbm a =>
    let io := s.pieceIo p
    let via := s.hubIo (ioPlace io)
    hub via :: (if via = io then [] else [edge via (s.firstFaced io), edge io (s.firstFaced via)]) ++ (stackOf s.fuses.part (s.resolveHbm a)).toList
  | t => [hub s.rowIo, edge s.rowIo (s.siteOf ((targetDie t).getD 0))]

/-- Requests a piece's units at each arbiter on its way, for its host channel (R246, R288). -/
def State.pieceRequests (s : State) (x : Xfer) (p : Piece) (chan : Nat) : State :=
  forEach (s.pieceArbiters p) (fun n s =>
    s.request n { who := some (chan - 56), key := pieceKey x.cmd.tag p.first, units := unitsFor x.pfmt p.count }) s

/-- Whether a unit of a piece is under way: its request, its arrived row or its reply is in the panel. -/
def State.unitOut (s : State) (tag : Nat) (p : Piece) : Bool :=
  s.fabric.packets.any (fun q => ofCommand tag q && q.msg == p.first) ||
    s.fabric.arrived.any (fun e => e.2.any (fun a => match a.ack with | some q => ofCommand tag q && q.msg == p.first | none => false))

/-- Whether a unit's request is bound for an I/O die that has been retired since it set out (R461). -/
def State.unitLost (s : State) (tag : Nat) (p : Piece) : Bool :=
  s.fabric.packets.any (fun q => ofCommand tag q && q.msg == p.first && decide (0x100 ≤ q.dst ∧ q.dst < hubPlace) && s.retired (unitId 3 (q.dst - 0x100) 0))

/-- A unit whose request can no longer arrive: one of a row is asked for through the other die of the hub, one of HBM has lost its stack and ends its piece
(R461, Table 6.9). -/
def State.renewUnit (s : State) (x : Xfer) (p : Piece) : State :=
  let s1 := { s with fabric := { s.fabric with packets := s.fabric.packets.filter (fun q => !(ofCommand x.cmd.tag q && q.msg == p.first)) } }
  match panelTarget s.units.gridClass p.addr with
  | .hbm a => s1.setXfer ((x.withPiece { p.noted {} 4 with done := x.unitsOf p }).failed 0x404 (s.targetUnit (.hbm a)))
  | _ => (s1.askUnit x p).2.setXfer (x.withPiece (s1.askUnit x p).1)

/-- HOST_PIECE_START: the first piece of a transfer that has not started is tested by Table 6.9, takes a host channel and asks for its first unit (R236, R245,
R350, R351). A refused piece ends the pieces that have not started; one that finds no channel waits. -/
def execHostPieceStart (tag : Nat) (s : State) : Out :=
  match s.xferOf tag with
  | none => .next s
  | some x =>
    match x.pieces.find? (fun p => !p.running) with
    | none => .next s
    | some p =>
      if !s.host.linkUp ∨ !s.pieceReady p ∨ s.stepHeld x then .next s
      else
        let t := s.pieceTest x p
        if t.1 ≠ 0 then
          let s1 := if t.1 = 0x111 then s.hostProtection t.2 else s
          let d := if t.1 = 0x111 then coreDetail s.step.frame 0xFFFF else t.2
          .next (s1.endXfer { x.failed t.1 d with pieces := x.pieces.filter (fun q => q.running) })
        else
          match s.hostChannel (s.pieceIo p) with
          | none => .next s
          | some ch =>
            let r := (s.pieceRequests x p ch).askUnit x { p with running := true, word := xferWord false false false 0, chan := ch }
            .next (r.2.setXfer (x.withPiece r.1))

/-- HOST_PIECE_COMPLETE: a running piece finishes once every unit has moved and the arbiters on its way have granted them all; the last makes the command's
completion (R288, R289, R355). A unit whose packet a router discarded, or whose way is lost, is asked for again (R293, R461; DESIGN CHOICE: log entry 50). -/
def execHostPieceComplete (tag piece : Nat) (s : State) : Out :=
  match s.xferOf tag with
  | none => .next s
  | some x =>
    match x.pieces[piece]? with
    | none => .next s
    | some p =>
      if !p.running ∨ !s.host.linkUp then .next s
      else if p.done < x.unitsOf p then
        if s.unitLost tag p then .next (s.renewUnit x p) else if s.unitOut tag p then .next s else .next ((s.askUnit x p).2.setXfer (x.withPiece (s.askUnit x p).1))
      else if s.granted (pieceKey tag p.first) then
        .next (s.endXfer { x with pieces := x.pieces.eraseIdx piece, words := x.words ++ [(p.first, p.word)] })
      else .next s

/-- Ends every piece of a transfer with a status, whatever it had; running pieces give ERR 0x03 for the coolant-loss response, and an earlier status of the command
stands there, since Table 6.9 speaks of the piece (R342, R351). -/
def State.abortXfer (s : State) (x : Xfer) (status err : Nat) : State :=
  let ran := x.pieces.filter (fun p => p.running)
  (s.dropPieces x).endXfer { (if err = 0 then { x with status := status, detail := 0 } else x.failed status 0) with
    pieces := [], words := x.words ++ ran.map (fun p => (p.first, if err = 0 then p.word else p.word % 256 + 256 * err)) }

/-! ### GROUP_COPY (R356) -/

/-- GROUP_COPY's own checks: status and DETAIL (log entry 25). -/
def State.copyFail (s : State) (c : Cmd) : Option (Nat × Nat) :=
  let spaced := fun a => decide (a % 512 = 0) && decide (bitsOf a 63 44 = 2)
  let n := c.arg 16 8
  if c.arg 26 6 ≠ 0 then some (0x102, c.at 26)
  else if !spaced (c.arg 0 8) ∨ !s.rangeOk (c.arg 0 8) (n / 512) then some (0x10B, c.at 0)
  else if !spaced (c.arg 8 8) ∨ bitsOf (c.arg 8 8) 43 0 + n > 2 ^ 40 then some (0x10B, c.at 8)
  else if n % 512 ≠ 0 then some (0x10B, c.at 16)
  else if c.arg 24 2 ≥ s.groupCount ∨ c.arg 24 2 = s.groupSlot then some (0x108, c.at 24)
  else
    match s.retiredIn (c.arg 0 8) (n / 512) with
    | some k => some (0x404, unitId 5 k 0)
    | none => if s.thermal.active then some (0x20C, 0) else none

/-- The TC3 packet of one unit of a transfer (Table 7.2, R326); after the last unit comes the header-only LAST (R323). -/
def State.tc3Packet (s : State) (slot src dst id count i : Nat) : Packet :=
  let a := src + 512 * i
  { routeId := 0xFFFF, typ := 0xB, cls := 3, planned := false, src := 0x1000 + s.groupSlot, dst := 0x1000 + slot, addr := dst + 512 * i,
    xferCount := count, xferId := id, payload := s.readRow (s.cellAddr (panelTarget s.units.gridClass a)),
    poison := s.isPoisoned (s.cellAddr (panelTarget s.units.gridClass a)), place := hubPlace }

/-- Sends one transfer of `n` units of a copy under the next XFER_ID: the id, and the state with its n + 1 packets queued at the hub's own TC3 entry, which
stands beside those of the I/O dies under number 12. LAST carries the transfer's poison (R323, R326). -/
def State.sendCopy (s : State) (slot src dst n : Nat) : Nat × State :=
  let id := tget 0 s.group.nextXfer slot
  let ps := (List.range n).map (s.tc3Packet slot src dst id (n + 1))
  let end_ : Packet := { routeId := 0xFFFF, typ := 0xB, cls := 3, last := true, src := 0x1000 + s.groupSlot, dst := 0x1000 + slot, addr := dst,
                         xferCount := n + 1, xferId := id, poison := ps.any (·.poison), place := hubPlace }
  let s1 := { s with group := { s.group with nextXfer := tset 0 s.group.nextXfer slot ((id + 1) % 65536) } }
  (id, s1.modIoDie 12 (fun d => { d with tc3In := d.tc3In ++ ps ++ [end_] }))

/-- Units of one transfer: XFER_COUNT is at most 64 packets, LAST among them (R326). -/
def copyUnits : Nat := 63

/-- Sends the transfers of a copy. -/
def State.sendCopies (c : Cmd) : List Nat → State → List OpenXfer × State
  | [], s => ([], s)
  | k :: ks, s =>
    let n := min copyUnits (c.arg 16 8 / 512 - copyUnits * k)
    let r := s.sendCopy (c.arg 24 2) (c.arg 0 8 + 512 * copyUnits * k) (c.arg 8 8 + 512 * copyUnits * k) n
    let rest := State.sendCopies c ks r.2
    ({ id := r.1, first := copyUnits * k, units := n, resends := 0, sentTick := s.clock.tickCount } :: rest.1, rest.2)

/-- GROUP_COPY (R356): a LENGTH of zero completes at once. -/
def runGroupCopy (c : Cmd) (s : State) : State :=
  match s.copyFail c with
  | some f => s.complete c f.1 f.2 0
  | none =>
    let units := c.arg 16 8 / 512
    if units = 0 then s.complete c 0 0 0
    else
      let r := State.sendCopies c (List.range ((units + copyUnits - 1) / copyUnits)) s
      { r.2 with group := { r.2.group with copies := r.2.group.copies ++
        [{ tag := c.tag, slot := c.arg 24 2, opened := r.1, acked := 0, refused := false }] } }

end Sys2Proof.Machine
end

