-- ==== Sys2Proof/Machine/Clocks.lean ====
section
/-! DEFINITION. The reference, the forwarding tree, the dies' timebases and the clusters' frequency points (11, 02 R58). -/

namespace Sys2Proof.Machine

/-! ### The reference (R390) -/

/-- The unit of the reference input (Table 15.2). -/
def refUnit : Nat := unitId 4 0 1

/-- REFERENCE_LOST: holdover, with an error record; steps run on (Table 11.2). -/
def execReferenceLost (s : State) : Out :=
  match s.clock.ref with
  | .holdover => .next s
  | .locked =>
    .next (State.addError { s with clock := { s.clock with ref := .holdover, refLostAt := s.now, refExpired := false } }
      { unit := hubUnit, code := 0x1050, cls := 3 })

/-- REFERENCE_HOLDOVER_EXPIRE: after 100 ms a running step fails with 0x0408 and stops at the next tick (Table 11.2). -/
def execReferenceHoldoverExpire (s : State) : Out :=
  if s.clock.ref = .holdover ∧ s.clock.refExpired = false then
    let s1 := s.advanceTo (s.clock.refLostAt + 100 * 10 ^ 6)
    .next (State.failWith { s1 with clock := { s1.clock with refExpired := true } } { unit := refUnit, code := 0x408, cls := 1 } 0)
  else .next s

/-- REFERENCE_RETURNED: lock is declared, with an error record (Table 11.2). -/
def execReferenceReturned (s : State) : Out :=
  match s.clock.ref with
  | .locked => .next s
  | .holdover =>
    .next (State.addError { s with clock := { s.clock with ref := .locked, refExpired := false } } { unit := hubUnit, code := 0x1051, cls := 3 })

/-! ### The forwarding tree (R391, R392) -/

/-- Whether a place is a compute site or an I/O die. -/
def diePlace (p : Nat) : Bool := decide (p < 156) || (decide (0x100 ≤ p) && decide (p < 0x10C))

/-- Places of every die. -/
def diePlaces : List Nat := List.range 156 ++ (List.range 12).map ioPlace

/-- The site from which an I/O die takes its reference: its first faced site (R391). -/
def ioFaced (io : Nat) : List Nat :=
  let r := facedRange io
  ((List.range (r.2 + 1 - r.1)).map (r.1 + ·)).map fun x =>
    match ioSide io with
    | 1 => 11 * 13 + x
    | 2 => x
    | 3 => x * 13 + 12
    | _ => x * 13

/-- Neighbours of a place in the tie order hub, S, W, N, E (R391). -/
def clockNeighbours (p : Nat) : List Nat :=
  if p ≥ 0x100 then (if p = ioPlace 6 ∨ p = ioPlace 9 then [hubPlace] else []) ++ ioFaced (p - 0x100)
  else [neighbour p 2, neighbour p 4, neighbour p 1, neighbour p 3]

/-- The parent among candidates with known depths: the smallest depth, the earlier on a tie. -/
def bestParent (cs : List (Nat × Nat)) : Option (Nat × Nat) :=
  cs.foldl (fun b c => match b with
    | none => some c
    | some x => if c.2 < x.2 then some c else some x) none

/-- The dies of the next depth: each die to come that has a neighbour in the last depth's, with the first of those as its parent. -/
def clockLevel (front todo : List Nat) : List (Nat × Nat) :=
  todo.filterMap fun p => ((clockNeighbours p).find? front.contains).map (fun q => (p, q))

/-- The depths below a front of depth `d`, until no further die locks: (place, parent, depth). -/
def clockGrow : Nat → Nat → List Nat → List Nat → List (Nat × Nat × Nat)
  | 0, _, _, _ => []
  | n + 1, d, front, todo =>
    let l := clockLevel front todo
    if l = [] then [] else l.map (fun e => (e.1, e.2, d + 1)) ++ clockGrow n (d + 1) (l.map (·.1)) (todo.filter (fun p => !l.any (fun e => e.1 == p)))

/-- The forwarding tree of the dies that lock (R391). -/
def clockTree (bad : List Nat) : List (Nat × Nat × Nat) := clockGrow 168 0 [hubPlace] (diePlaces.filter (fun p => !bad.contains p))

/-- The place of a die's unit (Table 15.2). -/
def unitPlace (u : Nat) : Nat := if unitKind u = 3 then ioPlace (unitSite u) else if unitKind u = 4 then hubPlace else unitSite u

/-- Locks the tree of every die but those that do not lock: parents and depths, each timebase loaded from the hub's (R391, R393, R397). A die that the tree does not
reach has no locked reference. -/
def State.lockClocks (s : State) (bad : List Nat) : State :=
  forEach (clockTree bad)
    (fun e s => s.setDieClock e.1 { s.dieClock e.1 with parent := e.2.1, depth := e.2.2, failed := [], locked := true, offset := 0, slew := 0 }) s

/-- Whether a place's reference comes through a die, following parents for `n` steps. -/
def State.clockedThrough (s : State) (die : Nat) : Nat → Nat → Bool
  | 0, _ => false
  | n + 1, p => p == die || (p != hubPlace && s.clockedThrough die n (s.dieClock p).parent)

/-- Depth of a place; the hub has depth 0. -/
def State.clockDepth (s : State) (p : Nat) : Nat := if p = hubPlace then 0 else (s.dieClock p).depth

/-- Whether a place's reference is locked: the hub's PLL gives one in holdover too (R390, R391). -/
def State.refLocked (s : State) (p : Nat) : Bool := p == hubPlace || (s.dieClock p).locked

/-- The neighbours that a die may take its reference from: those whose own is locked, none whose reference has failed it since it locked, and none that its own clock
reaches. -/
def State.parentsLeft (s : State) (die : Nat) : List Nat :=
  let c := s.dieClock die
  (clockNeighbours die).filter (fun q => q != c.parent && s.refLocked q && !c.failed.contains q && !s.clockedThrough die 170 q)

/-- The dies deeper in the tree than a die, whose clocks come through it. -/
def State.diesBelow (s : State) (die : Nat) : List Nat := diePlaces.filter (fun q => q != die && s.clockedThrough die 170 q)

/-- CLOCK_PARENT_SWITCH: the die, in holdover since its parent's reference failed, takes the next neighbour by R391, which its own clock does not reach, and the dies
deeper in the tree follow at their new depths (R392). With no such neighbour it stays in holdover, its reference lost. -/
def execClockParentSwitch (die : Nat) (s : State) : Out :=
  if !diePlace die then .next s
  else
    let c := s.dieClock die
    let gone := insertNat c.parent c.failed
    match bestParent ((s.parentsLeft die).map (fun q => (q, s.clockDepth q))) with
    | none => .next (s.setDieClock die { c with locked := false, failed := gone })
    | some b =>
      .next (forEach (s.diesBelow die) (fun q s => s.setDieClock q { s.dieClock q with depth := (s.dieClock q).depth + (b.2 + 1) - c.depth })
        (s.setDieClock die { c with parent := b.1, depth := b.2 + 1, failed := gone, locked := true }))

/-- The hub takes a new rate trim. -/
def State.setTrim (s : State) (t : Int) : State :=
  { s with clock := { s.clock with trim := t, trimAt := s.now, trimOld := s.clock.beaconTrim } }

/-- The ports of a place that fabric links end at: four of a compute site, one toward each faced site of an I/O die and 9 toward the hub, two of the hub. -/
def linkPorts (p : Nat) : List Nat :=
  if p < 0x100 then [1, 2, 3, 4]
  else if p = hubPlace then [1, 2]
  else (List.range ((facedRange (p - 0x100)).2 + 1 - (facedRange (p - 0x100)).1)).map (1 + ·) ++ (if p = ioPlace 6 ∨ p = ioPlace 9 then [9] else [])

/-- Whether a die or the hub has a crossing FIFO of a number: port × 8 + plane for a fabric link's input, 0x100 + port for the clock line that comes from the neighbour
beyond a die's port (R391, R395; log entry 114). -/
def hasFifo (die key : Nat) : Bool :=
  if key < 0x100 then (linkPorts die).contains (key / 8) else die != hubPlace && (linkPorts die).contains (key - 0x100)

/-- The flits that a crossing FIFO holds are corrupted: a head flit's packet is discarded, any other's is poisoned, and the link's plane is charged (R292, R293, R395). -/
def State.corruptFifo (s : State) (die key : Nat) : State :=
  let held := fun (p : Packet) => p.place == die && !p.isLocal && p.fromPort == key / 8 && p.plane == key % 8 && p.wait != []
  let s1 := s.countLane { unit := linkLane die (key / 8) (key % 8) 0x7FF, code := 0x1010, cls := 0, reporter := s.reporterAt die }
  forEach (s.fabric.packets.filter held) (fun p s =>
    match s.entryAt p.uid p.place false with
    | some i => if p.gone = 0 then s.discardHeader i p none else s.poisonPacket i p
    | none => s) s1

/-- The separations, in entries, to which wander has moved the crossing FIFOs of a place; one that would overflow or underflow corrupts what it holds (R395; log
entry 114). -/
def State.wander (s : State) (die : Nat) (seps : List (Nat × Nat)) : State :=
  let moved := seps.filter (fun e => hasFifo die e.1)
  let s1 := s.setDieClock die { s.dieClock die with fifos := moved.foldl (fun t e => tset 4 t e.1 (min 8 e.2)) (s.dieClock die).fifos }
  forEach (moved.filter (fun e => decide (e.1 < 0x100) && (e.2 == 0 || decide (8 ≤ e.2)))) (fun e s => s.corruptFifo die e.1) s1

/-- A die's offset at a beacon, in ns: the parent's stamp and half the round trip, in units of 62.5 ps, less its own count (R398). The spec gives no rounding to the
whole counts that the slew moves by: the nearest is taken (DESIGN CHOICE: log entry 120). -/
def State.dieOffset (s : State) (die stamp roundTrip : Nat) : Int :=
  ((16 * stamp + roundTrip / 2 : Nat) + 8 - 16 * ((s.now : Int) + (s.dieClock die).offsetAt s.now)) / 16

/-- TIMING_BEACON: the die measures its offset from the parent's stamp and the round trip, begins to slew it away, a count in a µs, and takes the beacon's trim (R398,
R399). `seps` are the separations of its crossing FIFOs; for the hub, which takes no beacon, they are all that there is (R395). -/
def execTimingBeacon (die : Nat) (beacon : Nat × Nat) (seps : List (Nat × Nat)) (s : State) : Out :=
  if die = hubPlace then .next (s.wander die seps)
  else if !diePlace die then .next s
  else
    let c := s.dieClock die
    .next ((s.setDieClock die { c with
      offset := c.offsetAt s.now, slew := s.dieOffset die beacon.1 beacon.2, slewFrom := s.now, trim := s.clock.beaconTrim }).wander die seps)

/-- Every crossing FIFO trained anew, four entries apart (R395). -/
def State.trainFifos (s : State) : State :=
  { s with clock := { s.clock with dies := s.clock.dies.map (fun (e : Nat × DieClock) => (e.1, { e.2 with fifos := [] })) } }

/-! ### Frequency points (R403 to R409) -/

/-- Drops a cluster straight to a point, without a clock stop; what the controllers ask for stands for its return (R403, R409, Table 12.6). -/
def State.protectiveDrop (s : State) (ci mhz : Nat) : State :=
  s.modCluster ci fun c => { c.noteMhz (s.pointOf ci) with point := some (min mhz (s.pointOf ci)), protective := true }

/-- The next point above or below a point in the profile in force. -/
def State.stepPoint (s : State) (from_ target : Nat) : Nat :=
  let ps := profilePoints s.power.profile
  if target < from_ then ((ps.filter (fun m => decide (m < from_))).getLast?).getD from_
  else if from_ < target then ((ps.find? (fun m => decide (from_ < m)))).getD from_
  else from_

/-- Whether every core of a cluster meets R58 for the frame that begins, at a new frequency; outside a step's frames no core has an entry. -/
def State.fixedChangeOk (s : State) (ci mhz : Nat) : Bool :=
  match s.plan with
  | none => true
  | some p =>
    !(s.isRunning && s.step.phase == .frames) || (List.range 8).all (fun k =>
      decide (p.entry s.step.frame (ci * 8 + k) + s.guardCycles ≤ (s.frameTicks + s.clock.stretch - 2000) * mhz / 1000))

/-- The point change of one cluster at a frame tick: one point toward the one asked for, below its cap; in fixed mode only where R58
holds, the return from a protective drop to the PLL included, else a deferral is counted (R58, R403, R407, R409, Table 12.6). -/
def State.pointAtTick (s : State) (ci : Nat) : State :=
  let c := s.cluster ci
  if s.power.profile = 3 then s
  else
    let cur := s.pointOf ci
    let goal := min (c.want.getD (profileNom s.power.profile)) (s.highPoint ci)
    let held := c.protective && (tget none s.power.zones (s.clusterZone ci)).isSome
    let next := if held then cur else s.stepPoint cur goal
    let relocks := next != cur || (c.protective && !held)
    if s.fixedMode && relocks && !s.fixedChangeOk ci next then
      s.modCluster ci fun c => { c with deferrals := min 255 (c.deferrals + 1), heldHot := c.heldHot || decide (next < cur) }
    else if next = cur then
      if !held && cur = goal then s.modCluster ci (fun c => { c with protective := false, heldHot := false }) else s
    else s.modCluster ci fun c =>
      { c.noteMhz cur with point := if next = profileNom s.power.profile then none else some next, heldHot := false }

/-- The counts of a second become the ones that HEALTH_SENSORS shows; a stopped clock brings MIN_MHZ no lower (Table 11.7; DEDUCED, log entry 117). -/
def State.closeClockSecond (s : State) : State :=
  forEach s.clusters_ (fun ci s => s.modCluster ci (fun c =>
    { c with shown := (min (c.minMhz.getD (s.pointOf ci)) (s.pointOf ci), c.deferrals, c.droops, c.holds),
             minMhz := none, deferrals := 0, droops := 0, holds := 0 })) s

/-- Whether a cluster's clocks are gated: P3, coolant-loss response, reset, or its site retired or dark (Table 11.7, Table 12.5). -/
def State.clusterGated (s : State) (ci : Nat) : Bool :=
  s.power.profile == 3 || s.thermal.gatedTick || s.boot.clocksOff || (s.cluster ci).dark || s.siteGone false (s.clusterSite ci)

/-- A cluster's clock status word (Table 11.7). -/
def State.clockWord (s : State) (ci : Nat) : Nat :=
  let c := s.cluster ci
  s.pointOf ci + c.shown.1 * 2 ^ 11 + bit s.fixedMode * 2 ^ 22 + bit (s.clusterGated ci) * 2 ^ 23 + c.shown.2.1 * 2 ^ 24 +
    c.shown.2.2.1 * 2 ^ 32 + c.shown.2.2.2 * 2 ^ 48

end Sys2Proof.Machine
end

