-- ==== Sys2Proof/Machine/Power.lean ====
section
/-! DEFINITION. Power delivery and the power envelope (12 R417 to R433). -/

namespace Sys2Proof.Machine

/-! ### Notices -/

/-- DETAIL of an envelope notice (Table 12.7). -/
def State.envelopeDetail (s : State) (reason index : Nat) : Nat :=
  reason + s.power.profile * 2 ^ 8 + s.power.pin * 2 ^ 16 + index * 2 ^ 48

/-- Event 0xE004, at most once per second for each reason (R432). -/
def State.envelopeNotice (s : State) (reason index : Nat) : State :=
  if s.power.noticed.contains reason then s
  else State.event { s with power := { s.power with noticed := reason :: s.power.noticed } } 0xE004 (s.envelopeDetail reason index) false

/-! ### PMBus (R417 to R419) -/

/-- The PMB1 converters of Table 12.4: zones, HBM rails, AUX; keyed segment × 128 + address. -/
def pmb1Keys : List Nat :=
  (List.range 16).map (fun z => 128 + 0x20 + z) ++ (List.range 12).map (fun i => 128 + 0x30 + i) ++ [128 + 0x3F]

/-- A LINEAR11 value in units of 1/65,536, exactly; one below zero counts as zero (Table 12.3; log entry 26). -/
def linear11 (w : BitVec 16) : Nat :=
  let y := (BitVec.extractLsb' 0 11 w).toInt
  let n := (BitVec.extractLsb' 11 5 w).toInt
  (y * 2 ^ (n + 16).toNat).toNat

/-- STATUS_WORD's input, output voltage, and output current or power faults: bits 13, 15 and 14 (PRESUMED: PMBus 1.3, which the spec cites; log entry 26). -/
def statusFault (w : BitVec 16) : Bool := w.getLsbD 13 || w.getLsbD 14 || w.getLsbD 15

/-- What a converter answers validly: its power, current and whether its STATUS_WORD, read from the intake set, reports a fault (R418, R419). -/
def validAnswer (readings : List PmbusAnswer) (key : Nat) : Option (Nat × Nat × Bool) :=
  (readings.find? (fun r => r.key == key && r.pec)).map (fun r => (linear11 r.power, linear11 r.current, decide (key < 128) && statusFault r.status))

/-- One converter's answer, or its absence, at a poll: the tenth in succession without an answer, or with a fault reported, makes it missing, and from then on its
largest readings of the last 60 s stand in its place (R418, R419); before that the last reading stands (log entry 26). A fault that has been recorded is cleared. -/
def State.pollOne (readings : List PmbusAnswer) (key : Nat) (s : State) : State :=
  let p := s.power
  let kept := (tget [] p.recent key).filter (fun x => decide (s.now ≤ x.1 + 60 * 10 ^ 9))
  let n := tget 0 p.missing key + 1
  let took := fun (r : Nat × Nat × Bool) => { p with
      power := tset 0 p.power key r.1, current := tset 0 p.current key r.2.1, recent := tset [] p.recent key (kept ++ [(s.now, r.1, r.2.1)]) }
  let missed := fun (p : Power) =>
    let seen := (tget [] p.recent key).filter (fun x => decide (s.now ≤ x.1 + 60 * 10 ^ 9))
    if n < 10 then { p with missing := tset 0 p.missing key n }
    else { p with
      missing := tset 0 p.missing key n, estimated := true,
      power := tset 0 p.power key (seen.foldl (fun m x => max m x.2.1) (tget 0 p.power key)),
      current := tset 0 p.current key (seen.foldl (fun m x => max m x.2.2) (tget 0 p.current key)) }
  let noted := fun (s : State) =>
    if n = 10 then (s.envelopeNotice 7 (key % 128)).addError { unit := unitId 4 0 (key % 128), code := 0x1052, cls := 3, aux := key % 128 } else s
  match validAnswer readings key with
  | some r =>
    if r.2.2 then
      let s1 := noted { s with power := missed (took r) }
      if n = 10 then { s1 with power := { s1.power with cleared := tset 0 s1.power.cleared key (tget 0 s1.power.cleared key + 1) } } else s1
    else { s with power := { took r with missing := tset 0 p.missing key 0 } }
  | none => noted { s with power := missed p }

/-- Polls of a zone below 1,200 A after a warning: ten in succession end the drop; a poll without READ_IOUT, or a substitute for it, breaks the run (R419, R431). -/
def State.pollZone (z : Nat) (s : State) : State :=
  match tget none s.power.zones z with
  | none => s
  | some n =>
    let k := 128 + 0x20 + z
    let read := tget 0 s.power.missing k == 0 || decide (10 ≤ tget 0 s.power.missing k)
    let below := read && decide (tget 0 s.power.current k < 1200 * 65536)
    let n1 := if below then n + 1 else 0
    { s with power := { s.power with zones := tset none s.power.zones z (if n1 ≥ 10 then none else some n1) } }

/-- PMBUS_POLL: every converter is read, and the poll joins the second's averages, summed in 1/65,536 W (R418). -/
def execPmbusPoll (readings : List PmbusAnswer) (s : State) : Out :=
  let s1 := forEach (s.power.intake ++ pmb1Keys) (State.pollOne readings) s
  let sum := fun ks => (ks.map (fun k => tget 0 s1.power.power k)).foldl (· + ·) 0
  let s2 := { s1 with power := { s1.power with
    sumPin := s1.power.sumPin + sum s1.power.intake, sumRail := s1.power.sumRail + sum pmb1Keys, polls := s1.power.polls + 1,
    lastRail := sum pmb1Keys } }
  .next (forEach (List.range 16) State.pollZone s2)

/-! ### Ceilings and the stretch demand (R424, R426) -/

/-- The envelope ceiling of a minute index (R424). -/
def State.envelopeAt (s : State) (minute : Nat) : Option Nat :=
  match s.setting keyEnvelopeMode with
  | 1 => some (s.setting keyEnvelopeConst)
  | 2 => some (s.setting (keyEnvelopeTable (minute % 60)))
  | _ => none

/-- The lower of two limits, either of which may be absent. -/
def lower (a b : Option Nat) : Option Nat :=
  match a, b with
  | some x, some y => some (min x y)
  | some x, none => some x
  | none, y => y

/-- The minute index and second of a time that lies just before `t`. -/
def minuteOf (t : Nat) : Nat := (t - 1) / (60 * 10 ^ 9) % 60
def secondOf (t : Nat) : Nat := (t - 1) / 10 ^ 9 % 60

/-- The effective ceiling judged for the second that ends at `t`: the lower of the envelope ceiling and the thermal cap. -/
def State.judgedCeiling (s : State) (t : Nat) : Option Nat := lower (s.envelopeAt (minuteOf t)) s.thermal.capT

/-- The limit that the controller works to at the end of the second: in mode 2 the next minute's ceiling counts from second 58 on. -/
def State.controlCeiling (s : State) (t : Nat) : Option Nat :=
  if s.setting keyEnvelopeMode = 2 ∧ secondOf t ≥ 58 then
    lower (s.judgedCeiling t) (s.envelopeAt (minuteOf t + 1))
  else s.judgedCeiling t

/-- The stretch that brings a power to 0.98 of a limit (R426). -/
def needStretch (f st p lim : Nat) : Nat :=
  let w := ((f + st) * p * 50 + lim * 49 - 1) / (lim * 49)
  w - f

/-- The power controller's demand (R426): it falls at most F / 8 a second. -/
def State.powerDemand (s : State) (pin rail : Nat) (c : Option Nat) : Nat :=
  let f := s.frameTicks
  let st := s.clock.stretch
  let a := match profileCap s.power.profile with | some cap => needStretch f st rail cap | none => 0
  let b := match c with | some lim => needStretch f st pin lim | none => 0
  let d := max a b
  min (2 ^ 32 - 1) (if d + f / 8 < st then st - f / 8 else d)

/-- The stretch that the two demands call for (R51). -/
def State.stretchDemand (s : State) : Nat := min s.stretchMax (max s.power.demand s.thermal.td)

/-- Schedules the present demand for the first tick at least two frame periods ahead; in a group the manager decides (R52, R426). -/
def State.requestStretch (s : State) : State :=
  if s.leads ∨ s.isWorker then s
  else if s.stretchDemand = s.clock.lastStretch then s
  else { s with clock := s.clock.decide s.stretchDemand (s.now + 2 * s.period) }

/-- The end of the present second (R418). -/
def State.secondEnd (s : State) : Nat :=
  let t := (s.now + 10 ^ 9 - 1) / 10 ^ 9 * 10 ^ 9
  if t ≤ s.power.lastSecond then s.power.lastSecond + 10 ^ 9 else t

/-- Whether an intake power leaves room under a ceiling for the profile above (R430). -/
def roomBelow (p pin : Nat) (c : Option Nat) : Bool :=
  match c, profileCap (p - 1), profileCap p with
  | some x, some hi, some lo => decide (pin * hi * 100 ≤ 95 * x * lo)
  | some x, _, _ => decide (x ≥ 13900)
  | none, _, _ => true

/-- Whether a second meets R430's conditions for a rise from a profile by one. -/
def PastSecond.clean (q : PastSecond) (p : Nat) : Bool :=
  if p = 3 then roomBelow 3 q.pin q.ceiling
  else
    match profileCap (p - 1), profileCap p with
    | some hi, some lo => q.demand == 0 && decide (q.rail * hi * 100 ≤ 95 * hi * lo) && roomBelow p q.pin q.ceiling
    | _, _ => false

/-- Whether each of the last 60 whole seconds meets them (R430). -/
def State.cleanMinute (s : State) : Bool := decide (60 ≤ s.power.past.length) && s.power.past.all (fun q => q.clean s.power.profile)

/-- Whether the next minute's ceiling leaves room for each of the last 60 seconds as well, in mode 2 (R430). -/
def State.nextMinuteOk (s : State) : Bool :=
  s.setting keyEnvelopeMode != 2 || s.power.past.all (fun q => roomBelow s.power.profile q.pin (s.envelopeAt (s.now / (60 * 10 ^ 9) + 1)))

/-- POWER_SECOND: averages, demand, judgement of the second and the minute's sums (R418, R424 to R432). -/
def execPowerSecond (s : State) : Out :=
  let t := s.secondEnd
  let s0 := (s.advanceTo t).closeClockSecond
  let p := s0.power
  let avg := fun x old => if p.polls = 0 then old else (x + p.polls * 65536 - 1) / (p.polls * 65536)
  let pin := avg p.sumPin p.pin
  let rail := avg p.sumRail p.rail
  let d := s0.powerDemand pin rail (s0.controlCeiling t)
  let judged := s0.judgedCeiling t
  let over_ := (match judged with | some c => decide (pin > c) | none => false) ||
    (match profileCap p.profile with | some c => decide (rail > c) | none => false)
  let bad := over_ && decide (d > s0.stretchMax) && !p.reduction && !p.reductionThermal && decide (p.profile < 3)
  let run := if bad then p.overRun + 1 else 0
  let pend := decide (run ≥ 3)
  let past := p.past ++ [{ pin := pin, rail := rail, demand := d, ceiling := judged }]
  let fl := bit p.estimated ||| (if s0.setting keyEnvelopeMode = 2 then 4 else 0) ||| (if s0.thermal.active then 32 else 0) ||| p.minuteFlags
  let s1 := { s0 with power := { p with
    pin := pin, rail := rail, past := past.drop (past.length - 60), sumPin := 0, sumRail := 0, polls := 0, demand := d, noticed := [], lastSecond := t,
    overRun := if pend then 0 else run, reduction := p.reduction || pend, estimated := false, seconds := p.seconds + 1,
    energy := p.energy + pin, railEnergy := p.railEnergy + rail,
    ceiling := (match judged with | some c => if p.ceiling = 0 then c else min p.ceiling c | none => p.ceiling),
    peak := max p.peak pin, overCount := p.overCount + bit over_, worstProfile := max p.worstProfile p.profile, minuteFlags := fl,
    maxStretch := max p.maxStretch s0.clock.stretch } }
  let s2 := if p.demand = 0 ∧ d ≠ 0 then s1.envelopeNotice 1 0 else s1
  let s3 := if d > s2.stretchMax then s2.envelopeNotice 2 0 else s2
  let s4 := if pend then s3.envelopeNotice 3 0 else s3
  let s5 := if over_ then s4.envelopeNotice 6 0 else s4
  .next s5.requestStretch

/-- Whether the panel's step, or its group's, is RUNNING (R431). -/
def State.stepLive (s : State) : Bool := s.isRunning || (decide (1 < s.groupCount) && s.groupLive)

/-- A pending reduction at a tick outside RUNNING: the profile falls by one (R427, R431, R440). -/
def State.reduceAtTick (s : State) : State :=
  if (s.power.reduction || s.power.reductionThermal) && !s.stepLive then
    let s1 := s.enterProfile (min 3 (s.power.profile + 1))
    State.envelopeNotice { s1 with power := { s1.power with reduction := false, reductionThermal := false, overRun := 0 } } 4 0
  else s

/-- The profile rises by one toward the committed PROFILE after 60 clean seconds (R430, R440). -/
def State.riseAtTick (s : State) : State :=
  if s.power.profile > s.setting keyProfile ∧ s.cleanMinute ∧ s.nextMinuteOk ∧ s.stepLive = false ∧
      (s.thermal.tdZeroFrom = 0 ∨ s.thermal.tdZeroFrom + 60 * 10 ^ 9 ≤ s.now) then
    (s.enterProfile (s.power.profile - 1)).envelopeNotice 5 0
  else s

/-- ENERGY_MINUTE: the minute's record; what is in force as the next begins marks that one too; a partial minute, and the one in which the panel started, is INCOMPLETE (R433, Table 12.8). -/
def execEnergyMinute (s : State) : Out :=
  let p := s.power
  let t : Nat := (p.minuteStart / (60 * 10 ^ 9) + 1) * (60 * 10 ^ 9)
  let partial_ := p.seconds < 60 ∨ ((p.minuteStart : Int) ≤ s.boot.startedAt ∧ s.boot.startedAt < (t : Int))
  let fl := p.minuteFlags ||| (if p.ceiling ≠ 0 ∧ p.energy > 60 * p.ceiling then 2 else 0) ||| (if partial_ then 16 else 0)
  let r : EnergyRec :=
    { start := p.minuteStart, energy := p.energy, ceiling := p.ceiling, peak := p.peak, secondsOver := p.overCount,
      profile := max p.worstProfile p.profile, flags := fl, maxStretch := p.maxStretch, railEnergy := p.railEnergy }
  let all := p.records ++ [r]
  let s1 := s.advanceTo t
  .next { s1 with power := { p with
    records := all.drop (all.length - 1440), minuteStart := t, seconds := 0, energy := 0, railEnergy := 0, ceiling := 0, peak := 0,
    minuteFlags := (if s.setting keyEnvelopeMode = 2 then 4 else 0) ||| (if s.thermal.active then 32 else 0), overCount := 0, worstProfile := p.profile, maxStretch := s.clock.stretch } }

/-- Bytes of an energy record (Table 12.8). -/
def energyBytes (r : EnergyRec) : List Byte :=
  toLE 8 r.start ++ toLE 4 r.energy ++ toLE 4 r.ceiling ++ toLE 4 r.peak ++ toLE 2 r.secondsOver ++ toLE 1 r.profile ++
    toLE 1 r.flags ++ toLE 4 r.maxStretch ++ toLE 4 r.railEnergy

/-- ENVELOPE_REPORT (R433, Table 9.10). -/
def runEnvelopeReport (c : Cmd) (s : State) : State :=
  if c.arg 0 8 % 64 ≠ 0 then s.complete c 0x10A (c.at 0) 0
  else if c.arg 8 4 > 1440 then s.complete c 0x102 (c.at 8) 0
  else if c.arg 12 4 ≠ 0 then s.complete c 0x102 (c.at 12) 0
  else
    let rs := s.power.records.reverse.take (c.arg 8 4)
    (s.writeHost (c.arg 0 8) (rs.flatMap energyBytes)).complete c 0 0 rs.length

/-! ### Zones and phases (R421 to R423, R431) -/

/-- ZONE_CURRENT_WARNING: every cluster of the zone drops to its f_floor point (R431). -/
def execZoneCurrentWarning (zone : Nat) (s : State) : Out :=
  if zone ≥ 16 then .next s
  else
    let cs := s.clusters_.filter (fun ci => s.clusterZone ci == zone)
    let s1 := forEach cs (fun ci s => s.protectiveDrop ci (profileFloor s.power.profile)) s
    .next (State.envelopeNotice { s1 with power := { s1.power with zones := tset none s1.power.zones zone (some 0) } } 8 zone)

/-- The unit of a regulator phase (Table 15.2). -/
def State.phaseUnit (s : State) (ci phase : Nat) : Nat := unitId 9 (s.clusterSite ci) (ci % 2 * 8 + phase)

/-- One phase lost (Table 12.6): the cluster drops to its cap; without a capped point in some profile the die is DERATED. -/
def State.loseFirstPhase (s : State) (ci phase : Nat) : State :=
  let u := s.phaseUnit ci phase
  let s1 := s.modCluster ci (fun c => { c with lost := [phase] })
  let derate := [0, 1, 2].any (fun p => (s1.cappedPoints ci p).isEmpty)
  let s2 := s1.protectiveDrop ci (s1.highPoint ci)
  let s3 := s2.countEvent { unit := u, code := 0x1030, cls := 1, aux := 4, flags := flRetired + s.ledgerFlag u 0 0 + (if derate then flDerated else 0),
                            reporter := ci / 2 } false
  { s3 with units := { s3.units with
    due := s3.units.due ++ [(u, 2, 4)] ++ (if derate then [(unitId 2 (s.clusterSite ci) 0, 1, 4)] else []) } }

/-- A second phase lost: the cluster goes dark, the step fails with 0x0409 and the die is retired at once (Table 12.6, R386). -/
def State.loseSecondPhase (s : State) (ci phase : Nat) : State :=
  let die := unitId 2 (s.clusterSite ci) 0
  let s1 := s.modCluster ci (fun c => { c with lost := phase :: c.lost, dark := true })
  let s2 := s1.addError { unit := s.clusterUnit ci, code := 0x1031, cls := 1,
                          flags := flRetired + s.ledgerFlag die 0 0 + (if s.isRunning then flStepFailed else 0), reporter := ci / 2 }
  let s3 := { s2 with units := { s2.units with due := s2.units.due ++ [(s.phaseUnit ci phase, 2, 4)] } }
  (s3.failStep s.step.frame 0x409 0xFFFF 0).retireAtOnce die 4

/-- A phase lost in operation; one that is lost already, or in a dark cluster, changes nothing. -/
def State.losePhase (s : State) (ci phase : Nat) : State :=
  let c := s.cluster ci
  if c.dark ∨ c.lost.contains phase ∨ !s.clusters_.contains ci then s
  else if c.lost = [] then s.loseFirstPhase ci phase else s.loseSecondPhase ci phase

/-- PHASE_LOST: the fourth failed test in a row (R421, Table 12.6). -/
def execPhaseLost (cluster phase : Nat) (s : State) : Out :=
  if cluster ≥ 288 ∨ phase ≥ 8 then .next s else .next (s.losePhase cluster phase)

/-- The tests that a load step makes of a cluster's phases: a failed one is counted, a passed one ends its phase's run; the fourth failure in a row, or the 16th in
24 h, loses the phase (R421, R479, R480). -/
def State.testPhases (s : State) (ci : Nat) (failed : List Nat) : State :=
  let s1 := s.modCluster ci (fun c => { c with phaseFails := c.phaseFails.filter (fun e => failed.contains e.1) })
  forEach (failed.filter (fun ph => decide (ph < 8) && !(s.cluster ci).lost.contains ph)) (fun ph s =>
    let n := tget 0 (s.cluster ci).phaseFails ph + 1
    let s2 := s.modCluster ci (fun c => { c with phaseFails := tset 0 c.phaseFails ph n })
    let e : ErrIn := { unit := s.phaseUnit ci ph, code := 0x1030, cls := 0, aux := n, reporter := ci / 2 }
    if 4 ≤ n ∨ s.turnsPermanent e then s2.losePhase ci ph else s2.countEvent e false) s1

/-- DROOP_EVENT: a droop is counted with the lowest frequency it brought; a shallow one leaves a fixed-mode cluster at its point, which its PLL holds exactly; a deep
one holds the clock, which counts as well (R404 to R406, Table 11.7). The load step tests the cluster's phases (R421). -/
def execDroopEvent (cluster : Nat) (droop : Nat × Bool) (failed : List Nat) (s : State) : Out :=
  if cluster ≥ 288 then .next s
  else
    let f := if droop.2 then droop.1 else if s.fixedMode then s.pointOf cluster
      else max droop.1 (min (profileFloor s.power.profile) (s.pointOf cluster))
    .next ((s.modCluster cluster fun c =>
      { c.noteMhz f with droops := min 65535 (c.droops + 1), holds := if droop.2 then min 255 (c.holds + 1) else c.holds }).testPhases cluster failed)

/-- DERATED_EXPIRY: a die DERATED for 24 h is retired at the first tick outside RUNNING (R423). -/
def execDeratedExpiry (site : Nat) (s : State) : Out :=
  if site ≥ 156 then .next s
  else
    let t := tget 0 s.units.deratedAt site
    if t ≠ 0 then
      let s1 := s.advanceTo (t - 1 + dayNs)
      .next { s1 with units := { s1.units with expired := insertNat site s1.units.expired, deratedAt := tset 0 s1.units.deratedAt site 0 } }
    else .next s

/-- Dies whose 24 h have passed are withdrawn at a tick outside RUNNING (R423). -/
def State.expireAtTick (s : State) : State :=
  if s.isRunning then s
  else forEach s.units.expired (fun p s => s.withdraw (unitId 2 p 0) 4) { s with units := { s.units with expired := [] } }

end Sys2Proof.Machine
end

