-- ==== Sys2Proof/Machine/Thermal.lean ====
section
/-! DEFINITION. Thermal sensing and cooling (13 R434 to R453; 06 R251). Readings are in 1/16 °C. -/

namespace Sys2Proof.Machine

/-- A reading as the 16 bits that registers and records show (R451). -/
def s16 (t : Int) : Nat := (BitVec.ofInt 16 t).toNat

/-! ### Notices (R443, R452) -/

/-- Event 0xE003, at most once per second for each reason, but for a sensor fault, each of which raises it (R436, R443, Table 13.7; DESIGN CHOICE: R443 limits its own four
reasons, 4 and 6 to 8, and the spec says nothing of 1 to 3 and 9 to 11; log entry 131). -/
def State.thermalNotice (s : State) (reason unit value : Nat) : State :=
  if reason ≠ 5 ∧ s.thermal.noticed.contains reason then s
  else State.event { s with thermal := { s.thermal with noticed := reason :: s.thermal.noticed } } 0xE003
    (reason + s.power.profile * 2 ^ 8 + unit * 2 ^ 16 + value % 2 ^ 16 * 2 ^ 48) false

/-! ### Governed readings (R436, R437) -/

/-- A reading within its valid range (Table 13.1). -/
def validIn (lo hi t : Int) : Option Int := if deg lo ≤ t ∧ t ≤ deg hi then some t else none

/-- The highest governed reading of pairs. -/
def State.highest (s : State) (ks : List Nat) : Int :=
  match ks.map (fun k => (s.pair k).governed) with
  | [] => 0
  | x :: xs => xs.foldl max x

/-- Clusters of the four logical neighbours of a die. -/
def State.neighbourClusters (s : State) (d : Nat) : List Nat :=
  let n := 12 * gridRows s.units.gridClass
  ((if d + 12 < n then [d + 12] else []) ++ (if d ≥ 12 then [d - 12] else []) ++ (if d % 12 < 11 then [d + 1] else []) ++
    (if d % 12 > 0 then [d - 1] else [])).flatMap (fun e => [2 * e, 2 * e + 1])

/-- The reading that R437 substitutes. -/
def State.substitute (s : State) (k : Nat) : Int :=
  if k < 288 then
    let o := if k % 2 = 0 then k + 1 else k - 1
    (if (s.pair o).hasReading then (s.pair o).governed else s.highest (s.neighbourClusters (k / 2))) + deg 5
  else if 0x200 ≤ k then
    let o := if k % 2 = 0 then k + 1 else k - 1
    (if (s.pair o).hasReading then (s.pair o).governed else 0) + deg 5
  else if k < 300 then
    s.highest ((ioFaced (k - 288)).flatMap (fun p => [s.pairKey p 0, s.pairKey p 1])) + deg 5
  else s.highest [288 + 6, 288 + 9] + deg 5

/-- A pair that takes a sample: readings, sensor fault, and both readings invalid for 10 ms (R436, R437). -/
def Pair.sampled (p : Pair) (now : Nat) (a b : Option Int) : Pair :=
  let differ := match a, b with | some x, some y => decide (x - y > deg 6 ∨ y - x > deg 6) | _, _ => false
  let ds := if differ then some (p.differSince.getD now) else none
  let one := a.isSome != b.isSome
  let none_ := a.isNone && b.isNone
  let is := if none_ then some (p.invalidSince.getD now) else none
  { p with
    primary := a, secondary := b, differSince := ds, invalidSince := is,
    fault := p.fault || one || (match ds with | some t => decide (now > t + 10 ^ 9) | none => false),
    substituted := p.substituted || (match is with | some t => decide (now ≥ t + 10 ^ 7) | none => false) }

/-- Whether R439 counts a unit's time hot: at 95 °C or more, and for a cluster at its f_floor point or held by R408. -/
def State.countsHot (s : State) (k : Nat) (g : Int) : Bool :=
  decide (g ≥ deg 95) && (decide (k ≥ 288) || s.pointOf k == profileFloor s.power.profile || (s.cluster k).heldHot)

/-- The highest governed reading of the clusters. -/
def State.hottest (s : State) : Int := s.highest s.clusters_

/-- The readings in force at some time of the last 200 ms: those noted in it, and the one that stood as it began. -/
def State.inWindow (s : State) : List (Nat × Int × Nat) :=
  let old := s.thermal.history.filter (fun e => decide (e.1 + 2 * 10 ^ 8 < s.now))
  old.drop (old.length - 1) ++ s.thermal.history.filter (fun e => decide (s.now ≤ e.1 + 2 * 10 ^ 8))

/-- Notes the highest cluster reading with the rail power, keeping the window of 200 ms and the entry before it (R444). -/
def State.noteHottest (s : State) : State :=
  let h := s.hottest
  let kept := s.inWindow
  let same := match kept.getLast? with | some e => e.2 == (h, s.power.lastRail) | none => false
  { s with thermal := { s.thermal with
    history := if same then kept else kept ++ [(s.now, h, s.power.lastRail)],
    hotSum := s.thermal.hotSum + h, samples := s.thermal.samples + 1 } }

/-- Whether the flow is valid, 0 to 200 pulses in a second, and at least so much (R434, R435). -/
def State.flowAtLeast (s : State) (n : Nat) : Bool := decide (n ≤ s.thermal.flow) && decide (s.thermal.flow ≤ 600 * 200)

/-- The minimum flow of the profile in force, in mL/min (Table 13.8). -/
def State.minFlow (s : State) : Nat := match s.power.profile with | 0 => 24000 | 1 => 20000 | 2 => 15000 | _ => 8000

/-- The inlet is valid and within 17 °C to 40 °C. -/
def State.inletOk (s : State) : Bool :=
  match s.thermal.inlet with
  | some t => decide (deg 17 ≤ t ∧ t ≤ deg 40)
  | none => false

/-- The rise condition of R444: more than 1.0 °C within 200 ms with the rail power within 5 %. -/
def State.riseMet (s : State) : Bool :=
  s.inWindow.any fun e =>
    decide (s.hottest > e.2.1 + deg 1) && decide (100 * s.power.lastRail ≤ 105 * e.2.2 ∧ 95 * e.2.2 ≤ 100 * s.power.lastRail)

/-- The conditions of R447 for the end of the coolant-loss response; once PWR_SHDN_N is low the actions last until the rails fall (R448). -/
def State.exitConditions (s : State) : Bool :=
  s.flowAtLeast s.minFlow && s.inletOk && !s.riseMet &&
    (s.clusters_ ++ (List.range 13).map (288 + ·)).all (fun k => decide ((s.pair k).governed < deg 85)) && s.pins.shdnN &&
    (partStacks s.fuses.part).all (fun k => decide ((s.stack k).temp < deg 80))

/-- Follows R447's conditions over time. -/
def State.watchExit (s : State) : State :=
  if s.thermal.active then
    { s with thermal := { s.thermal with exitFrom := if s.exitConditions then some (s.thermal.exitFrom.getD s.now) else none } }
  else s

/-- The notice of an inlet that is invalid or outside 17 °C to 40 °C (R443). -/
def State.inletNotice (s : State) : State :=
  s.thermalNotice 7 0 (match s.thermal.inlet with | some x => s16 x | none => 0x8000)

/-- The lid's thermistors: inlet and outlet (Table 13.1). An inlet outside its range raises the notice whenever a sample finds it so (R443). -/
def State.sampleLid (s : State) (a b : Int) : State :=
  let i := validIn (-10) 100 a
  let s1 := { s with thermal := { s.thermal with
    inlet := i, outlet := validIn (-10) 100 b, inletBad := s.thermal.inletBad || i.isNone,
    inletSum := s.thermal.inletSum + i.getD 0, inletCount := s.thermal.inletCount + (if i.isSome then 1 else 0) } }
  State.watchExit (if s1.inletOk then s1 else s1.inletNotice)

/-- A pair newly in sensor fault: its record and the thermal notice; its unit is retired and in the ledger (R436, R468, Table 15.3). -/
def State.faultRecord (s : State) (k : Nat) (p : Pair) (source : Nat) : State :=
  let show_ := fun (t : Option Int) => match t with | some x => s16 x | none => 0x8000
  let u := s.sensorUnit k
  let s1 := (s.addError { unit := u, code := 0x1040, cls := 1, location := show_ p.primary, aux := show_ p.secondary, flags := flRetired + s.ledgerFlag u 0 0,
                          reporter := if k < 288 then k / 2 else if k < 300 then ioPlace (k - 288) else if k = 300 then hubPlace
                            else 0x300 + (s.pairPlace k).1 }).thermalNotice 5 u (s16 p.governed)
  { s1 with units := { s1.units with due := s1.units.due ++ [(u, 2, source)] } }

/-- A cluster that takes a substituted reading: its die becomes DERATED and runs at f_floor (R437). -/
def State.derateSensor (s : State) (k : Nat) : State :=
  if 288 ≤ k ∧ k < 0x200 then s
  else
    let s1 := if 288 ≤ k then s else forEach [k / 2 * 2, k / 2 * 2 + 1] (fun ci s =>
      (s.protectiveDrop ci (profileFloor s.power.profile)).modCluster ci (fun c => { c with floorOnly := true })) s
    { s1 with units := { s1.units with due := s1.units.due ++ [(unitId 2 (s.pairPlace k).1 0, 1, 4)] } }

/-- SENSOR_SAMPLE of a die pair (R434, R436). -/
def State.samplePair (s : State) (k : Nat) (a b : Int) : State :=
  let p := s.pair k
  let q := p.sampled s.now (validIn (-20) 150 a) (validIn (-20) 150 b)
  let g := if q.substituted then s.substitute k else q.govern
  let q1 := { q with
    governed := g, hotSince := if s.countsHot k g then some (p.hotSince.getD s.now) else none,
    hardRun := if !q.hasReading && !q.substituted then p.hardRun else if g ≥ deg 105 then p.hardRun + 1 else 0 }
  let s1 := s.setPair k q1
  let s2 := if q1.fault && !p.fault then s1.faultRecord k q1 4 else s1
  let s3 := if q1.substituted && !p.substituted then s2.derateSensor k else s2
  State.watchExit (if k < 288 then s3.noteHottest else s3)

/-- SENSOR_SAMPLE: pairs 0 to 287 clusters, 288 to 299 I/O dies, 300 the hub; 301 stands for the lid's inlet and outlet, and 0x200 + 2p + cluster for a cluster
of a site that holds no logical die (log entry 28). -/
def execSensorSample (pair : Nat) (primary secondary : Int) (s : State) : Out :=
  if pair < 301 ∨ (0x200 ≤ pair ∧ pair < 0x200 + 312 ∧ s.dieAt ((pair - 0x200) / 2) = none) then .next (s.samplePair pair primary secondary)
  else if pair = 301 then .next (s.sampleLid primary secondary)
  else .next s

/-- The rows of a pseudo-channel whose faults are permanent (Table 15.1). -/
def State.permanentRows (s : State) (stack pc : Nat) : Nat :=
  (s.units.permanent.filter (fun a => a / 2 ^ 32 == dramRow stack pc 0 / 2 ^ 32)).length

/-- One error that a stack's controller reports, at the HBM byte address of a burst: 0 corrected by its code, 1 corrected on the die, 2 uncorrected. Each
counts against the burst's row of its pseudo-channel; an uncorrected one leaves its unit poisoned, and four permanent rows of a
pseudo-channel make it permanent, which its I/O die marks (R230, R252, R385, Table 15.1). The spec does not say how
units share a DRAM row: a unit's turn in its pseudo-channel stands for it (log entry 110). -/
def State.hbmError (s : State) (stack : Nat) (e : Nat × Nat) : State :=
  match hbmPlace s.fuses.part e.1 with
  | none => s
  | some (k, pc, turn) =>
    if k ≠ stack ∨ e.2 > 2 then s
    else
      let a := e.1 / 512 * 512
      let x : ErrIn :=
        { unit := unitId 5 stack (0x100 + pc), code := if e.2 = 2 then 0x1004 else 0x1003, cls := 0, location := a, aux := bit (e.2 == 1),
          reporter := ioPlace (stack / 2), key := some (dramRow stack pc turn), repairs := true, action := 3, detail := turn,
          flags := if e.2 = 2 then flPoisoned + s.poisonFlags (.hbm (s.resolveHbm a)) else 0 }
      let s1 := (if e.2 = 2 then s.markPoison (hbmAddr a) true else s).countEvent x false
      if s.turnsPermanent x ∧ s1.permanentRows stack pc = 4 then
        (s1.addError { unit := x.unit, code := 0x1005, cls := 1, aux := pc, reporter := x.reporter, flags := flRetired }).markUnit x.unit 0x1005
          (unitId 3 (stack / 2) 0)
      else s1

/-- HBM_TEMPERATURE_READ: what the controller has found in its data is counted, on-die ECC's reports among it (R247, R252); then the stack's temperature and its refresh rate; invalid for 10 ms it reads 86 °C (R251, R437). -/
def execHbmTemperatureRead (stack : Nat) (reading : Int) (errors : List (Nat × Nat)) (s : State) : Out :=
  if !(partStacks s.fuses.part).contains stack then .next s
  else
    let s := forEach errors (fun e s => s.hbmError stack e) s
    let k := s.stack stack
    let v := validIn (-20) 125 reading
    let since := if v.isNone then some (k.invalidSince.getD s.now) else none
    let taken := match v, since with
      | some t, _ => t
      | none, some t0 => if s.now ≥ t0 + 10 ^ 7 then deg 86 else k.temp
      | none, none => k.temp
    let dbl := if taken > deg 85 then true else if taken ≤ deg 82 then false else k.doubled
    let k1 := { k with
      temp := taken, valid := v.isSome, invalidSince := since, doubled := dbl,
      hotSince := if taken ≥ deg 90 then some (k.hotSince.getD s.now) else none,
      hardRun := if v.isNone && taken == k.temp then k.hardRun else if taken ≥ deg 95 then k.hardRun + 1 else 0 }
    let s1 := s.setStack stack k1
    .next (State.watchExit (if dbl && !k.doubled then s1.thermalNotice 9 (unitId 5 stack 0) (s16 taken) else s1))

/-- FLOW_PULSE (R435); the pin is not sampled without AUX (R527). -/
def execFlowPulse (s : State) : Out :=
  if !s.pins.aux then .next s
  else .next { s with thermal := { s.thermal with pulses := s.thermal.pulses + 1, lastPulse := s.now } }

/-! ### Stretch demand and throttling (R438 to R440) -/

/-- The time of the present update of td: a multiple of 100 ms (R439). -/
def State.tdTime (s : State) : Nat :=
  let t := (s.now + 10 ^ 8 - 1) / 10 ^ 8 * 10 ^ 8
  if t ≤ s.thermal.tdAt then s.thermal.tdAt + 10 ^ 8 else t

/-- Whether a unit has been hot throughout the last 100 ms. -/
def hotThroughout (now : Nat) (since : Option Nat) : Bool := match since with | some t => decide (t + 10 ^ 8 ≤ now) | none => false

/-- THERMAL_DEMAND_UPDATE (R439, R440). -/
def execThermalDemandUpdate (s : State) : Out :=
  let t := s.tdTime
  let s0 := s.advanceTo t
  let ks := s0.clusters_ ++ (List.range 13).map (288 + ·)
  let st := partStacks s0.fuses.part
  let hot := ks.any (fun k => hotThroughout t (s0.pair k).hotSince) || st.any (fun k => hotThroughout t (s0.stack k).hotSince)
  let cool := ks.all (fun k => decide ((s0.pair k).governed < deg 93)) && st.all (fun k => decide ((s0.stack k).temp < deg 87))
  let step := s0.frameTicks / 16
  let old := s0.thermal.td
  let td := if hot then min (2 ^ 32 - 1) (old + step) else if cool then old - min old step else old
  let ex := if td > s0.stretchMax then s0.thermal.exceed + 1 else 0
  let pend := decide (ex ≥ 30) && !s0.power.reduction && !s0.power.reductionThermal && decide (s0.power.profile < 3)
  let s1 := forEach ks (fun k s => s.setPair k { s.pair k with countedHot := hotThroughout t (s.pair k).hotSince }) s0
  let s2 := { s1 with
    thermal := { s1.thermal with td := td, tdAt := t, exceed := if pend then 0 else ex, tdZeroFrom := if td = 0 then s1.thermal.tdZeroFrom else t },
    power := { s1.power with reductionThermal := s1.power.reductionThermal || pend } }
  let s3 := if old = 0 ∧ td ≠ 0 then s2.thermalNotice 2 0 0 else s2
  let s4 := if td > s3.stretchMax then s3.thermalNotice 3 0 0 else s3
  let s5 := if pend then s4.thermalNotice 11 0 0 else s4
  .next s5.requestStretch

/-- The next lower point of those that a cluster may take: of its capped set where it has lost a phase (R450). -/
def State.pointBelow (s : State) (ci : Nat) : Option Nat :=
  let p := s.power.profile
  ((if (s.cluster ci).lost = [] then profilePoints p else s.cappedPoints ci p).filter (fun m => decide (m < s.pointOf ci))).getLast?

/-- R438 for one cluster at a frame tick: a request one point lower at 95 °C, one higher at 92 °C after it was lowered. A cluster that a protective drop has brought to
its lowest point is asked to stay there, so that it does not rise when the drop ends (R409, R450). -/
def State.throttle (s : State) (ci : Nat) : State :=
  let g := (s.pair ci).governed
  let cur := s.pointOf ci
  let c := s.cluster ci
  if s.power.profile = 3 then s
  else if g ≥ deg 95 then
    match (s.pointBelow ci).or (if c.protective then some cur else none) with
    | none => s
    | some next => (s.modCluster ci (fun c => { c with want := some next, lowered := true })).thermalNotice 1 (s.clusterUnit ci) (s16 g)
  else if g ≤ deg 92 ∧ c.lowered then
    let next := s.stepPoint (c.want.getD cur) (s.highPoint ci)
    if next ≥ s.highPoint ci then s.modCluster ci (fun c => { c with want := none, lowered := false })
    else s.modCluster ci (fun c => { c with want := some next })
  else s

/-! ### Thermal resistance and cap (R441 to R443) -/

/-- Rated θ at a flow in mL/min, in 10⁻⁹ °C/kW: linear between the rows of Table 13.8, the end rows' values beyond them (log entry 29). -/
def ratedTheta (flow : Nat) : Int :=
  let line := fun (x0 x1 : Nat) (y0 y1 : Int) => y0 + (y1 - y0) * ((flow : Int) - x0) / ((x1 : Int) - x0)
  let m : Int := 10 ^ 8
  if flow ≤ 15000 then 36 * m
  else if flow ≤ 20000 then line 15000 20000 (36 * m) (31 * m)
  else if flow ≤ 24000 then line 20000 24000 (31 * m) (28 * m)
  else if flow ≤ 32000 then line 24000 32000 (28 * m) (25 * m)
  else 25 * m

/-- The end of the present second for the thermal controller. -/
def State.thermalEnd (s : State) : Nat :=
  let t := (s.now + 10 ^ 9 - 1) / 10 ^ 9 * 10 ^ 9
  if t ≤ s.thermal.lastSecond then s.thermal.lastSecond + 10 ^ 9 else t

/-- THERMAL_SECOND: flow, θs, θ, CapT and the notices of R443 (R435, R441, R442). A divisor of zero leaves CapT a free value (log entry 35). -/
def execThermalSecond (s : State) : Out :=
  let t := s.thermalEnd
  let s0 := s.advanceTo t
  let h := s0.thermal
  let n : Int := h.samples
  let bad := h.inletBad || h.inletCount == 0
  let inSum : Int := if bad then deg 40 else h.inletSum
  let inN : Int := if bad then 1 else h.inletCount
  let rail : Int := s0.power.rail
  let pin : Int := s0.power.pin
  let ths := if rail < 3000 ∨ n = 0 then h.thetas
    else h.thetas ++ [(h.hotSum * inN - inSum * n) * 10 ^ 12 / (16 * n * inN * rail)]
  let ths := ths.drop (ths.length - 60)
  let theta := if ths.length = 60 then some (ths.foldl (· + ·) 0 / 60) else none
  let cap := match theta with
    | some x => some (max 3000 (if x = 0 ∨ rail = 0 then ((Config.freeWord s0.free).toNat : Int)
        else Int.fdiv ((92 * 16 * inN - inSum) * 10 ^ 12 * pin) (16 * inN * x * rail))).toNat
    | none => none
  let flow := 600 * h.pulses
  let s1 := { s0.takeFree 1 with thermal := { h with
    pulses := 0, flow := flow, inletBad := false, inletSum := 0, inletCount := 0, hotSum := 0, samples := 0, thetas := ths,
    theta := theta, capT := cap, lastSecond := t, noticed := [] } }
  let s2 := if flow < s1.minFlow ∧ flow ≤ 600 * 200 then s1.thermalNotice 6 0 (flow / 100) else s1
  let s3 := if s2.inletOk then s2 else s2.inletNotice
  let s4 := match theta with
    | some x => if 10 * x > 11 * ratedTheta flow ∧ flow ≤ 600 * 200 then s3.thermalNotice 8 0 (x / 10 ^ 7).toNat else s3
    | none => s3
  let s5 := match cap, s4.envelopeAt (minuteOf (t + 1)) with
    | some c, some e => if c < e then s4.thermalNotice 4 0 (c / 10) else s4
    | _, _ => s4
  .next s5.watchExit

/-! ### Sudden loss of coolant and hard limits (R444 to R449) -/

/-- The actions of Table 13.2 that follow detection: clusters held, stacks in self-refresh, the event and the record, host pieces ended
with 0x020C, planned transfers with ERR 0x03, a load that has begun writing stopped (Table 13.4), and the running step failed with 0x040A. -/
def State.beginResponse (s : State) (condition : Nat) : State :=
  let s1 := forEach s.clusters_ (fun ci s => s.modCluster ci (fun c => { c with held := true })) s
  let s2 := forEach (partStacks s.fuses.part) (fun k s => s.setStack k { s.stack k with selfRefresh := true }) s1
  let s3 := { s2 with
    thermal := { s2.thermal with active := true, gatedTick := false, exitFrom := none },
    power := { s2.power with minuteFlags := s2.power.minuteFlags ||| 32 },
    ioDies := s2.ioDies.map (fun (d : Nat × IoDie) => (d.1, { d.2 with
      channels := d.2.channels.map (fun (c : Nat × Channel) => (c.1, { c.2 with running := c.2.running.map (fun (r : Running) => { r with err := 3 }) })) })) }
  let s4 := (s3.event 0xE005 0 true).addError { unit := hubUnit, code := 0x1080, cls := 3, location := condition }
  let s5 := forEach (s4.cmds.xfers.filter (fun x => x.pieces.any (fun p => p.running))) (fun x s => s.abortXfer x 0x20C 3) s4
  s5.stopLoad.failStep s5.step.frame 0x40A 0xFFFF 0

/-- COOLANT_LOSS_DETECT: condition 1 no pulse for 500 ms, condition 2 the unexplained rise (R444). -/
def execCoolantLossDetect (condition : Nat) (s : State) : Out :=
  if !s.thermal.armed ∨ s.thermal.active then .next s
  else if condition = 1 then .next ((s.advanceTo (s.thermal.lastPulse + 5 * 10 ^ 8)).beginResponse 1)
  else if condition = 2 ∧ s.riseMet then .next (s.beginResponse 2)
  else .next s

/-- Challenges that the response held go out (R335). -/
def State.restartChallenges (s : State) : State :=
  { s with ports := s.ports.map (fun (e : Nat × Port) =>
    (e.1, if e.2.challengeHeld then { e.2 with challengeHeld := false, challenge := e.2.challenge.map (fun c => (c.1, s.now)) } else e.2)) }

/-- The response at a frame tick: clusters gated at the first, and its end once R447's conditions have held for 10 s. -/
def State.responseAtTick (s : State) : State :=
  if !s.thermal.active then s
  else
    let s1 := s.watchExit
    match s1.thermal.exitFrom with
    | some t =>
      if t + 10 ^ 10 ≤ s1.now then
        let s2 := forEach s1.clusters_ (fun ci s => s.modCluster ci (fun c => { c with held := false })) s1
        let s3 := forEach (partStacks s2.fuses.part) (fun k s => s.setStack k { s.stack k with selfRefresh := false }) s2
        let s4 := State.restartChallenges { s3 with thermal := { s3.thermal with
          active := false, gatedTick := false, exitFrom := none, thetas := [], theta := none, capT := none, heldMode := none, heldProfile := none } }
        (match s3.thermal.heldProfile with | some p => s4.commitProfile p | none => s4).thermalNotice 10 0 0
      else { s1 with thermal := { s1.thermal with gatedTick := true } }
    | none => { s1 with thermal := { s1.thermal with gatedTick := true } }

/-- The governed reading and the run of samples at the hard limit of a unit: a cluster, an I/O die, the hub or a stack (Table 13.3). -/
def State.hardRunOf (s : State) (u : Nat) : Option (Int × Nat) :=
  let pick := fun (k : Nat) => some ((s.pair k).governed, (s.pair k).hardRun)
  match unitKind u with
  | 1 => pick (s.pairKey (unitSite u) (unitSub u % 2))
  | 3 => if unitSite u < 12 then pick (288 + unitSite u) else none
  | 4 => pick 300
  | 5 => if unitSite u < 24 then some ((s.stack (unitSite u)).temp, (s.stack (unitSite u)).hardRun) else none
  | _ => none

/-- Whether a unit's hard limit is armed: the hub's from stage 0x01 on, every other's from stage 0x10 on (Table 14.8). -/
def State.hardArmed (s : State) (u : Nat) : Bool :=
  let c := if unitKind u = 4 then 1 else 0x10
  (s.boot.running ++ s.boot.done).any (fun r => decide (c ≤ r.1)) || s.boot.halt.any (fun h => decide (c ≤ h))

/-- HARD_LIMIT: two successive samples at the limit write the shutdown record, drive PWR_SHDN_N low and begin the actions of
Table 13.2 (R448, R449). -/
def execHardLimit (unit : Nat) (reading : Int) (s : State) : Out :=
  match s.hardRunOf unit with
  | none => .next s
  | some r =>
    if r.2 ≥ 2 ∧ r.1 = reading ∧ s.pins.shdnN ∧ s.hardArmed unit then
      let s1 := { s with pins := { s.pins with shutdown := some (unit, reading, s.now), shdnN := false } }
      .next (if s1.thermal.active then s1 else s1.beginResponse 0)
    else .next s

/-! ### HEALTH_SENSORS (R410, R451) -/

/-- A reading or 0x8000. -/
def shownReading (t : Option Int) : Nat := match t with | some x => s16 x | none => 0x8000

/-- A pair's governed reading, where one exists (R436, R437). -/
def Pair.shown (p : Pair) : Option Int := if p.hasReading || p.substituted then some p.governed else none

/-- One entry of Table 13.6; `unused` beyond the grid class. -/
def State.pairEntry (s : State) (k : Nat) (unused : Bool) : List Byte :=
  let p := s.pair k
  if unused then List.replicate 6 0 ++ toLE 2 16
  else
    toLE 2 (shownReading p.primary) ++ toLE 2 (shownReading p.secondary) ++ toLE 2 (shownReading p.shown) ++
      toLE 2 (bit p.fault + 2 * bit (decide (k < 288) && (s.cluster k).lowered) + 4 * bit p.countedHot + 8 * bit (!p.hasReading))

/-- One stack entry of Table 13.5. -/
def State.stackEntry (s : State) (k : Nat) : List Byte :=
  let x := s.stack k
  let there := (partStacks s.fuses.part).contains k
  if !there then toLE 4 (0x8000 + 2 ^ 19)
  else toLE 4 (shownReading (if x.valid then some x.temp else none) + bit x.doubled * 2 ^ 16 + bit (!x.valid) * 2 ^ 17 + bit (s.stackRetired k) * 2 ^ 18)

/-- The lowest index of the hottest cluster. -/
def State.hottestIndex (s : State) : Nat := (s.clusters_.find? (fun k => (s.pair k).governed == s.hottest)).getD 0

/-- The sensor block of Table 13.5, 4,872 B. -/
def State.sensorBlock (s : State) : List Byte :=
  let h := s.thermal
  let n := 24 * gridRows s.units.gridClass
  let ks := List.range n ++ (List.range 13).map (288 + ·)
  let faults := (ks.filter (fun k => (s.pair k).fault)).length
  let fl := bit h.active + 2 * bit (decide (h.flow < s.minFlow)) + 4 * bit (!s.inletOk) + 8 * bit (decide (faults > 0)) +
    16 * bit ((partStacks s.fuses.part).any (fun k => (s.stack k).doubled)) + 32 * bit s.power.reductionThermal
  toLE 8 s.now ++ toLE 4 h.flow ++ toLE 2 (shownReading h.inlet) ++ toLE 2 (shownReading h.outlet) ++
    toLE 4 (match h.theta with | some x => (x / 10 ^ 6).toNat | none => 0xFFFFFFFF) ++
    toLE 4 (match h.theta, h.capT with | some _, some c => c | _, _ => 0xFFFFFFFF) ++ toLE 4 h.td ++
    toLE 2 s.hottestIndex ++ toLE 2 (shownReading (s.pair s.hottestIndex).shown) ++ toLE 4 fl ++ toLE 2 faults ++ List.replicate 26 0 ++
    (List.range 288).flatMap (fun k => s.pairEntry k (decide (k ≥ n))) ++
    (List.range 13).flatMap (fun i => s.pairEntry (288 + i) false) ++
    (List.range 24).flatMap s.stackEntry ++
    (List.range 288).flatMap (fun k => if k < n then toLE 8 (s.clockWord k) else List.replicate 8 0)

/-- HEALTH_SENSORS (R451). -/
def runHealthSensors (c : Cmd) (s : State) : State :=
  if c.arg 0 8 % 64 ≠ 0 then s.complete c 0x10A (c.at 0) 0
  else (s.writeHost (c.arg 0 8) s.sensorBlock).complete c 0 0 4872

end Sys2Proof.Machine
end

