-- ==== Sys2Proof/Machine/Health.lean ====
section
/-! DEFINITION. The query commands that report state: INFO, and the health commands for errors, congestion, ports and units (07 R294,
R295; 08 R310; 09 Table 9.10, Table 9.11; 10 R388; 15 R485, R487). -/

namespace Sys2Proof.Machine

/-- Writes a block at the HOST_ADDR of an 8-byte payload and completes with its length (R353). While the link is down the write shows in host memory at once and its
frames wait; R342 speaks of transfers alone (DESIGN CHOICE: log entry 126). -/
def State.reportTo (s : State) (c : Cmd) (a : Nat) (bytes : List Byte) : State :=
  (s.writeHost a bytes).complete c 0 0 bytes.length

/-! ### INFO (Table 9.11) -/

/-- STEP_STATE. -/
def stepCode : StepState → Nat
  | .noPlan => 0
  | .idle => 1
  | .running => 2
  | .awaitCommit => 3
  | .failed => 4
  | .failedFinal => 5

/-- A number with bit p set for each p of a list. -/
def bitsAt (ps : List Nat) : Nat := (ps.map (2 ^ ·)).foldl (· + ·) 0

/-- FLAGS: plan over budget, coolant-loss response, group joined. -/
def State.infoFlags (s : State) : Nat :=
  bit (s.plan.any (·.overBudget)) + 2 * bit s.thermal.active + 4 * bit (if s.leads then s.allJoined else s.group.selfJoined)

/-- The INFO block. -/
def State.infoBlock (s : State) : List Byte :=
  toLE 2 (partCode s.fuses.part) ++ toLE 2 s.units.gridClass ++ toLE 1 (stepCode s.shownState) ++ toLE 1 s.power.profile ++
    toLE 1 (bit s.fixedMode) ++ toLE 1 s.infoFlags ++ toLE 8 s.enabledHbm ++ toLE 8 (bitsAt s.enabledPorts) ++
    toLE 8 ((s.plan.map (·.planId)).getD 0) ++ toLE 8 s.step.stepIndex ++ toLE 8 s.now ++ toLE 4 s.frameTicks ++
    toLE 4 s.stretchMax ++ toLE 2 s.groupSlot ++ List.replicate 6 0

/-- INFO. -/
def runInfo (c : Cmd) (s : State) : State :=
  if c.arg 0 8 % 64 ≠ 0 then s.complete c 0x10A (c.at 0) 0 else s.reportTo c (c.arg 0 8) s.infoBlock

/-! ### HEALTH_ERRORS (Table 15.4, R487) -/

/-- The bytes of an error record. -/
def errBytes (e : ErrRec) : List Byte :=
  toLE 4 e.unit ++ toLE 2 e.code ++ toLE 1 e.cls ++ toLE 1 0 ++ toLE 8 e.timebase ++ toLE 4 e.count ++ toLE 4 e.seq ++
    toLE 8 e.stepIndex ++ toLE 4 e.frame ++ toLE 4 e.cycle ++ toLE 8 e.location ++ toLE 8 e.aux ++ toLE 2 e.slot ++
    toLE 2 e.reporter ++ toLE 4 e.flags

/-- After space has returned, one LOG_OVERFLOW record gives the number dropped (R487). -/
def State.noteOverflow (s : State) : State :=
  if s.units.dropped = 0 ∨ s.units.errors.length ≥ 4096 then s
  else State.addError { s with units := { s.units with dropped := 0 } }
    { unit := hubUnit, code := 0x1071, cls := 3, location := s.units.dropped }

/-- HEALTH_ERRORS: up to MAX records, oldest first; CONSUME removes them; issuing it lets 0xE001 be raised again (R363). A
misaligned HOST_ADDR is named before a reserved bit, here and in every query (DESIGN CHOICE: R353 gives no order; log entry 105). -/
def runHealthErrors (c : Cmd) (s : State) : State :=
  if c.arg 0 8 % 64 ≠ 0 then s.complete c 0x10A (c.at 0) 0
  else if bitsOf (c.arg 12 4) 31 1 ≠ 0 then s.complete c 0x102 (c.at 12) 0
  else
    let es := s.units.errors.take (c.arg 8 4)
    let s1 := { s.writeHost (c.arg 0 8) (es.flatMap errBytes) with units := { s.units with
      raised := false,
      errors := if (c.arg 12 4).testBit 0 then s.units.errors.drop (c.arg 8 4) else s.units.errors } }
    (s1.complete c 0 0 es.length).noteOverflow

/-! ### HEALTH_CONGESTION (R294, R295) -/

/-- The congestion map of Table 7.11, with the grid class at its assembly; dies outside it have zero entries. -/
def State.congestionMap (s : State) : List Byte :=
  let f := s.fabric
  let n := 40 * 12 * gridRows f.mapGrid
  toLE 8 f.mapTime ++ toLE 4 f.mapFrames ++ toLE 2 f.mapGrid ++ toLE 2 5760 ++ List.replicate 48 0 ++
    (List.range 5760).flatMap (fun i => if i < n then toLE 4 (tget 0 f.mapMax i) ++ toLE 4 (tget 0 f.mapSum i) else List.replicate 8 0)

/-- HEALTH_CONGESTION. -/
def runHealthCongestion (c : Cmd) (s : State) : State :=
  if c.arg 0 8 % 64 ≠ 0 then s.complete c 0x10A (c.at 0) 0 else s.reportTo c (c.arg 0 8) s.congestionMap

/-- The counts of the routers of the logical dies, by die (R294, Table 7.11). -/
def State.byDie (s : State) (t : Tab Nat) : Tab Nat :=
  t.foldl (fun (acc : Tab Nat) (e : Nat × Nat) => match s.dieAt (e.1 / 40) with | some d => tset 0 acc (d * 40 + e.1 % 40) e.2 | none => acc) []

/-- CONGESTION_MAP_ASSEMBLE: once every second of timebase the die agents' maxima and sums become the map, which carries the end of the second that it
covers: the last that has passed since the map before, else the one that now ends (R295). -/
def execCongestionMapAssemble (s : State) : Out :=
  if !s.clock.counting then .next s
  else
    let t := if s.now ≥ (s.fabric.mapTime / 10 ^ 9 + 1) * 10 ^ 9 then s.now / 10 ^ 9 * 10 ^ 9 else (s.now / 10 ^ 9 + 1) * 10 ^ 9
    let s1 := s.advanceTo t
    .next { s1 with
      fabric := { s1.fabric with mapTime := t, mapGrid := s1.units.gridClass, mapFrames := s1.clock.ticksThisSecond, mapMax := s1.byDie s1.fabric.stallMax,
                                 mapSum := s1.byDie s1.fabric.stallSum, stallMax := [], stallSum := [] },
      clock := { s1.clock with ticksThisSecond := 0 } }

/-! ### HEALTH_PORTS (R310) -/

/-- The status word of a port (Table 8.6). -/
def State.portWord (s : State) (p : Nat) : Nat :=
  let q := s.port p
  q.state + q.width * 2 ^ 3 + q.laneRetired.toNat * 2 ^ 8 + s.portDir p * 2 ^ 16 + q.peerSlot * 2 ^ 20 + min 1023 q.delayNs * 2 ^ 32 +
    q.peerPort * 2 ^ 42 + q.replays * 2 ^ 48

/-- HEALTH_PORTS. -/
def runHealthPorts (c : Cmd) (s : State) : State :=
  if c.arg 0 8 % 64 ≠ 0 then s.complete c 0x10A (c.at 0) 0
  else s.reportTo c (c.arg 0 8) ((List.range 64).flatMap (fun p => toLE 8 (s.portWord p)))

/-! ### HEALTH_UNITS (R388) -/

/-- The units that enclose a unit. -/
def enclosing (u : Nat) : List Nat :=
  let p := unitSite u
  match unitKind u with
  | 0 => [unitId 1 p (unitSub u / 8), unitId 2 p 0]
  | 1 => [unitId 2 p 0]
  | 9 => if (unitSub u).testBit 4 then [unitId 2 p 0] else [unitId 1 p (bitsOf u 3 3), unitId 2 p 0]
  | 10 => match bitsOf u 19 16 with
    | 0 => [unitId 1 p (bitsOf u 0 0), unitId 2 p 0]
    | 1 => [unitId 3 p 0]
    | _ => []
  | 7 => if bitsOf u 19 18 ≤ 1 then [unitId 6 p 0, unitId 8 (p / 8) 0] else []
  | 6 => if p < 64 then [unitId 8 (p / 8) 0] else []
  | _ => []

/-- The entries that HEALTH_UNITS lists: not USABLE and within no listed unit, at most 4,096. -/
def State.listedUnits (s : State) : List (Nat × UnitEntry) :=
  let bad := s.units.table.filter (fun e => e.2.state != 0)
  (bad.filter (fun e => !(enclosing e.1).any (fun v => bad.any (fun b => b.1 == v)))).take 4096

/-- Header and entries of Tables 10.10 and 10.11. -/
def State.unitsBlock (s : State) : List Byte :=
  let es := s.listedUnits
  toLE 8 s.units.versionTick ++ toLE 4 s.units.version ++ toLE 4 es.length ++ toLE 2 s.units.gridClass ++
    toLE 2 (bitsAt (s.badRowList false)) ++ List.replicate 12 0 ++
    es.flatMap (fun e => toLE 4 e.1 ++ toLE 1 e.2.state ++ toLE 1 e.2.source ++ toLE 2 0 ++ toLE 8 e.2.since)

/-- HEALTH_UNITS. -/
def runHealthUnits (c : Cmd) (s : State) : State :=
  if c.arg 0 8 % 64 ≠ 0 then s.complete c 0x10A (c.at 0) 0 else s.reportTo c (c.arg 0 8) s.unitsBlock

end Sys2Proof.Machine
end

