-- ==== Sys2Proof/Machine/SecurityCmds.lean ====
section
/-! DEFINITION. Identity, firmware images, the owner policy, the debug port's unlock and attestation (16 R498 to R515; 14 R467). -/

namespace Sys2Proof.Machine

/-! ### Identity (R501, R502) -/

/-- A signature block made with the identity key over a digest (R499), hedged with a fresh draw of the free counter (R498). -/
def State.identityBlock (s : State) (digest : List Byte) : List Byte := signBlock s.identitySeed digest (4 * s.free)

/-- The bytes of a fused key identifier. -/
def keyIdBytes (k : BitVec 512) : List Byte := toLE 64 k.toNat

/-- Whether a signature block verifies under the key of a fused identifier: a key that the hub holds and whose digest the identifier is (R499, R500). -/
def State.blockOkId (s : State) (keyId : BitVec 512) (digest block : List Byte) : Bool :=
  match s.fuses.keys.find? (fun k => digest64 k == keyIdBytes keyId) with
  | none => false
  | some k => blockOk k digest block

/-- A certificate's public key, issuer, signed digest and signature block (Table 16.3). -/
def certKey (cert : List Byte) : List Byte := (cert.drop 0x80).take 1952
def certIssuer (cert : List Byte) : List Byte := (cert.drop 0x20).take 64
def certDigest (cert : List Byte) : List Byte := digest64 (cert.take 0x820)
def certBlock (cert : List Byte) : List Byte := (cert.drop 0x820).take 3376

/-- The device CA's certificate. -/
def State.caCert (s : State) : List Byte := fitBytes 5456 s.fuses.deviceCaCert

/-- The identity certificate (R502, Table 16.3): the panel's part, stepping, serial and key, issued by the device CA (R537). -/
def State.identityCert (s : State) : List Byte :=
  toLE 4 0x54524347 ++ toLE 2 1 ++ toLE 2 2 ++ toLE 8 s.fuses.certSerial ++ toLE 8 s.fuses.certFrom ++ toLE 8 s.fuses.certTo ++
    digest64 (certKey s.caCert) ++ toLE 2 (partCode s.fuses.part) ++ toLE 1 s.fuses.stepping.toNat ++ List.replicate 13 0 ++
    fitBytes 16 s.fuses.panelSerial ++ fitBytes 1952 s.identityPublic ++ fitBytes 3376 s.fuses.certBlock

/-- A chain: identity certificate, then device CA certificate, 10,912 B (R502). -/
def State.chain (s : State) : List Byte := s.identityCert ++ s.caCert

/-- CERT_READ: the panel's chain (R502). -/
def runCertRead (c : Cmd) (s : State) : State :=
  if c.arg 0 8 % 64 ≠ 0 then s.complete c 0x10A (c.at 0) 0
  else if c.arg 12 4 ≠ 0 then s.complete c 0x102 (c.at 12) 0
  else if c.arg 8 4 < 10912 then s.complete c 0x108 (c.at 8) 0
  else s.reportTo c (c.arg 0 8) s.chain

/-! ### Tolni images (R505 to R508) -/

/-- The three sections of an image: offset and length (Table 16.4). -/
def tolniSections (img : Img) : List (Nat × Nat) := [0x20, 0x30, 0x40].map (fun o => (field img o 8, field img (o + 8) 8))

/-- Whether two sections share a byte; an empty one shares none. -/
def overlap (a b : Nat × Nat) : Bool := decide (max a.1 b.1 < min (a.1 + a.2) (b.1 + b.2))

/-- Check 1 of R506; an image is at most 16 MiB (R529). -/
def tolniHeaderOk (img : Img) : Bool :=
  let dg := field img 0x10 8
  let ss := tolniSections img
  decide (field img 0 4 = 0x4E4C4F54) && decide (field img 4 2 = 1) && decide (field img 6 2 ≤ 63) && decide (field img 0x0E 2 ≤ 1) &&
    decide (dg % 16 = 0) && decide (0x100 ≤ dg) && decide (field img 0x18 8 = dg + 64 + 3376) && decide (img.length = field img 0x18 8) && decide (img.length ≤ 2 ^ 24) &&
    (nonZero img 0x50 0x100).isEmpty && ss.all (fun e => decide (0x100 ≤ e.1 ∧ e.1 + e.2 ≤ dg)) &&
    (match ss with
     | [a, b, c] => !overlap a b && !overlap a c && !overlap b c
     | _ => false)

/-- The image digest of R505 and the signature block behind it. -/
def tolniDigest (img : Img) : List Byte := (img.drop (field img 0x10 8)).take 64
def tolniBlock (img : Img) : List Byte := (img.drop (field img 0x10 8 + 64)).take 3376

/-- The bytes of section i: 0 Tolni, 1 die-agent firmware, 2 microcode. -/
def tolniSection (img : Img) (i : Nat) : List Byte :=
  let e := (tolniSections img).getD i (0, 0)
  (img.drop e.1).take e.2

/-- The checks of R506 in order: the first failing status. The block signs the digest of every byte that precedes it (R499). -/
def State.imageFail (s : State) (img : Img) : Option Nat :=
  let dg := field img 0x10 8
  let signer := (tolniBlock img).take 64
  let signs := fun k => signer == keyIdBytes k && s.blockOkId k (digest64 (img.take (dg + 64))) (tolniBlock img)
  if !tolniHeaderOk img then some 0x101
  else if digest64 (img.take dg) ≠ tolniDigest img then some 0x501
  else if !(signs s.fuses.fwKeyId1 || (!s.fuses.fwKey0Revoked && signs s.fuses.fwKeyId0)) then some 0x503
  else if field img 6 2 < s.fuses.rollback.toNat then some 0x506
  else none

/-- FW_UPDATE: copy A into copy B, then the new image into copy A (R507). -/
def runFwUpdate (c : Cmd) (s : State) : State :=
  let img := s.hostBytes (c.arg 0 8) (c.arg 8 8)
  match s.imageFail img with
  | some f => (s.noteRefusal f).complete c f (if f = 0x101 then c.at 0 else 0) 0
  | none => State.complete { s with flash := { s.flash with tolniB := s.flash.tolniA, tolniA := img, writing := some (.tolniA, s.now) } } c 0 0 0

/-- ROLLBACK advances at READY, when the panel started from copy A and its SECURITY_VERSION exceeds it, and the key revocation with it (R508). -/
def State.advanceRollback (s : State) : State :=
  let v := field s.boot.image 6 2
  if s.boot.source = .copyA ∧ s.fuses.rollback.toNat < v then
    { s with fuses := { s.fuses with
      rollback := BitVec.ofNat 6 v,
      fwKey0Revoked := s.fuses.fwKey0Revoked ||
        ((field s.boot.image 0x0E 2).testBit 0 && (tolniBlock s.boot.image).take 64 == keyIdBytes s.fuses.fwKeyId1) } }
  else s

/-! ### The owner policy (R509 to R512) -/

/-- A changed policy acts at once, signed, and replaces the older of the two copies in flash (R509); the shipped state is in use no more (Table 16.9). -/
def State.storePolicy (s : State) (p : Policy) : State :=
  let q := s.signPolicy p
  let older := !s.policyOk s.flash.policyB || (s.policyOk s.flash.policyA && decide (s.flash.policyB.policyCounter + s.flash.policyB.debugCounter ≤
    s.flash.policyA.policyCounter + s.flash.policyA.debugCounter))
  { s with
    security := { s.security with policy := q, shippedUsed := false },
    flash := if older then { s.flash with policyB := q, writing := some (.policyB, s.now) } else { s.flash with policyA := q, writing := some (.policyA, s.now) } }

/-- The digest that a KEY_ADD or DEBUG_UNLOCK signature covers: the payload up to the block, with this panel's KEY_ID and counter in
place of those carried (R511, R514). -/
def State.boundDigest (s : State) (payload : List Byte) (upTo counter : Nat) : List Byte :=
  digest64 (payload.take 8 ++ s.identityKeyId ++ toLE 8 counter ++ (payload.take upTo).drop 0x50)

/-- Whether the present owner signed a digest. -/
def Policy.ownerSigned (p : Policy) (digest block : List Byte) : Bool :=
  match p.owner with
  | none => false
  | some k => blockOk k digest block

/-- Reserved encodings of a KEY_ADD payload: offset of the first offending field (R511, Table 16.6). -/
def keyAddBad (b : List Byte) : Option Nat :=
  let op := field b 0 1
  let slot := field b 1 1
  if op > 5 then some 0
  else if (if op = 1 ∨ op = 2 then decide (slot > 7) else decide (slot ≠ 0)) then some 1
  else
    match nonZero b 2 8 ++ (if op ≥ 2 then nonZero b 0x50 0x7F0 else []) with
    | [] => none
    | x :: _ => some x

/-- Whether the signer that Table 16.7 requires signed the payload. -/
def State.keyAddSigned (s : State) (b : List Byte) : Bool :=
  let p := s.security.policy
  let op := field b 0 1
  let d := s.boundDigest b 0x7F0 p.policyCounter
  let block := b.drop 0x7F0
  if op = 0 ∧ p.owner = none then blockOk ((b.drop 0x50).take 1952) d block
  else p.ownerSigned d block || (op == 5 && s.blockOkId s.fuses.factoryKeyId d block)

/-- The policy after an operation of Table 16.7. -/
def Policy.apply (p : Policy) (b : List Byte) : Policy :=
  let key := (b.drop 0x50).take 1952
  let slot := field b 1 1
  match field b 0 1 with
  | 0 => { p with owner := some key }
  | 1 => { p with planKeys := tset [] p.planKeys slot key }
  | 2 => { p with planKeys := terase slot p.planKeys }
  | 3 => { p with signedOnly := true }
  | 4 => { p with signedOnly := false }
  | _ => { p with owner := none, planKeys := [], signedOnly := false }

/-- KEY_ADD (R511). -/
def runKeyAdd (c : Cmd) (s : State) : State :=
  match keyAddBad c.payload with
  | some o => s.complete c 0x102 (c.at o) 0
  | none =>
    if s.keyAddSigned c.payload then
      let p := s.security.policy.apply c.payload
      (s.storePolicy { p with policyCounter := (p.policyCounter + 1) % 2 ^ 64 }).complete c 0 0 0
    else (s.noteRefusal 0x503).complete c 0x503 0 0

/-! ### The debug port (R513, R514) -/

/-- Argument failures of a DEBUG_UNLOCK payload. -/
def unlockBad (c : Cmd) : Option (Nat × Nat) :=
  let scope := c.arg 0 1
  if scope > 2 then some (0x102, c.at 0)
  else if c.len ≠ (if scope = 0 then 8 else 3456) then some (0x108, 4)
  else
    match nonZero c.payload 1 8 with
    | [] => none
    | x :: _ => some (0x102, c.at x)

/-- Whether the signer that Table 16.8 requires signed the unlock. -/
def State.unlockSigned (s : State) (c : Cmd) : Bool :=
  let p := s.security.policy
  let d := s.boundDigest c.payload 0x50 p.debugCounter
  let block := c.payload.drop 0x50
  s.blockOkId s.fuses.factoryKeyId d block || (c.arg 0 1 == 1 && p.ownerSigned d block)

/-- DEBUG_UNLOCK: SCOPE 0 locks the port (R513, R514); an unlock replaces the scope in force. Scope 2 ends the wait of R456 for good, and a halt that it
made ends with it (log entry 115). -/
def runDebugUnlock (c : Cmd) (s : State) : State :=
  match unlockBad c with
  | some f => s.complete c f.1 f.2 0
  | none =>
    if c.arg 0 1 = 0 then State.complete { s with security := { s.security with debugScope := 0, halted := false } } c 0 0 0
    else if s.unlockSigned c then
      let p := s.security.policy
      let s1 := s.storePolicy { p with debugCounter := (p.debugCounter + 1) % 2 ^ 64 }
      State.complete { s1 with security := { s1.security with
        debugScope := c.arg 0 1, halted := s1.security.halted && c.arg 0 1 == 2, factoryOpen := s1.security.factoryOpen || c.arg 0 1 == 2 } } c 0 0 0
    else (s.noteRefusal 0x503).complete c 0x503 0 0

/-! ### Attestation (R515, Table 16.9) -/

/-- 64 bytes, zero with none. -/
def orZero64 (x : Option (List Byte)) : List Byte := fitBytes 64 (x.getD [])

/-- FLAGS of the report. -/
def State.attestFlags (s : State) : Nat :=
  let p := s.security.policy
  bit p.signedOnly + 2 * bit p.owner.isSome + 4 * bit s.plan.isSome + 8 * bit (s.plan.any (·.signed)) + 16 * bit s.boot.fuseOnly +
    32 * bit s.security.shippedUsed + 64 * bit s.boot.recovery

/-- Bytes 0x0000 to 0x03FF of the report; `nonce` from the command. -/
def State.attestBody (s : State) (nonce : List Byte) : List Byte :=
  let p := s.security.policy
  toLE 4 0x54535441 ++ toLE 2 1 ++ toLE 2 (partCode s.fuses.part) ++ toLE 4 (s.strapReg % 2 ^ 20) ++ toLE 1 s.fuses.stepping.toNat ++
    toLE 1 s.security.debugScope ++ toLE 1 s.attestFlags ++ toLE 1 0 ++ toLE 8 s.now ++ toLE 4 (s.security.attestSeq + 1) ++
    toLE 2 s.boot.secVersion ++ toLE 2 s.fuses.rollback.toNat ++ fitBytes 32 nonce ++ s.identityKeyId ++ keyIdBytes s.fuses.starterDigest ++
    fitBytes 64 (tolniDigest s.boot.image) ++ digest64 (tolniSection s.boot.image 1) ++ digest64 (tolniSection s.boot.image 2) ++
    orZero64 (if s.boot.fuseOnly then none else some (digest64 (s.ledgerBytes s.units.ledger))) ++
    orZero64 (s.plan.map (·.digest)) ++ orZero64 (s.plan.bind (fun q => if q.signed then some q.signer else none)) ++
    orZero64 (p.owner.map digest64) ++
    digest64 ((List.range 8).flatMap (fun i => orZero64 ((p.planKeys.find? (fun k => k.1 == i)).map (fun k => digest64 k.2)))) ++
    toLE 4 (s.setting keyEnvelopeMode) ++ toLE 4 (s.setting keyEnvelopeConst) ++ toLE 4 s.stretchMax ++
    toLE 4 (s.setting keyProfile + 16 * s.power.profile) ++
    (List.range 60).flatMap (fun i => toLE 4 (s.setting (keyEnvelopeTable i))) ++
    toLE 8 ((s.plan.map (·.planId)).getD 0) ++ toLE 4 (s.setting keyGroupId) ++ toLE 2 s.groupSlot ++ toLE 2 0 ++
    (List.range 8).flatMap (fun e => toLE 4 (tget 0 s.security.refusals e)) ++ toLE 8 p.policyCounter ++ toLE 8 p.debugCounter

/-- ATTEST: NONCE, then HOST_ADDR. -/
def runAttest (c : Cmd) (s : State) : State :=
  if c.arg 32 8 % 64 ≠ 0 then s.complete c 0x10A (c.at 32) 0
  else
    let body := s.attestBody (c.payload.take 32)
    let s1 := s.reportTo c (c.arg 32 8) (body ++ s.identityBlock (digest64 body))
    State.takeFree { s1 with security := { s1.security with attestSeq := (s1.security.attestSeq + 1) % 2 ^ 32 } } 1

end Sys2Proof.Machine
end

