-- ==== Sys2Proof/Machine/Resets.lean ====
section
/-! DEFINITION. The panel reset, COMPUTE_RESET, and the writing of records (09 R351, R357; 14 R454 to R458, R474 to R476). -/

namespace Sys2Proof.Machine

/-! ### Panel reset (Table 14.6) -/

/-- The panel after a panel reset: what lies outside it stays (host memory, the waiting commands), and so do fuses, flash and the AUX
domain's pins and shutdown record. -/
def State.cleared (s : State) : State :=
  { State.reset with pending := s.pending, free := s.free, hostMem := s.hostMem, fuses := s.fuses, flash := { s.flash with writing := none }, pins := s.pins }

/-- A stage begins: it is running from now on. -/
def State.beginStage (s : State) (code unit : Nat) : State :=
  { s with boot := { s.boot with running := s.boot.running ++ [(code, unit)], began := tset 0 s.boot.began (code * 16 + unit) s.now } }

/-- Bring-up begins with the straps sampled (R454, R455, R457, Table 9.5). BOOT 2 and 3 are handled as 1, with an error record against
the hub (Table 14.1). -/
def State.beginBringup (s : State) (straps : StrapPins) : State :=
  let s1 := { s.cleared with
    straps := straps,
    host := { s.cleared.host with width := if straps.hlw then 4 else 8 },
    power := { s.cleared.power with profile := straps.profile.toNat },
    boot := { s.cleared.boot with shown := (1, 4, 0, 0) } }
  let s2 := if straps.boot.toNat ≥ 2 then s1.addError { unit := hubUnit, code := 0x102, cls := 2 } else s1
  s2.beginStage 1 0

/-- A panel reset: bring-up begins at once where PWR_OK, PANEL_RESET_N and PWR_SHDN_N are high, else when they rise (R457, R474, Table 17.9). -/
def State.panelReset (s : State) (straps : StrapPins) : State :=
  if s.pins.pwrOk ∧ s.pins.resetN ∧ s.pins.shdnN then s.beginBringup straps else s.cleared

/-- PANEL_RESET, once it starts: every other command in flight completes with 0x020F, a transfer with the merged word of its pieces, and none that waits starts any more;
then comes its own record, and the panel resets when that is written (R351, R355). -/
def runPanelReset (c : Cmd) (s : State) : State :=
  let s1 := forEach s.cmds.xfers (fun x s => s.abortXfer x 0x20F 0) { s with cmds := { s.cmds with xferQueue := [] } }
  let others := s1.cmds.inflight.filter (fun d => d.seq != c.seq && !(s1.log.waiting.any (fun r => r.seq == d.seq)))
  (forEach others (fun d s => s.complete d 0x20F 0 0) s1).complete c 0 0 0

/-- COMPLETION_RECORD_WRITE (R351, R357). After PANEL_RESET's own record the panel resets and samples its strap pins, whose levels are free values
(log entry 61). -/
def execCompletionRecordWrite (s : State) : Out :=
  let s1 := s.writeWaiting
  match s.log.waiting with
  | r :: _ =>
    if r.opcode = 0x702 ∧ r.status = 0 ∧ s1.log.waiting.length < s.log.waiting.length then
      .next ((s1.takeFree 1).panelReset (Config.strapPins s1.free)) else .next s1
  | [] => .next s1

/-! ### COMPUTE_RESET (R475, R476) -/

/-- The edge arbiters: injection at every inward link and plane. -/
def edgeArbiters : List Nat := (List.range 400).map (0x100 + ·)

/-- Sets or clears freeze at the crumb's edges (R289, Table 14.7). -/
def State.freezeEdges (s : State) (v : Bool) : State :=
  { s with fabric := { s.fabric with
    arbiters := edgeArbiters.foldl (fun t i => tset {} t i { tget {} t i with freeze := v }) s.fabric.arbiters } }

/-- COMPUTE_RESET starts: its timing runs from the first frame tick after it (R475). -/
def runComputeReset (c : Cmd) (s : State) : State :=
  if bitsOf (c.arg 0 4) 31 1 ≠ 0 then s.complete c 0x102 (c.at 0) 0
  else { s with boot := { s.boot with resetTag := some (c.tag, (c.arg 0 4).testBit 0), resetAt := some (s.now + 1) } }

/-- Commands that need the crumb: PLAN_LOAD and the step commands (R351, R463). -/
def needsCrumb (opcode : Nat) : Bool := decide (0x201 ≤ opcode ∧ opcode ≤ 0x204)

/-- A transfer to or from row memory (Table 6.9). -/
def Xfer.rowMemory (x : Xfer) : Bool := decide (bitsOf x.panelAddr 47 44 ≤ 1)

/-- Whether a transfer that waits in its lane names row memory. -/
def State.movesRows (s : State) (c : Cmd) : Bool :=
  let bytes := if c.flags.testBit 1 then s.hostBytes c.payAddr c.len else c.payload
  (c.opcode == 0x301 || c.opcode == 0x302) && decide (bitsOf (field bytes 8 8) 47 44 ≤ 1)

/-- What COMPUTE_RESET completes with 0x020F at T: the step commands that wait for a flip, and transfers to or from row memory (R351). -/
def State.endCrumbCommands (s : State) : State :=
  let s1 := match s.step.flipTag.bind s.cmdOf with
    | none => s
    | some c => State.complete { s with step := { s.step with flipTag := none } } c 0x20F 0 0
  let s2 := forEach (s1.cmds.xfers.filter Xfer.rowMemory) (fun x s => s.abortXfer x 0x20F 0) s1
  let ends := fun (c : Cmd) => needsCrumb c.opcode || s2.movesRows c
  forEach ((s2.cmds.lane ++ s2.cmds.xferQueue).filter ends) (fun c s => s.complete c 0x20F 0 0)
    { s2 with cmds := { s2.cmds with lane := s2.cmds.lane.filter (!ends ·), xferQueue := s2.cmds.xferQueue.filter (!ends ·) } }

/-- A running step ends with 0x020F, unless a failure of this tick or before gives it its status (R60, R235). -/
def State.stopForReset (s : State) : State :=
  if s.isRunning then (s.failStep s.step.frame 0x20F 0xFFFF 0).endFailed else s

/-- Row memories lose what they hold: a row reads as it does at power-on (R235; log entry 4). -/
def State.loseSram (s : State) : State :=
  { s with mem := s.mem.filter (fun e => decide (2 * 2 ^ 44 ≤ e.1)), poison := s.poison.filter (fun a => decide (2 * 2 ^ 44 ≤ a)) }

/-- Cores, clusters and the die agents' data paths reset; a core's instruction store keeps its program with RETAIN_SRAM (R474, R476). -/
def State.resetCrumb (s : State) (retain : Bool) : State :=
  { s with
    cores := if retain then s.cores.filterMap (fun (e : Nat × Core) => let k : Core := { prog := e.2.prog }; if k = {} then none else some (e.1, k)) else [],
    agents := [],
    clusters := s.clusters.filterMap (fun (e : Nat × Cluster) => let c := e.2.afterReset; if c = {} then none else some (e.1, c)) }

/-- COMPUTE_RESET at its tick T (Table 14.7): the step stops, edges freeze, clocks are gated, and the crumb resets; the compute stages run again from T + 2.1 ms on.
STAGE_CODE shows the first of them until then (DESIGN CHOICE: no stage runs meanwhile; log entry 123). -/
def State.resetAtTick (s : State) : State :=
  match s.boot.resetTag, s.boot.resetAt with
  | some (_, retain), some t =>
    if s.now < t then s
    else
      let s1 := if retain then s else s.discardPlan
      let s2 := (s1.stopForReset.endCrumbCommands).freezeEdges true
      let s3 := (if retain then s2 else s2.loseSram).resetCrumb retain
      { s3 with boot := { s3.boot with
        resetAt := none, resetDrain := some s.now, ready := false, clocksOff := true, shown := (0x30, 4, 0, 0),
        done := s3.boot.done.filter (fun d => !([0x30, 0x31, 0x32, 0x33, 0x34, 0x35, 0x36].contains d.1)) } }
  | _, _ => s

/-- The routers reset once the fabric has drained: no packet in the crumb, no reduction input, no count, edges thawed. What waits at the I/O dies and the
hub is kept (Table 14.7). -/
def State.routersReset (s : State) : State :=
  State.trainFifos { s with fabric := { s.fabric with
    packets := s.fabric.packets.filter (fun p => decide (0x100 ≤ p.place) && p.gone == 0 && !p.planned), reds := [], tc0Out := [], tc0Inject := [], lastWin := [], incs := [], arrived := [], lost := [], refused := [],
    sentAt := [], freedAt := [], stalledAt := [], owed := [] } } |>.freezeEdges false

end Sys2Proof.Machine
end

