-- ==== Sys2Proof/Machine/Links.lean ====
section
/-! DEFINITION. Zhenlink: link flits, ports, peer verification, and the packets that leave for and come from other panels
(08 R299 to R327; 16 R502 to R504; 07 R258, R259). -/

namespace Sys2Proof.Machine

/-! ### CRC and headers (R259, R301) -/

/-- One bit step of the CRC with polynomial 0x1021, most significant bit first. -/
def crcBit (c : Nat) : Nat := if c.testBit 15 then (2 * c % 65536) ^^^ 0x1021 else 2 * c % 65536

/-- CRC-16 from 0xFFFF over bytes, each byte most significant bit first (log entry 30). -/
def crc16 (bs : List Byte) : Nat := bs.foldl (fun c b => (List.range 8).foldl (fun c _ => crcBit c) (c ^^^ (b.toNat * 256))) 0xFFFF

/-- Bytes 0x00 to 0x1D of a packet's header (Table 7.2). -/
def Packet.headBytes (p : Packet) : List Byte :=
  toLE 8 p.headNat ++ toLE 8 p.addr ++ toLE 2 (p.drow + p.dm * 2 ^ 15) ++ toLE 1 (p.dcore + p.dctr * 16) ++ toLE 1 0 ++
    toLE 2 p.payload.length ++ toLE 2 p.tag ++ toLE 4 p.xferCount ++ toLE 2 p.xferId

/-- A packet as bytes: header with HCHK, then payload (R258). -/
def Packet.encode (p : Packet) : List Byte := p.headBytes ++ toLE 2 (crc16 p.headBytes) ++ p.payload

/-- The packet that bytes hold; none when HCHK is wrong or TYPE, KIND or CLASS is reserved (Tables 7.2 and 7.3, R293). -/
def decodePacket (bs : List Byte) : Option Packet :=
  if crc16 (bs.take 30) ≠ field bs 30 2 ∨ field bs 2 1 % 16 > 0xB ∨ field bs 2 1 / 16 % 4 > 2 ∨ field bs 3 1 % 8 > 4 then none
  else
    let f := field bs 3 1
    some { routeId := field bs 0 2, typ := field bs 2 1 % 16, kind := field bs 2 1 / 16 % 4, cls := f % 8, planned := f.testBit 3,
           poison := f.testBit 4, last := f.testBit 5, src := field bs 4 2, dst := field bs 6 2, addr := field bs 8 8,
           drow := field bs 16 2 % 2 ^ 15, dm := field bs 16 2 / 2 ^ 15, dcore := field bs 18 1 % 16, dctr := field bs 18 1 / 16,
           tag := field bs 22 2, xferCount := field bs 24 4, xferId := field bs 28 2,
           payload := (bs.drop 32).take (field bs 20 2), core := 0x30000 }

/-- The 128 B flits of a packet (R258). -/
def Packet.flitBytes (p : Packet) : List (List Byte) := (chunksOf 128 6 p.encode).map (fitBytes 128)

/-! ### Group shape (R305, R318) -/

/-- The slot one step from this panel in a direction (R305). -/
def State.neighbourSlot (s : State) (dir : Nat) : Nat :=
  let i := dir / 2
  let n := max 1 (s.groupSizes.getD i 1)
  let c := s.coord s.groupSlot i
  let c' := if dir % 2 = 0 then (c + 1) % n else (c + n - 1) % n
  let w := (s.groupSizes.take i).foldl (· * ·) 1
  s.groupSlot - c * w + c' * w

/-- The direction of the first hop toward a slot, by dimension order, the shorter way, + on a tie (R318). -/
def State.dirTo (s : State) (g : Nat) : Option Nat :=
  ((List.range 4).find? (fun i => s.coord g i != s.coord s.groupSlot i)).map fun i =>
    let n := max 1 (s.groupSizes.getD i 1)
    let up := (s.coord g i + n - s.coord s.groupSlot i) % n
    if n = 2 ∨ up ≤ n - up then 2 * i else 2 * i + 1

/-- D of a packet from a source slot on the hop in a direction: 1 once it has crossed, or now crosses, the wrap link (R318). -/
def State.dateline (s : State) (src dir : Nat) : Nat :=
  let i := dir / 2
  let n := max 1 (s.groupSizes.getD i 1)
  let from_ := s.coord src i
  let next := s.coord (s.neighbourSlot dir) i
  if n < 3 then 0 else if dir % 2 = 0 then bit (decide (next < from_)) else bit (decide (from_ < next))

/-- The engines whose bundle points in a direction. -/
def State.enginesToward (s : State) (dir : Nat) : List Nat :=
  (List.range 8).filter (fun e => (s.bundle e).any (fun p => s.portDir p == dir))

/-! ### Ports change state -/

/-- Whether a port counts as settled for ZL_RETRAIN: ACTIVE or DOWN, and a disabled or retired port, which cannot train. -/
def State.portSettled (s : State) (p : Nat) : Bool := (s.port p).state != 2 && (s.port p).state != 3

/-- The outcome of a relayed command: the manager writes the record with RELAYED and SLOT (R352). -/
def State.relayDone (s : State) (slot seq status detail result : Nat) : State :=
  match s.cmds.inflight.find? (fun c => c.dest == slot && c.seq == seq && s.cmds.relayed.contains c.tag) with
  | none => s
  | some c =>
    let s1 := { s with cmds := { s.cmds with relayed := s.cmds.relayed.filter (· != c.tag) } }
    s1.completeAt c s1.now status slot detail result 0 4

/-- The target of a relayed command answers the manager, which may be this panel itself (R352). -/
def State.answerRelay (s : State) (seq status detail result : Nat) : State :=
  if s.isManager then s.relayDone s.groupSlot seq status detail result else s.send (.relayAnswer s.groupSlot seq status detail result)

/-- A command's outcome: its own record, or the answer to the manager that relayed it (R352). -/
def State.answer (s : State) (c : Cmd) (status detail result : Nat) : State :=
  if c.tag ≥ 256 then s.answerRelay (c.tag - 256) status detail result else s.complete c status detail result

/-- The ports that a mask names. -/
def maskPorts (m : Nat) : List Nat := (List.range 64).filter (fun p => m.testBit p)

/-- ZL_RETRAIN completes when every port it names is settled, with the number that are ACTIVE (Table 9.10). -/
def State.settleRetrains (s : State) : State :=
  let ready := s.cmds.retrainTags.filter (fun r => (maskPorts r.2).all s.portSettled)
  let s1 := { s with cmds := { s.cmds with retrainTags := s.cmds.retrainTags.filter (fun r => !(maskPorts r.2).all s.portSettled) } }
  forEach ready (fun r s =>
    let n := ((maskPorts r.2).filter (fun p => (s.port p).state == 4)).length
    if r.1 ≥ 256 then s.answerRelay (r.1 - 256) 0 0 n
    else match s.cmdOf r.1 with
      | none => s
      | some c => s.complete c 0 0 n) s1

/-- Moves a port to a state and settles the retrain commands. -/
def State.portTo (s : State) (p st : Nat) : State := (s.portState p st).settleRetrains

/-- Receive buffers of a port by virtual channel, in link flits (Table 8.8). -/
def rxCapacity (vc : Nat) : Nat := match vc / 2 with | 0 => 64 | 2 => 2048 | 3 => 1024 | _ => 256

/-- A port's link begins afresh: sequence, buffers and credits. -/
def Port.fresh (q : Port) : Port :=
  { q with txSeq := 0, txAck := 4095, replayBuf := [], resent := [], rxNext := 0, nak := false, rx := [], failRun := 0, held := [], owed := [], ctl := 0,
           credits := (List.range 10).map (fun v => (v, rxCapacity v)) }

/-- Width that a port's lanes give. -/
def lanesOf (b : BitVec 8) : Nat := ((List.range 8).filter (fun i => b.getLsbD i)).length

/-- A training attempt begins: TRAINING patterns only (Table 8.5). PEER_SLOT and PEER_PORT read 0 until the next verification and DELAY_NS keeps its value
until the port has trained (DESIGN CHOICE: Table 8.6 gives only their values after panel start, and R309 that a delay stays until the port next
trains; log entry 67). -/
def State.startTraining (s : State) (p : Nat) : State :=
  (s.modPort p (fun q => { q with width := 0, challenge := none, retryAt := none, peerSlot := 0, peerPort := 0 })).portTo p 2

/-- A failed attempt: DOWN, tried again after 10 ms (R307). -/
def State.failTraining (s : State) (p : Nat) : State :=
  (s.modPort p (fun q => { q with width := 0, challenge := none, retryAt := some (s.now + 10 ^ 7) })).portTo p 1

/-- Whether a port may train: given a direction, in service, and released by stage 0x26 (R307). -/
def State.mayTrain (s : State) (p : Nat) : Bool :=
  s.portEnabled p && portPresent s.fuses.part p && s.boot.done.contains (0x26, engineIo (p / 8))

/-- PORT_TRAINING: every lane found good or retired, width at least 4 and the delay measured lead to VERIFYING, where a fresh challenge
goes out; else DOWN (R307, R504). The delay is half the round trip of the timed pattern, rounded up to the next ns (R309). -/
def execPortTraining (port : Nat) (goodLanes : BitVec 8) (roundTripNs : Nat) (s : State) : Out :=
  if port ≥ 64 then .next s
  else
    let q := s.port port
    let due := match q.retryAt with | none => true | some t => decide (t ≤ s.now)
    if !s.mayTrain port ∨ !(q.state == 2 || (q.state == 1 && due)) then .next s
    else
      let w := lanesOf (~~~q.laneRetired)
      if (goodLanes ||| q.laneRetired) = 0xFF ∧ 4 ≤ w then
        let s1 := s.modPort port (fun q => { q.fresh with
          width := w, delayNs := (roundTripNs + 1) / 2, retryAt := none, challenge := some (s.freeBytes 32, s.now), challengeHeld := s.thermal.active })
        .next ((s1.takeFree 32).portTo port 3)
      else .next (s.failTraining port)

/-- PORT_RETRY_TIMER: 10 ms after the failure the port tries again (R307). -/
def execPortRetryTimer (port : Nat) (s : State) : Out :=
  if port ≥ 64 then .next s
  else
    match (s.port port).retryAt with
    | none => .next s
    | some t => if (s.port port).state = 1 ∧ s.mayTrain port then .next ((s.advanceTo t).startTraining port) else .next s

/-! ### Peer verification (R308, R502 to R504) -/

/-- Whether a certificate has the layout of Table 16.3 and a type. -/
def certOk (cert : List Byte) (typ : Nat) : Bool :=
  decide (field cert 0 4 = 0x54524347) && decide (field cert 4 2 = 1) && decide (field cert 6 2 = typ)

/-- R503: magic, version, types, issuer links and signatures up to the fused root. -/
def State.chainOk (s : State) (chain : List Byte) : Bool :=
  let a := chain.take 5456
  let b := (chain.drop 5456).take 5456
  decide (chain.length = 10912) && certOk a 2 && certOk b 1 && certIssuer a == digest64 (certKey b) && certIssuer b == keyIdBytes s.fuses.rootKeyId &&
    blockOk (certKey b) (certDigest a) (certBlock a) && s.blockOkId s.fuses.rootKeyId (certDigest b) (certBlock b)

/-- The 48 B block that an identity reply signs (R504). -/
def identityMessage (challenge : List Byte) (groupId slot port : Nat) : List Byte :=
  fitBytes 32 challenge ++ toLE 4 groupId ++ toLE 2 slot ++ toLE 2 port ++ List.replicate 8 0

/-- R308 without the delay: identity, group, slot, direction, and the peer's other ports toward this panel. -/
def State.peerOk (s : State) (port : Nat) (challenge : List Byte) (r : PeerReply) : Bool :=
  let dir := s.portDir port
  let n := s.groupSizes.getD (dir / 2) 1
  s.chainOk r.chain &&
  blockOk (certKey (r.chain.take 5456)) (digest64 (identityMessage challenge r.groupId r.slot r.port)) r.sigBlock &&
  decide (r.groupId = s.setting keyGroupId) && r.sizes == s.groupSizes && decide (r.slot = s.neighbourSlot dir) &&
  decide (r.dir = (if n = 2 then dir / 2 * 2 else if dir % 2 = 0 then dir + 1 else dir - 1)) && decide (r.port < 64) &&
  (List.range 64).all (fun p => p == port || (s.port p).state != 4 || (s.port p).peerSlot != r.slot % 4096 ||
    decide ((s.port p).peerPort / 8 = r.port / 8))

/-- Verification fails with 0x0504 (Table 8.5). -/
def State.failVerify (s : State) (p : Nat) : State :=
  (s.addError { unit := unitId 6 p 0, code := 0x504, cls := 2, reporter := ioPlace (engineIo (p / 8)) }).failTraining p

/-- PEER_VERIFICATION. -/
def execPeerVerification (port : Nat) (reply : PeerReply) (s : State) : Out :=
  if port ≥ 64 then .next s
  else
    let q := s.port port
    match q.state, q.challenge with
    | 3, some (ch, t) =>
      if s.thermal.active ∨ q.challengeHeld then .next s
      else if s.now ≤ t + 10 ^ 7 ∧ s.peerOk port ch reply ∧ q.delayNs ≤ s.setting keyDelayMax then
        .next ((s.modPort port (fun q => { q with challenge := none, peerSlot := reply.slot % 4096, peerPort := reply.port })).portTo port 4)
      else .next (s.failVerify port)
    | _, _ => .next s

/-- IDENTITY_REPLY_TIMEOUT: 10 ms after the challenge, which has not gone out while the coolant-loss response holds it (R335, R504). -/
def execIdentityReplyTimeout (port : Nat) (s : State) : Out :=
  if port ≥ 64 then .next s
  else
    match (s.port port).state, (s.port port).challenge with
    | 3, some (_, t) => if (s.port port).challengeHeld then .next s else .next ((s.advanceTo (t + 10 ^ 7)).failVerify port)
    | _, _ => .next s

/-- IDENTITY_REQUEST: the hub answers with its chain and a signature over the challenge, except during the coolant-loss response
(R335, R504). -/
def execIdentityRequest (port : Nat) (challenge : List Byte) (s : State) : Out :=
  if port ≥ 64 then .next s
  else if s.thermal.active ∨ !((s.port port).state == 3 || (s.port port).state == 4) then .next s
  else
    let d := digest64 (identityMessage challenge (s.setting keyGroupId) s.groupSlot port)
    let bytes := s.chain ++ s.identityBlock d
    .next ((s.modPort port (fun q => { q with reply := bytes })).takeFree 1)

/-! ### Sending packets over a bundle (R311, R319) -/

/-- Credits of a port on a virtual channel. -/
def Port.creditsOf (q : Port) (vc : Nat) : Nat := tget 0 q.credits vc

/-- Whether a port, its optical engine and its I/O die may be used (R40, R385). -/
def State.portUsable (s : State) (p : Nat) : Bool :=
  s.usable (unitId 6 p 0) && s.usable (unitId 8 (p / 8) 0) && s.ioUsable (engineIo (p / 8))

/-- The ACTIVE port of a bundle with the most free credit for a channel, lower number on a tie (R319). -/
def State.bestPort (s : State) (e vc : Nat) : Option Nat :=
  let ps := (s.bundle e).filter (fun p => (s.port p).state == 4 && s.portUsable p)
  match ps with
  | [] => none
  | p :: rest => some (rest.foldl (fun b p => if (s.port p).creditsOf vc > (s.port b).creditsOf vc then p else b) p)

/-- Puts one flit in a port's replay buffer and spends its credit (R311, R317). -/
def Port.sendFlit (q : Port) (vc : Nat) (f : List Byte) : Port :=
  { q with
    replayBuf := q.replayBuf ++ [(q.txSeq, vc, f)], txSeq := (q.txSeq + 1) % 4096,
    credits := tset 0 q.credits vc (q.creditsOf vc - 1) }

/-- Sends flits while there is a credit for each and fewer than 2,047 are unacknowledged: the port, and how many went (R268, R311). -/
def Port.sendFlits (vc : Nat) : List (List Byte) → Port → Port × Nat
  | [], q => (q, 0)
  | f :: fs, q =>
    if 0 < q.creditsOf vc ∧ q.replayBuf.length < 2047 then
      let r := Port.sendFlits vc fs (q.sendFlit vc f)
      (r.1, r.2 + 1)
    else (q, 0)

/-- A packet as it leaves: every planned one that a failing panel sends is poisoned (R61). -/
def State.outgoing (s : State) (p : Packet) : Packet :=
  if p.planned && s.isRunning && s.step.faults != [] then { p with poison := true } else p

/-- One packet's turn to be sent: on the port that it has started on, else on the best of its bundle; what could not go waits. The rest of a packet whose
port has left ACTIVE is dropped; that of one which may not be used waits (R40, R313, R319). -/
def State.sendTx (s : State) (e : Nat) (x : Tx) : State × List Tx :=
  let w := if x.sent = 0 then { x with pkt := s.outgoing x.pkt } else x
  match (if w.sent = 0 then s.bestPort e w.vc else some w.port) with
  | none => (s, [w])
  | some p =>
    if (s.port p).state ≠ 4 then (s, [])
    else if !s.portUsable p then (s, [w])
    else
      let r := Port.sendFlits w.vc (w.pkt.flitBytes.drop w.sent) (s.port p)
      (s.setPort p r.1, if w.sent + r.2 ≥ w.pkt.flits then [] else [{ w with sent := w.sent + r.2, port := p }])

/-- Sends what waits at an I/O die for which a port has room, in order within a channel; TC0 only during the coolant-loss response (R311, R335). -/
def State.transmit (s : State) (io : Nat) : State :=
  match ioEngine io with
  | none => s
  | some e =>
    let go := (s.ioDie io).txWait.foldl (fun (acc : State × List Tx) w =>
      if acc.2.any (fun x => x.vc == w.vc) || (acc.1.thermal.active && w.vc / 2 != 0) then (acc.1, acc.2 ++ [w])
      else
        let r := acc.1.sendTx e w
        (r.1, acc.2 ++ r.2)) (s, [])
    go.1.modIoDie io (fun d => { d with txWait := go.2 })

/-- A packet joins those that wait at an I/O die, and goes at once where it can. -/
def State.queueTx (s : State) (io vc : Nat) (p : Packet) : State :=
  (s.modIoDie io (fun d => { d with txWait := d.txWait ++ [{ vc := vc, pkt := p }] })).transmit io

/-- Flits of an egress I/O die's transmit space that are taken on a channel: those that wait, and those of packets that cross the panel toward it, which
have their room reserved (R320). -/
def State.txFlits (s : State) (io vc : Nat) : Nat :=
  (((s.ioDie io).txWait.filter (fun w => w.vc == vc)).map (fun w => w.pkt.flits - w.sent)).foldl (· + ·) 0 +
    ((s.fabric.packets.filter (fun p => p.typ == 0xB && p.gone == 0 && p.vc == vc && p.to_ == ioPlace io)).map Packet.flits).foldl (· + ·) 0

/-- Flits of a channel leave a port's receive buffer: their credits go back (R317). -/
def Port.freeRx (q : Port) (vc n : Nat) : Port :=
  { q with held := tset 0 q.held vc (tget 0 q.held vc - n), owed := tset 0 q.owed vc (tget 0 q.owed vc + n) }

/-- The control word that a port sends next: what it has received good, NAK, and the credits of one channel, at most 255 (Table 8.3, R317). NAK stands in every control
word until the awaited SEQ has come good; R311 does not say in how many (DESIGN CHOICE: log entry 67). -/
def Port.sendControl (q : Port) : Port :=
  let v := ((List.range 10).find? (fun v => decide (0 < tget 0 q.owed v))).getD 0
  let n := min 255 (tget 0 q.owed v)
  { q with owed := tset 0 q.owed v (tget 0 q.owed v - n),
           ctl := (q.rxNext + 4095) % 4096 * 2 ^ 12 + bit q.nak * 2 ^ 24 + 2 ^ 25 + v * 2 ^ 30 + n * 2 ^ 34 }

/-! ### Outbound transfers that arrive (R321, R324, Table 8.9) -/

/-- A route fault recorded by an ingress I/O die (Table 8.9). -/
def State.ingressFault (s : State) (io route : Nat) : State :=
  (s.addError { unit := unitId 3 io 0, code := 0x115, cls := 2, aux := 0, location := route,
                flags := if s.isRunning then flStepFailed else 0, frame := s.step.frame, reporter := ioPlace io }).failStep
    s.step.frame 0x115 0xFFFF (coreDetail s.step.frame 0xFFFF)

/-- The far route of a packet at an ingress I/O die (R321). -/
def State.farRoute (s : State) (io id : Nat) : Option Route :=
  match s.routeOf id with
  | none => none
  | some r => if r.cls = 2 ∧ r.kind = 0 ∧ r.src = ioPlace io ∧ r.dst < 0x100 then some r else none

/-- Key of a transfer. -/
def xferKey (route id : Nat) : Nat := route * 65536 + id

/-- Whether a transfer number lies behind the next to complete on its route, modulo 2^16: the 32,767 numbers behind it have completed (DESIGN CHOICE: R323
counts modulo 2^16 and no rule says which numbers are behind; log entry 112). -/
def passed (next id : Nat) : Bool := decide (1 ≤ (next + 65536 - id) % 65536 ∧ (next + 65536 - id) % 65536 < 32768)

/-- A planned packet from a neighbour at its ingress I/O die: its row goes on along the far route, and it counts toward its transfer
(R324). -/
def State.ingressPacket (s : State) (io : Nat) (p : Packet) : State :=
  match s.farRoute io p.routeId with
  | none => s.ingressFault io p.routeId
  | some r =>
    let d := s.ioDie io
    let key := xferKey p.routeId p.xferId
    let open_ := tget none d.ingress key
    let x := open_.getD { count := p.xferCount, got := 0, hasLast := false, dcore := p.dcore, dctr := p.dctr, poison := false }
    if passed (tget 0 d.ingressNext p.routeId) p.xferId ∨ x.count ≠ p.xferCount ∨ x.got ≥ x.count ∨ (open_.isNone ∧ d.ingress.length ≥ 1024) then
      s.ingressFault io p.routeId
    else
      let isLast := p.last
      let x1 : InXfer := { x with
        got := x.got + 1, hasLast := x.hasLast || isLast, poison := x.poison || p.poison,
        dcore := if isLast then p.dcore else x.dcore, dctr := if isLast then p.dctr else x.dctr }
      let s1 := s.setIoDie io { d with ingress := tset none d.ingress key (some x1) }
      if p.typ = 0 ∧ p.payload ≠ [] then
        s1.inject [{ p with last := false, xferCount := 0, xferId := 0, src := r.src, dst := r.dst, plane := r.plane, cls := 2, kind := 0,
                            planned := true, place := ioPlace io, core := 0x30000 + io }]
      else s1

/-- OUTBOUND_TRANSFER_COMPLETE: count reached, LAST in, lower transfers complete: the increment follows on the far route (R324). -/
def execOutboundTransferComplete (io route xferId : Nat) (s : State) : Out :=
  if io ≥ 12 then .next s
  else
    let d := s.ioDie io
    match tget none d.ingress (xferKey route xferId), s.farRoute io route with
    | some x, some r =>
      if x.got = x.count ∧ x.hasLast ∧ xferId = tget 0 d.ingressNext route then
        let s1 := s.setIoDie io { d with
          ingress := terase (xferKey route xferId) d.ingress, ingressNext := tset 0 d.ingressNext route ((xferId + 1) % 65536) }
        .next (s1.inject [{ routeId := route, typ := 1, cls := 2, planned := true, poison := x.poison, last := true, src := r.src, dst := r.dst,
                            dcore := x.dcore, dctr := x.dctr, plane := r.plane, place := ioPlace io, core := 0x30000 + io }])
      else .next s
    | _, _ => .next s

/-! ### TC3 across the panel (R318 to R320) -/

/-- The first TC3 packet at an entry sets out across the panel as in-panel TC3 between two endpoints, and its receive buffer is freed (R317, R320). The
spec names no plane for it; the model takes plane 0 (log entry 50). -/
def State.cross (s : State) (io : Nat) (p : Packet) (to_ vc : Nat) : State :=
  let here := if io = 12 then hubPlace else ioPlace io
  let s1 := s.modIoDie io (fun d => { d with tc3In := d.tc3In.tail })
  let s2 := if p.fromPort = 0 then s1 else s1.modPort (p.fromPort - 1) (fun q => q.freeRx p.vc p.flits)
  s2.inject [{ p with typ := 0xB, cls := 3, planned := false, plane := 0, place := here, ends := some (here, to_), vc := vc }]

/-- TC3_INGRESS: the first TC3 packet that waits at an I/O die, or at the hub as number 12, sets out for the hub when it is for this panel; else for the egress
I/O die of its next direction with the most free transmit space, once that die has room for all of it; all these dies may be used (R40, R319, R320). -/
def execTc3Ingress (io : Nat) (s : State) : Out :=
  if io ≥ 13 then .next s
  else
    match (s.ioDie io).tc3In with
    | [] => .next s
    | p :: _ =>
      if s.thermal.active ∨ s.crumbHeld ∨ (io < 12 ∧ !s.ioUsable io) then .next s
      else
        match s.dirTo (p.dst - 0x1000) with
        | none => .next (s.cross io p hubPlace 0)
        | some dir =>
          let vc := 6 + s.dateline (p.src - 0x1000) dir
          match (s.enginesToward dir).filter (fun e => s.ioUsable (engineIo e)) with
          | [] => .next s
          | e :: es =>
            let best := es.foldl (fun b e => if s.txFlits (engineIo e) vc < s.txFlits (engineIo b) vc then e else b) e
            if s.txFlits (engineIo best) vc + p.flits > 512 then .next s else .next (s.cross io p (ioPlace (engineIo best)) vc)

/-! ### Receiving link flits (R301, R302, R311, R312, R316, R317) -/

/-- A management packet from a link on its way to the hub, in TC0 on plane 0 (R260, R274, R315). What it says reaches the model as GROUP_MESSAGE_RECEIVE,
since the spec gives no layout of its contents. -/
def toHub (io : Nat) (p : Packet) : Packet :=
  { p with typ := 9, kind := 0, cls := 0, planned := false, src := ioPlace io, dst := hubPlace, plane := 0, place := ioPlace io }

/-- The hub's TC1 answer to a TC4 request, whose contents the spec does not give: free bytes (Table 8.7; log entry 50). -/
def healthReply (s : State) (p : Packet) : Packet :=
  { routeId := p.routeId, typ := 4, cls := 1, src := p.dst, dst := p.src, tag := p.tag, payload := s.freeBytes 512, core := 0x30000 }

/-- A whole packet received on a port leaves its receive buffer for its sink: planned TC2 in the panel, the TC3 entry, where it stays until it sets out, or
the hub, which answers a TC4 request in TC1 on the link that it came by, with D of R318 (Table 8.7). The identity exchange reaches the model as commands of its own (log entry 50). -/
def State.receivePacket (s : State) (port vc : Nat) (p : Packet) : State :=
  let io := engineIo (port / 8)
  let free := fun (s : State) => s.modPort port (fun q => q.freeRx vc p.flits)
  match p.cls with
  | 0 => (free s).inject [toHub io p]
  | 2 => (free s).ingressPacket io p
  | 3 => s.modIoDie io (fun d => { d with tc3In := d.tc3In ++ [{ p with fromPort := port + 1, vc := vc }] })
  | 4 => State.takeFree ((free s).queueTx io (2 + s.dateline s.groupSlot (s.portDir port)) (healthReply s p)) 512
  | _ => free s

/-- Whether an I/O die holds what comes on a channel, and withholds its credits: all but TC0 during the coolant-loss response (R335), and what must cross
the crumb while a COMPUTE_RESET has the fabric out of service; TC0 at S0 and W0 goes to the hub without it (Table 14.7). -/
def State.holdsRx (s : State) (io vc : Nat) : Bool :=
  (s.thermal.active && vc / 2 != 0) || (s.crumbHeld && !(vc / 2 == 0 && (io == 6 || io == 9)))

/-- Whole packets that waited in the receive buffers go on once nothing holds them (R335, Table 14.7). -/
def State.drainRx (s : State) (io : Nat) : State :=
  let ws := (s.ioDie io).rxWait
  forEach (ws.filter (fun w => !s.holdsRx io w.2.1)) (fun w s => s.receivePacket w.1 w.2.1 w.2.2)
    (s.modIoDie io (fun d => { d with rxWait := ws.filter (fun w => s.holdsRx io w.2.1) }))

/-- Retires a lane: the port goes on at the lanes that remain and resends what is unacknowledged, or is retired below four (R313). -/
def State.retireLane (s : State) (port lane : Nat) : State :=
  let q := s.port port
  let rep := ioPlace (engineIo (port / 8))
  if q.laneRetired.getLsbD lane then s
  else
    let lr := q.laneRetired ||| BitVec.ofNat 8 (2 ^ lane)
    let w := lanesOf (~~~lr)
    let s1 := (s.modPort port (fun q => { q with laneRetired := lr })).addError
      { unit := unitId 7 port lane, code := 0x1021, cls := 1, aux := w, flags := flRetired + s.ledgerFlag (unitId 7 port lane) 0 0, reporter := rep }
    let s2 := s1.retireAtOnce (unitId 7 port lane) 3
    if w ≥ 4 then s2.modPort port (fun q => { q with width := if q.state ≥ 3 then w else q.width, resent := q.replayBuf })
    else
      let s3 := s2.addError { unit := unitId 6 port 0, code := 0x1022, cls := 1, flags := flRetired + s2.ledgerFlag (unitId 6 port 0) 0 0 +
        (if s2.isRunning ∧ q.state = 4 ∧ s2.groupCount > 1 then flStepFailed else 0), reporter := rep }
      let s4 := (s3.retireAtOnce (unitId 6 port 0) 3).modPort port (fun q => { q with width := 0, replayBuf := [], resent := [] })
      s4.portTo port 5

/-- The fabric flit of a good link flit takes its place in its channel's receive buffer; a packet that is whole goes on, or waits there while the
die holds its channel; one with a bad or reserved header is discarded (R293, R317, R335). A port in VERIFYING carries TC4 and TC1
only, and takes nothing else (Table 8.5). -/
def State.takeFlit (s : State) (port vc lane : Nat) (payload : List Byte) : State :=
  let q := s.port port
  let io := engineIo (port / 8)
  if q.state = 3 ∧ vc / 2 ≠ 1 ∧ vc / 2 ≠ 4 then s
  else
    let bs := tget [] q.rx vc ++ fitBytes 128 payload
    let need := 128 * ((32 + field bs 20 2 + 127) / 128)
    let q1 := { q with held := tset 0 q.held vc (tget 0 q.held vc + 1) }
    if bs.length < need then s.setPort port { q1 with rx := tset [] q.rx vc bs }
    else
      let s1 := s.setPort port { q1 with rx := terase vc q.rx }
      match decodePacket bs with
      | some p =>
        if s1.holdsRx io vc then s1.modIoDie io (fun d => { d with rxWait := d.rxWait ++ [(port, vc, p)] })
        else s1.receivePacket port vc p
      | none =>
        (s1.modPort port (fun q => q.freeRx vc (need / 128))).countRetired
          { unit := unitId 7 port lane, code := 0x1012, cls := 0, location := field bs 0 8, reporter := ioPlace io } 0 (fun s => s.retireLane port lane)

/-- ACK, NAK and credits of a good control word: acknowledged flits leave the replay buffer, a NAK resends the rest (R301, R311). REPLAYS counts the NAKs
that this port's transmitter receives, each of which makes it replay (DESIGN CHOICE: Table 8.6 says "Replays since panel start" and not at which end;
log entry 67). Flits of every class are resent in their order, during the coolant-loss response too (DESIGN CHOICE: R311 resends everything from ACK + 1, while R335
lets only TC0 go; log entry 130). -/
def Port.takeControl (q : Port) (ctl : BitVec 64) : Port :=
  let w := ctl.toNat
  let ack := bitsOf w 23 12
  let kept := q.replayBuf.filter (fun e => !decide ((ack + 4096 - e.1) % 4096 < 2048))
  let nak := w.testBit 24
  let q1 := { q with txAck := ack, replayBuf := kept, resent := if nak then kept else [],
                     replays := if nak then min 65535 (q.replays + 1) else q.replays }
  { q1 with credits := tset 0 q1.credits (bitsOf w 33 30) (q1.creditsOf (bitsOf w 33 30) + bitsOf w 41 34) }

/-- Whether a link flit is good: codeword, CRC and virtual channel, an idle flit's too (R301, R311, R316). -/
def flitGood (ctl : BitVec 64) (payload : List Byte) (codewordOk : Bool) : Bool :=
  let w := ctl.toNat
  codewordOk && decide (payload.length = 128) && decide (crc16 (toLE 6 (w % 2 ^ 48) ++ payload) = bitsOf w 63 48) &&
    decide (bitsOf w 29 26 < 10)

/-- A failed flit at a receiver: none while a NAK is out and what fails is discarded with the rest, but for a resend: a flit whose SEQ is the one awaited. Else
the port, whose NAK goes out, and whether the lane charged becomes a permanent fault: by its 16th charge in 24 h, or by the fourth failed resend in a
row of the same flit (R311, R312). -/
def Port.failed (q : Port) (lane seq now : Nat) (idle : Bool) : Option (Port × Bool) :=
  let resend := q.nak && !idle && seq == q.rxNext
  if q.nak ∧ !resend then none
  else
    let ts := ((tget [] q.charges lane).filter (fun t => decide (now ≤ t + dayNs))) ++ [now]
    let run := if resend then q.failRun + 1 else 0
    some ({ q with nak := true, failRun := run, charges := tset [] q.charges lane ts }, decide (ts.length ≥ 16 ∨ run ≥ 4))

/-- A failed flit of a port counts against the worst lane, which a permanent fault retires. The codeword's corrected symbols, which the record gives,
are a free value (log entry 14). -/
def State.failFlit (s : State) (port lane seq : Nat) (idle : Bool) : State :=
  match (s.port port).failed lane seq s.now idle with
  | none => s
  | some r =>
    let s1 := ((s.takeFree 1).setPort port r.1).countEvent
      { unit := unitId 7 port lane, code := 0x1020, cls := 0, location := (s.port port).rxNext, aux := (Config.freeByte s.free).toNat,
        reporter := ioPlace (engineIo (port / 8)) } false
    if r.2 then s1.retireLane port lane else s1

/-- PORT_SIGNAL_LOSS: an ACTIVE port leaves ACTIVE; it may train again at once (R307). -/
def execPortSignalLoss (port : Nat) (s : State) : Out :=
  if port ≥ 64 then .next s
  else if (s.port port).state = 4 then
    .next ((s.modPort port (fun q => { q with width := 0, peerSlot := 0, peerPort := 0, retryAt := none })).portTo port 1)
  else .next s

/-! ### ZL_RETRAIN and the state-load window (Table 9.10, R336) -/

/-- ZL_RETRAIN: training starts on each named port that may train. -/
def runZlRetrain (c : Cmd) (s : State) : State :=
  let ps := (maskPorts (c.arg 0 8)).filter s.mayTrain
  let s1 := { s with cmds := { s.cmds with retrainTags := s.cmds.retrainTags ++ [(c.tag, c.arg 0 8)] } }
  (forEach ps (fun p s => s.startTraining p) s1).settleRetrains

/-- WINDOW_OPEN's checks: status and DETAIL. A bad range is named before a retired stack, and that before the step state (R336; DESIGN CHOICE: the spec gives 0x010B,
0x0404 and 0x0203 no order; log entry 130). -/
def State.windowFail (s : State) (c : Cmd) : Option (Nat × Nat) :=
  let n := c.arg 16 2
  let a := c.arg 0 8
  let l := c.arg 8 8
  if n = 0 ∨ n > 16 ∨ c.len ≠ 24 + 2 * n then some (0x108, if n = 0 ∨ n > 16 then c.at 16 else 4)
  else if c.arg 18 6 ≠ 0 then some (0x102, c.at 18)
  else if a % 512 ≠ 0 ∨ bitsOf a 63 44 ≠ 2 then some (0x10B, c.at 0)
  else if l % 512 ≠ 0 ∨ l < 512 then some (0x10B, c.at 8)
  else if !s.rangeOk a (l / 512) then some (0x10B, c.at 0)
  else
    match s.retiredIn a (l / 512) with
    | some k => some (0x404, unitId 5 k 0)
    | none => if s.shownState = .noPlan ∨ s.shownState = .idle then none else some (0x203, 0)

/-- WINDOW_OPEN: a window that is open is replaced (R336). -/
def runWindowOpen (c : Cmd) (s : State) : State :=
  match s.windowFail c with
  | some f => s.answer c f.1 f.2 0
  | none =>
    let w : Window := { base := bitsOf (c.arg 0 8) 43 0, len := c.arg 8 8, slots := (List.range (c.arg 16 2)).map (fun i => c.arg (24 + 2 * i) 2) }
    State.answer { s with group := { s.group with window := some w } } c 0 0 0

/-- WINDOW_CLOSE. -/
def runWindowClose (c : Cmd) (s : State) : State := State.answer { s with group := { s.group with window := none } } c 0 0 0

/-! ### TC3 at the destination hub (R326, R327, R356) -/

/-- Whether the open window lets a slot write a unit (R327, R336). -/
def State.windowCovers (s : State) (slot a : Nat) : Bool :=
  match s.group.window with
  | none => false
  | some w => w.slots.contains slot && decide (bitsOf a 47 44 = 2) && decide (w.base ≤ bitsOf a 43 0) && decide (bitsOf a 43 0 + 512 ≤ w.base + w.len)

/-- A received row lands, or is discarded and recorded as a security event, status 0x0505. -/
def State.landTc3 (s : State) (slot : Nat) (r : Nat × List Byte × Bool) : State :=
  if s.windowCovers slot r.1 then s.writeRow (s.cellAddr (panelTarget s.units.gridClass r.1)) r.2.1 r.2.2
  else s.addError { unit := hubUnit, code := 0x505, cls := 2 }

/-- A TC3 transfer completes: every row is written or refused, the sender is told, and the next number of that sender may complete (R324, R326). -/
def State.finishTc3 (s : State) (slot id : Nat) (x : Tc3Rx) : State :=
  let inside := x.rows.all (fun r => s.windowCovers slot r.1)
  let s1 := forEach x.rows (fun r s => s.landTc3 slot r) s
  let s2 := { s1 with group := { s1.group with
    tc3Rx := terase (xferKey slot id) s1.group.tc3Rx, rxNext := tset 0 s1.group.rxNext slot ((id + 1) % 65536) } }
  s2.send (.copyAck s.groupSlot slot id inside)

/-- Whether a TC3 transfer has all its packets and its LAST (R324). -/
def Tc3Rx.whole (x : Tc3Rx) : Bool := decide (x.got = x.count) && x.hasLast

/-- Whether the stack of every row of a transfer that the window lets in may be used (R40). -/
def State.rowsUsable (s : State) (slot : Nat) (x : Tc3Rx) : Bool :=
  x.rows.all (fun r => !s.windowCovers slot r.1 || s.targetUsable (panelTarget s.units.gridClass r.1))

/-- The transfers of a sender that are whole complete in XFER_ID order, once the stacks of their rows may be used (R40, R324, R326). -/
def State.completeTc3 (slot : Nat) : Nat → State → State
  | 0, s => s
  | n + 1, s =>
    let id := tget 0 s.group.rxNext slot
    match tget none s.group.tc3Rx (xferKey slot id) with
    | some x => if x.whole && s.rowsUsable slot x then State.completeTc3 slot n (s.finishTc3 slot id x) else s
    | none => s

/-- A TC3 packet that belongs to no transfer it could: discarded and recorded as a route fault; the step fails (Table 8.9, R326). -/
def State.refuseTc3 (s : State) (p : Packet) : State :=
  let s1 := s.addError { unit := hubUnit, code := 0x115, cls := 2, location := p.addr, flags := if s.isRunning then flStepFailed else 0,
                         frame := s.step.frame, reporter := hubPlace }
  if s.isRunning then s1.failStep s.step.frame 0x115 0xFFFF (coreDetail s.step.frame 0xFFFF) else s1

/-- TC3_ROW_WRITE: the hub takes the first TC3 packet it holds; rows wait until their transfer completes, so that one timed out has written
nothing (R324, R326, R327). -/
def execTc3RowWrite (s : State) : Out :=
  match s.group.hubRx with
  | [] => .next s
  | p :: rest =>
    let slot := p.src - 0x1000
    let key := xferKey slot p.xferId
    let s0 := { s with group := { s.group with hubRx := rest } }
    let old := tget none s.group.tc3Rx key
    let x := old.getD { count := p.xferCount, got := 0, firstTick := s.clock.tickCount, rows := [] }
    if s.thermal.active then .next s
    else if passed (tget 0 s.group.rxNext slot) p.xferId ∨ p.xferCount ≠ x.count ∨ x.got ≥ x.count ∨ p.xferCount > 64 ∨
        (old.isNone ∧ s.group.tc3Rx.length ≥ 1024) then .next (s0.refuseTc3 p)
    else
      let x1 : Tc3Rx := { x with
        got := x.got + 1, hasLast := x.hasLast || p.last, rows := if p.payload = [] then x.rows else x.rows ++ [(p.addr, p.payload, p.poison)] }
      let s1 := { s0 with group := { s0.group with tc3Rx := tset none s0.group.tc3Rx key (some x1) } }
      .next (State.completeTc3 slot s1.group.tc3Rx.length s1)

/-- Takes one open transfer out of a copy. -/
def Copy.without (c : Copy) (id : Nat) : Copy := { c with opened := c.opened.filter (fun o => o.id != id) }

/-- Replaces the copy of a tag, or ends it with its record (R356). -/
def State.setCopy (s : State) (c : Copy) (ended : Option Nat) : State :=
  if c.opened = [] ∨ ended.isSome then
    let s1 := { s with group := { s.group with copies := s.group.copies.filter (fun d => d.tag != c.tag) } }
    match s.cmdOf c.tag with
    | none => s1
    | some cmd => s1.complete cmd (ended.getD (if c.refused then 0x505 else 0)) 0 (c.acked % 2 ^ 32)
  else { s with group := { s.group with copies := s.group.copies.map (fun d => if d.tag = c.tag then c else d) } }

/-- The copy toward a slot that holds an open transfer. -/
def State.copyWith (s : State) (slot id : Nat) : Option Copy :=
  s.group.copies.find? (fun c => c.slot == slot && c.opened.any (fun o => o.id == id))

/-- An acknowledgement of a transfer (R356). -/
def State.takeAck (s : State) (slot id : Nat) (inside : Bool) : State :=
  match s.copyWith slot id with
  | none => s
  | some c =>
    let n := ((c.opened.find? (fun o => o.id == id)).map (·.units)).getD 0
    s.setCopy { c.without id with acked := c.acked + 512 * n, refused := c.refused || !inside } none

/-- A sender's transfer timed out: it goes again under a new XFER_ID, and after four resends the command ends with 0x0405 (R326, R356). -/
def State.resendCopy (s : State) (c : Copy) (id : Nat) : State :=
  match c.opened.find? (fun o => o.id == id), s.cmdOf c.tag with
  | some o, some cmd =>
    if o.resends ≥ 4 then s.setCopy (c.without id) (some 0x405)
    else if !s.unitsUsable (cmd.arg 0 8 + 512 * o.first) o.units then s
    else
      let r := s.sendCopy c.slot (cmd.arg 0 8 + 512 * o.first) (cmd.arg 8 8 + 512 * o.first) o.units
      r.2.setCopy { c with opened := (c.without id).opened ++
        [{ id := r.1, first := o.first, units := o.units, resends := o.resends + 1, sentTick := s.clock.tickCount }] } none
  | _, _ => s

/-- The copy whose transfer of a number has timed out: none before the second tick since it was sent; of several toward different slots, whose numbers run
each for itself, the one sent first (R326; DESIGN CHOICE: R326 gives the time at the destination only, and names none of several; log entry 130). -/
def State.copyLate (s : State) (id : Nat) : Option Copy :=
  let due := s.group.copies.flatMap (fun c => (c.opened.filter (fun o => o.id == id && decide (o.sentTick + 2 ≤ s.clock.tickCount))).map (fun o => (o.sentTick, c)))
  (due.foldl (fun (m : Option (Nat × Copy)) x => match m with | none => some x | some y => if x.1 < y.1 then some x else some y) none).map (·.2)

/-- TC3_TRANSFER_TIMEOUT: at the destination a transfer not complete at the second tick after its first packet is discarded, and with it the numbers before it,
which no longer hold up later ones (DESIGN CHOICE: R326 resends under a new number and leaves the old one open; log entry 112); at the sender, named
by its own slot, the transfer goes again or its command ends (R326). -/
def execTc3TransferTimeout (srcSlot xferId : Nat) (s : State) : Out :=
  if srcSlot = s.groupSlot then
    match s.copyLate xferId with
    | none => .next s
    | some c => .next (s.resendCopy c xferId)
  else
    match tget none s.group.tc3Rx (xferKey srcSlot xferId) with
    | none => .next s
    | some x =>
      if s.clock.tickCount ≥ x.firstTick + 2 then
        let s1 := { s with group := { s.group with
          tc3Rx := terase (xferKey srcSlot xferId) s.group.tc3Rx,
          rxNext := if passed (tget 0 s.group.rxNext srcSlot) xferId then s.group.rxNext
                    else tset 0 s.group.rxNext srcSlot ((xferId + 1) % 65536) } }
        .next (State.completeTc3 srcSlot s1.group.tc3Rx.length s1)
      else .next s

end Sys2Proof.Machine
end

