-- ==== Sys2Proof/Machine/HostLink.lean ====
section
/-! DEFINITION. The host link, and the link flits and frames that ports receive (08 R311 to R313; 09 R339, R340, R342). The host link is port 0x80
(Table 15.2). The spec gives no layout for what a message frame says, so that window accesses and records stand for it (log entry 111). -/

namespace Sys2Proof.Machine

/-- The number of the host port (Table 15.2). -/
def hostPort : Nat := 0x80

/-- A lane of the host link (Table 15.2). -/
def hostLane (lane : Nat) : Nat := unitId 7 0 (3 * 2 ^ 18 + lane)

/-- Changes the host link's sequence state. -/
def State.modLink (s : State) (f : Port → Port) : State := { s with host := { s.host with link := f s.host.link } }

/-- The lanes that the link runs on when `good` are good and not retired: all eight; else lanes 0 to 3, else lanes 4 to 7; a link strapped to four has
lanes 0 to 3 alone (R339, R340). -/
def State.linkLanes (s : State) (good : BitVec 8) : Option (BitVec 8) :=
  let g := good &&& ~~~s.host.link.laneRetired
  if g = 0xFF ∧ !s.straps.hlw then some 0xFF
  else if g &&& 0x0F = 0x0F then some 0x0F
  else if g &&& 0xF0 = 0xF0 ∧ !s.straps.hlw then some 0xF0 else none

/-- Whether the step's input or output transfers are under way: inputs that R351 holds have not, nor have outputs while workers run. -/
def State.stepMoves (s : State) : Bool :=
  s.isRunning && s.stepMoving && ((s.step.phase == .inputs && !s.inputsBlocked) || (s.step.phase == .outputs && s.workersDone))

/-- The link goes down: transfers with a piece under way end with 0x0407, and a step whose inputs or outputs are interrupted fails with it; frames not yet
acknowledged wait for the link's return before those that were not sent (R342). -/
def State.linkDown (s : State) : State :=
  let s1 := { s with host := { s.host with
    linkUp := false, lanes := 0, out := s.host.link.replayBuf.map (·.2) ++ s.host.out, link := { s.host.link with replayBuf := [], resent := [] } } }
  let s2 := forEach (s1.cmds.xfers.filter (fun x => x.pieces.any (fun p => p.running))) (fun x s => s.abortXfer x 0x407 0) s1
  if s.stepMoves then
    s2.failWith { unit := unitId 6 0x80 0, code := 0x407, cls := 1 } 0
  else s2

/-- The sequence that a link trains with: afresh when it was down; a link that goes on at other lanes resends what is unacknowledged (R313, R340). -/
def HostPort.trainedLink (h : HostPort) : Port := if h.linkUp then { h.link with resent := h.link.replayBuf } else h.link.fresh

/-- The link comes up on some lanes; event 0xE007 gives the width, a fault event when it narrows (R340, Table 9.17). -/
def State.linkTrained (s : State) (m : BitVec 8) : State :=
  let h : HostPort := { s.host with linkUp := true, width := lanesOf m, lanes := m, retrained := true, link := s.host.trainedLink }
  State.event { s with host := h.pump }
    0xE007 (lanesOf m) (decide (lanesOf m < s.host.width))

/-- HOST_LINK_DOWN. -/
def execHostLinkDown (s : State) : Out := if s.host.linkUp then .next s.linkDown else .next s

/-- HOST_LINK_TRAINING: at eight lanes or at four; with neither group of four whole the link is down. It trains once the starter runs, in Halt A too
unless the ROM digest itself has failed (Table 14.2). -/
def execHostLinkTraining (goodLanes : BitVec 8) (s : State) : Out :=
  if !(s.boot.done.contains (1, 0) || (s.boot.haltA && s.fuses.romOk)) then .next s
  else match s.linkLanes goodLanes with
    | none => if s.host.linkUp then .next s.linkDown else .next s
    | some m => .next (s.linkTrained m)

/-- A lane of the host link is retired: a link that runs on it goes on at four good lanes, with what is unacknowledged resent, or goes down (R340). -/
def State.retireHostLane (s : State) (lane : Nat) : State :=
  if s.host.link.laneRetired.getLsbD lane then s
  else
    let used := s.host.lanes.getLsbD lane
    let s0 := s.modLink (fun q => { q with laneRetired := q.laneRetired ||| BitVec.ofNat 8 (2 ^ lane) })
    let m := if used then s0.linkLanes 0xFF else some s.host.lanes
    let s1 := (s0.addError { unit := hostLane lane, code := 0x1021, cls := 1, aux := ((m.map lanesOf).getD 0), flags := flRetired + s.ledgerFlag (hostLane lane) 0 0,
                             reporter := hubPlace }).retireAtOnce (hostLane lane) 3
    if !used then s1
    else match m with
      | some m => s1.linkTrained m
      | none => s1.linkDown

/-- Whether a frame is good: codeword, CRC, and a message frame of 128 B on channel 0 or a data frame of 512 B on channel 1; an idle one carries no
frame (Table 9.1, R301, R311). -/
def frameGood (ctl : BitVec 64) (payload : List Byte) (codewordOk : Bool) : Bool :=
  let w := ctl.toNat
  codewordOk && decide (crc16 (toLE 6 (w % 2 ^ 48) ++ payload) = bitsOf w 63 48) &&
    (w.testBit 25 || (bitsOf w 29 26 == 0 && payload.length == 128) || (bitsOf w 29 26 == 1 && payload.length == 512))

/-- A failed frame of the host link, as a failed flit of a port (R311, R312; Table 9.1). -/
def State.failFrame (s : State) (lane seq : Nat) (idle : Bool) : State :=
  match s.host.link.failed lane seq s.now idle with
  | none => s
  | some r =>
    let s1 := ((s.takeFree 1).modLink (fun _ => r.1)).countEvent
      { unit := hostLane lane, code := 0x1020, cls := 0, location := s.host.link.rxNext, aux := (Config.freeByte s.free).toNat,
        reporter := hubPlace } false
    if r.2 then s1.retireHostLane lane else s1

/-- A frame of the host link: in sequence it is received good, out of sequence it is discarded; what its ACK makes room for leaves, and the next control word
goes back. What the frame says reaches the model as a command of its own, since the spec gives it no layout (R301, R311; log entry 111). -/
def State.receiveFrame (s : State) (ctl : BitVec 64) (payload : List Byte) (codewordOk : Bool) (lane : Nat) : State :=
  let w := ctl.toNat
  if !frameGood ctl payload codewordOk then (s.failFrame lane (bitsOf w 11 0) (w.testBit 25)).modLink Port.sendControl
  else
    let s1 := s.modLink (fun q => q.takeControl ctl)
    let s2 := { s1 with host := s1.host.pump }
    s2.modLink (fun q =>
      (if !w.testBit 25 && bitsOf w 11 0 == q.rxNext then { q with rxNext := (q.rxNext + 1) % 4096, nak := false, failRun := 0 } else q).sendControl)

/-- A link flit at a Zhenlink port in service. The port's next control word goes back with what it owes (R302, R317). -/
def State.receiveFlit (s : State) (port : Nat) (ctl : BitVec 64) (payload : List Byte) (codewordOk : Bool) (worstLane : Nat) : State :=
  let w := ctl.toNat
  if !flitGood ctl payload codewordOk then (s.failFlit port worstLane (bitsOf w 11 0) (w.testBit 25)).modPort port Port.sendControl
  else
    let s1 := s.setPort port ((s.port port).takeControl ctl)
    let s2 :=
      if w.testBit 25 then s1
      else if bitsOf w 11 0 = (s1.port port).rxNext then
        (s1.modPort port (fun q => { q with rxNext := (q.rxNext + 1) % 4096, nak := false, failRun := 0 })).takeFlit port (bitsOf w 29 26) worstLane payload
      else s1
    ((s2.drainRx (engineIo (port / 8))).transmit (engineIo (port / 8))).modPort port Port.sendControl

/-- LINK_FLIT_RECEIVE at a Zhenlink port in service, or at the host port while its link is up (R301, R311; Table 9.1). -/
def execLinkFlitReceive (port : Nat) (ctl : BitVec 64) (payload : List Byte) (codewordOk : Bool) (worstLane : Nat) (s : State) : Out :=
  if (port ≥ 64 ∧ port ≠ hostPort) ∨ worstLane ≥ 8 then .next s
  else if port = hostPort then (if s.host.linkUp then .next (s.receiveFrame ctl payload codewordOk worstLane) else .next s)
  else if ((s.port port).state ≠ 3 ∧ (s.port port).state ≠ 4) ∨ !s.portUsable port then .next s
  else .next (s.receiveFlit port ctl payload codewordOk worstLane)

/-- LANE_RETIRE: of a Zhenlink port, or of the host link (R312, R313, R340). -/
def execLaneRetire (port lane : Nat) (s : State) : Out :=
  if (port ≥ 64 ∧ port ≠ hostPort) ∨ lane ≥ 8 then .next s
  else if port = hostPort then .next (s.retireHostLane lane)
  else if (s.port port).state = 5 then .next s
  else .next (s.retireLane port lane)

end Sys2Proof.Machine
end

