-- ==== Sys2Proof/Machine/Delivery.lean ====
section
/-! DEFINITION. A row or increment at its local output: into a delivery slot or a counter at a die, out of the panel at an I/O die
(05 R207 to R210; 06 R226; 07 R271; 08 R321 to R323; 14 R477). -/

namespace Sys2Proof.Machine

/-- A row at a die: into its memory's delivery slots; discarded with a protection fault when it aims at a resident row while RUNNING
(R208). -/
def State.deliverRow (s : State) (d : Nat) (p : Packet) (cycle : Nat) : State :=
  let mem := if p.dm = 0 then d * 16 + p.dcore else clusterMem (2 * d + p.dcore / 8)
  if s.residentLocked mem p.drow then
    State.senderFault { s with fabric := { s.fabric with refused := s.fabric.refused ++ [p] } } p .protection
  else s.pushArrived mem
    { cycle := cycle, row := p.drow, bytes := p.payload, poison := p.poison, plane := p.plane, route := p.routeId, sender := p.core,
      waiter := d * 16 + p.dcore, notify := if p.last then some (d * 16 + p.dcore, p.dctr) else none, ack := none, msg := p.msg }

/-- The virtual channel of planned traffic to the neighbour in a direction (R316, R318). -/
def State.plannedVc (s : State) (dir : Nat) : Nat := 4 + s.dateline s.groupSlot dir

/-- Whether this panel's running step has failed: until the group's step stops, what it sends to other panels is poisoned (R61). -/
def State.failing (s : State) : Bool := s.isRunning && s.step.faults != []

/-- The header-only packet that ends a SEND (R323). -/
def lastOf (p : Packet) (poison : Bool) : Packet := { p with typ := 1, last := true, poison := poison, payload := [], drow := 0, dm := 0 }

/-- A packet of an outbound route at its egress I/O die: numbered, and sent over the bundle; after a SEND's last row its LAST follows
(R321, R323). A failing panel poisons them (R61). -/
def State.egressPacket (s : State) (io e : Nat) (p0 : Packet) : State :=
  let p := { p0 with poison := p0.poison || s.failing }
  let d := s.ioDie io
  let dir := s.portDir ((s.bundle e).headD 0)
  let vc := s.plannedVc dir
  let key := xferKey p.routeId p.core
  let next := tget 0 d.egressNext p.routeId
  match tget none d.egressOpen key with
  | none =>
    let s1 := s.setIoDie io { d with egressNext := tset 0 d.egressNext p.routeId ((next + 1) % 65536) }
    let q := { p with xferId := next, last := p.typ == 1 }
    if p.typ = 1 then s1.queueTx io vc q
    else if p.xferCount ≤ 2 then (s1.queueTx io vc q).queueTx io vc (lastOf q p.poison)
    else (s1.modIoDie io (fun d => { d with egressOpen := tset none d.egressOpen key (some (next, 1, p.poison)) })).queueTx io vc q
  | some (id, n, poison) =>
    if p.typ = 1 then
      let s1 := s.setIoDie io { d with egressNext := tset 0 d.egressNext p.routeId ((next + 1) % 65536) }
      s1.queueTx io vc { p with xferId := next, last := true }
    else
      let q := { p with xferId := id, last := false }
      let bad := poison || p.poison
      if n + 2 ≥ p.xferCount then
        ((s.setIoDie io { d with egressOpen := terase key d.egressOpen }).queueTx io vc q).queueTx io vc (lastOf q bad)
      else (s.setIoDie io { d with egressOpen := tset none d.egressOpen key (some (id, n + 1, bad)) }).queueTx io vc q

/-- ROW_DELIVERY: a ROW or SIG packet that is whole and next in its order leaves a local output (R264, R271). -/
def execRowDelivery (pkt cycle : Nat) (s : State) : Out :=
  match s.packet pkt with
  | none => .next s
  | some p =>
    if !s.ready pkt p ∨ p.typ > 1 ∨ p.place = hubPlace then .next s
    else
      let s0 := s.dropPacket pkt
      if p.place ≥ 0x100 then
        if p.core / 0x10000 = 1 then .next (s0.takeData p)
        else match ioEngine (p.place - 0x100) with
          | some e => if (s.bundle e).isEmpty then .next (s0.senderFault p .route) else .next (s0.egressPacket (p.place - 0x100) e p)
          | none => .next (s0.senderFault p .route)
      else
        match s.dieAt p.place with
        | none => .next (s0.lose p)
        | some d =>
          if s.dieGone p.place then .next (s0.lose p)
          else if p.typ = 1 then
            .next (s0.addInc { core := d * 16 + p.dcore, ctr := p.dctr, route := p.routeId, sender := p.core, hi := p.msg } cycle)
          else .next (s0.deliverRow d p cycle)

/-- REPLY_ARRIVAL: a reply at a core's die takes its slot's place; a HOST reply takes the space that the hub reserved for its piece, and S0 passes on one that
comes from a die (R167, R245, R270). -/
def execReplyArrival (pkt cycle : Nat) (s : State) : Out :=
  match s.packet pkt with
  | none => .next s
  | some p =>
    if p.typ = 0xA then
      if !s.ready pkt p ∨ p.cls ≠ 1 then .next s
      else if p.place = hubPlace then .next ((s.dropPacket pkt).takeHostReply p)
      else .next ((s.dropPacket pkt).inject [{ p with src := p.place, dst := hubPlace }])
    else .next (s.coreReply pkt cycle p)

/-! ### Messages of the hub as packets (R260, R274, R315, R330) -/

/-- Messages that workers send up the tree to the manager. -/
def goesUp : GroupMsg → Bool
  | .stretchReport _ _ _ => true
  | .failure _ _ _ _ _ => true
  | .health _ _ _ _ => true
  | .joined _ => true
  | .loaded _ _ _ => true
  | .stepDone _ => true
  | .relayAnswer _ _ _ _ _ => true
  | .planLost _ => true
  | _ => false

/-- The neighbour on the way up the tree to the manager. -/
def State.treeUp (s : State) : Nat :=
  let path := s.treePath s.managerSlot s.groupSlot 25 s.managerSlot
  (path[path.length - 2]?).getD s.managerSlot

/-- The neighbours to which a message leaves this hub: up to the manager, toward its one slot, or down every edge below (R330, R332); an acknowledgement of a copy goes
by dimension order to its source (R356). -/
def State.msgEdges (s : State) (m : GroupMsg) : List Nat :=
  let toward := fun (g : Nat) => match s.treeEdge g with
    | some e => [e]
    | none => [s.treeUp]
  match m with
  | .planImage slots _ => slots.foldl (fun es g => (toward g).foldl (fun x e => insertNat e x) es) []
  | .relayed slot _ _ _ _ => toward slot
  | .copyAck _ to_ _ _ => ((s.dirTo to_).map s.neighbourSlot).toList
  | .transit slot => toward slot
  | _ => if goesUp m then [s.treeUp] else (List.range s.groupCount).foldl (fun es g => match s.treeEdge g with | some e => insertNat e es | none => es) []

/-- The MGMT packet that takes a message to a neighbour: through the fabric to the I/O die of an engine whose bundle points there, and out in TC0, with D of R318.
The spec gives it no contents, and names no engine where several point there: the lowest that may be used (DESIGN CHOICE: log entry 50). -/
def State.mgmtTo (s : State) (g : Nat) : List Packet :=
  match (List.range 8).find? (fun d => s.neighbourSlot d == g && (s.enginesToward d).any (fun e => s.ioUsable (engineIo e))) with
  | none => []
  | some d =>
    match (s.enginesToward d).find? (fun e => s.ioUsable (engineIo e)) with
    | none => []
    | some e => [{ routeId := 0xFFFF, typ := 9, cls := 0, src := 0x1000 + s.groupSlot, dst := 0x1000 + g, place := hubPlace,
                   ends := some (hubPlace, ioPlace (engineIo e)), vc := s.dateline s.groupSlot d }]

/-- The packets of a message, one for each neighbour to which it leaves; plan images go in TC3 (Table 8.7). -/
def State.msgPackets (s : State) (m : GroupMsg) : List Packet :=
  match m with
  | .planImage _ _ => []
  | _ => (s.msgEdges m).flatMap s.mgmtTo

/-- The hub hands the next of its messages to the fabric, if one waits (R260; log entry 50). -/
def State.handMsg (s : State) : Option State :=
  let ms := s.group.sent.drop s.group.handed
  ((ms.zip (List.range ms.length)).find? (fun x => s.msgPackets x.1 != [])).map fun x =>
    State.inject { s with group := { s.group with handed := s.group.handed + x.2 + 1 } } (s.msgPackets x.1)

/-! ### Blocks on their way (R465) -/

/-- The packets of a block for an endpoint, the hub's own code for a broadcast: the digest, which goes ahead, and then the block, a row's bytes in each. -/
def blockPackets (block : List Byte) (to_ : Nat) : List Packet :=
  (digest64 block :: chunksOf 512 (block.length + 1) block).map fun bs =>
    { routeId := 0xFFFF, typ := 9, cls := 0, src := hubPlace, dst := to_, payload := bs, place := hubPlace }

/-- The stage whose blocks go out, and the block: the running image's AGENT or MICROCODE section (R465, R506). -/
def State.blockStage (s : State) : Option Nat :=
  if s.boot.running.contains (0x12, 0) then some 0x12 else if s.boot.running.contains (0x31, 0) then some 0x31 else none
def State.block (s : State) (code : Nat) : List Byte := tolniSection s.boot.image (if code = 0x12 then 1 else 2)

/-- Whether a packet carries a part of a block. -/
def Packet.ofBlock (p : Packet) : Bool := p.typ == 9 && p.src == hubPlace

/-- The hub sends the block of a stage once to every die; what is left of an earlier block goes no further (R465). -/
def State.sendBlock (s : State) (code : Nat) : State :=
  State.inject (s.setPackets (s.fabric.packets.filter (fun p => !p.ofBlock))) (blockPackets (s.block code) hubPlace)

/-- The request of a die agent at a place for the block, over the unicast TC0 path: `msg` holds what its contents, which the spec does not give, say (R465; log entry
124). -/
def State.blockRequest (s : State) (place : Nat) : Packet :=
  { routeId := 0xFFFF, typ := 9, cls := 0, src := s.reporterAt place, dst := hubPlace, place := place, msg := place + 1 }

/-- The hub answers a die agent's request with the block, to that die alone (R465). -/
def State.answerBlock (s : State) (p : Packet) : State :=
  match s.blockStage with
  | some code => if p.msg = 0 then s else s.inject (blockPackets (s.block code) (s.reporterAt (p.msg - 1)))
  | none => s

/-- Whether a packet is a part of a block that has come whole to a die. -/
def Packet.blockAt (p : Packet) (place : Nat) : Bool := p.ofBlock && p.place == place && p.whole

/-- Whether every packet of the block of a stage has come to the die at a place. -/
def State.blockCame (s : State) (code place : Nat) : Bool :=
  decide ((blockPackets (s.block code) hubPlace).length ≤ (s.fabric.packets.filter (fun p => p.blockAt place)).length)

/-- The die agent at a place takes the packets of the block that has come. -/
def State.takeBlock (s : State) (place : Nat) : State := s.setPackets (s.fabric.packets.filter (fun p => !p.blockAt place))

/-! ### A flit at a router (R261, R272, R275, R293, R294) -/

/-- A packet that leaves the panel's fabric: back to the form it had on the link. -/
def Packet.bare (p : Packet) : Packet :=
  { p with ends := none, uid := 0, gone := 0, wait := [], isLocal := false, fromPort := 0, place := 0, vc := 0 }

/-- What sinks as soon as it is whole at a local output: management packets at the hub, which answers a request for a block, and those that leave the panel; transit
packets in the egress buffers or at the hub (Table 7.7, R275, R320, R465). A die agent's block waits there for its other packets. -/
def State.sink (s : State) (uid place : Nat) : State :=
  match s.entryAt uid place true with
  | none => s
  | some i =>
    match s.packet i with
    | none => s
    | some p =>
      if !p.whole ∨ p.typ < 9 ∨ p.typ = 0xA ∨ (p.ofBlock ∧ place ≠ hubPlace) then s
      else
        let s0 := s.dropPacket i
        if p.typ = 0xB then
          if place = hubPlace then { s0 with group := { s0.group with hubRx := s0.group.hubRx ++ [p.bare] } }
          else s0.queueTx (place - 0x100) p.vc p.bare
        else if place = hubPlace then s0.answerBlock p
        else if 0x1000 ≤ p.dst then s0.queueTx (place - 0x100) p.vc p.bare
        else s0

/-- Every local output that a flit left by takes what is whole there. -/
def State.sinkAll (s : State) (hs : List (Nat × Nat × Bool)) (p : Packet) : State :=
  forEach (hs.filter (fun b => b.1 == 0)) (fun _ s => s.sink p.uid p.place) s

/-- The first core, in index order, with a packet that its fabric interface or remote-access agent has not yet handed on, its clock not held. -/
def State.handsNext (s : State) : Option Nat :=
  (s.cores.find? (fun e => e.2.timing.jobs.any (fun j => j.packets != [] && j.acts != []) && !s.clockHeld e.1)).map (·.1)

/-- The panel in which a packet with an index is in the fabric: a number beyond those there names the next message of the hub, or with none the next packet that a
core hands on, whose cluster has then made its accesses so far (R168, R207; log entry 100). -/
def State.offer (s : State) (i : Nat) : State :=
  if i < s.fabric.packets.length then s
  else match s.handMsg, s.handsNext with
    | some t, _ => t
    | none, none => s
    | none, some c => s.runUntil (c / 8) (fun t => decide (s.fabric.packets.length < t.fabric.packets.length))

/-- FABRIC_PACKET_ARRIVAL: in a fabric cycle the router takes the next flit of a packet at one of its inputs. It corrects a lane's error, checks the header of
a head flit and, when every branch is eligible, sends the flit on by the packet's path; a flit of a local input has crossed no link that could harm it; one bound for a unit that a mark names is poisoned and goes no
further (R261, R272, R279, R292, R293, R387). -/
def execFabricPacketArrival (pkt cycle : Nat) (headerOk payloadOk : Bool) (lane : Option Nat) (t : State) : Out :=
  let s := t.offer pkt
  match s.packet pkt with
  | none => .next t
  | some p0 =>
    if p0.isLocal then .next s
    else
      let s0 := s.enterLocal p0 cycle
      let p := (s0.packet pkt).getD p0
      if !s0.atHead pkt p cycle then .next s0
      else
        if !headerOk ∧ p.fromPort ≠ 0 ∧ p.gone = 0 then .next (s0.discardHeader pkt p lane)
        else
          let s1 := s0.laneError p lane
          let fine := payloadOk || p.fromPort == 0
          let s2 := if fine then s1 else s1.poisonPacket pkt p
          if !s2.wayUsable p then .next (s2.setPackets (s2.fabric.packets.set pkt { p with poison := true }))
          else if s2.eligible pkt p cycle then
            let q := if fine then p else { p with poison := true }
            .next (s2.moveFlit pkt q cycle |>.sinkAll (s2.hops q) q)
          else .next s2

end Sys2Proof.Machine
end

