-- ==== Sys2Proof/Machine/Mailbox.lean ====
section
/-! DEFINITION. Mailbox slots, acceptance and the three lanes (09 R344 to R353; Tables 9.7 to 9.10). -/

namespace Sys2Proof.Machine

/-! ### The catalogue (Table 9.10) -/

/-- Opcodes of the query and the transfer lane. -/
def queryOps : List Nat := [0x001, 0x104, 0x401, 0x402, 0x403, 0x404, 0x405, 0x501, 0x601, 0x602]
def transferOps : List Nat := [0x301, 0x302, 0x804]
/-- Opcodes of the control lane. -/
def controlOps : List Nat :=
  [0x101, 0x102, 0x103, 0x201, 0x202, 0x203, 0x204, 0x603, 0x604, 0x605, 0x701, 0x702, 0x801, 0x802, 0x803]

/-- Whether an opcode is in the catalogue. -/
def opcodeDefined (op : Nat) : Bool := queryOps.contains op || transferOps.contains op || controlOps.contains op

/-- Whether a command may be relayed. -/
def relayable (op : Nat) : Bool := op == 0x801 || op == 0x802 || op == 0x803

/-- Whether LENGTH is one that the catalogue allows. -/
def lengthOk (op n : Nat) : Bool :=
  match op with
  | 0x001 => n == 8 | 0x101 => n == 16 | 0x102 => n == 0 | 0x103 => n == 8 | 0x104 => n == 16
  | 0x201 => n == 16 | 0x202 => (List.range 9).any (fun k => n == 24 + 24 * k) | 0x203 => n == 8 | 0x204 => n == 8
  | 0x301 => n == 24 | 0x302 => n == 24
  | 0x401 => n == 16 | 0x402 => n == 8 | 0x403 => n == 8 | 0x404 => n == 8 | 0x405 => n == 8
  | 0x501 => n == 16 | 0x601 => n == 40 | 0x602 => n == 16 | 0x603 => n == 5408 | 0x604 => n == 8 || n == 3456 | 0x605 => n == 16
  | 0x701 => n == 4 | 0x702 => n == 0
  | 0x801 => n == 8 | 0x802 => (List.range 16).any (fun k => n == 26 + 2 * k) | 0x803 => n == 0 | 0x804 => n == 32
  | _ => false

/-! ### Acceptance (R347, Table 9.8) -/

/-- The bytes of a slot. -/
def State.slotBytes (s : State) (slot : Nat) : List Byte := readBytes s.host.slots (slot * 256) 256

/-- The command that a slot holds, with its inline payload (Table 9.7). -/
def State.slotCmd (s : State) (slot : Nat) : Cmd :=
  let b := s.slotBytes slot
  { opcode := field b 0 2, tag := field b 2 1, flags := field b 3 1, len := field b 4 4, payAddr := field b 8 8, dest := field b 16 2,
    payload := (b.drop 32).take (field b 4 4), seq := s.cmds.accepted + 1 }

/-- INDIRECT. -/
def Cmd.indirect (c : Cmd) : Bool := c.flags.testBit 1

/-- The checks of Table 9.8 in order: status, DETAIL and record flags of the first that fails. -/
def State.acceptFail (s : State) (c : Cmd) (bytes : List Byte) : Option (Nat × Nat × Nat) :=
  if !opcodeDefined c.opcode then some (0x102, 0, 0)
  else if bitsOf c.flags 7 3 ≠ 0 then some (0x102, 3, 0)
  else
    match nonZero bytes 0x12 0x20 with
    | x :: _ => some (0x102, x, 0)
    | [] =>
      if s.cmds.inflight.any (fun d => d.tag == c.tag) then some (0x109, 2, 2)
      else if !lengthOk c.opcode c.len ∨ (!c.indirect ∧ c.len > 224) then some (0x108, 4, 0)
      else if c.indirect ∧ c.len ≠ 0 ∧ c.payAddr % 64 ≠ 0 then some (0x10A, 8, 0)
      else if c.indirect ∧ c.len > 2 ^ 20 then some (0x10A, 4, 0)
      else if !c.indirect ∧ c.payAddr ≠ 0 then some (0x10A, 8, 0)
      else if c.dest ≠ 0xFFFF ∧ !(s.isManager ∧ relayable c.opcode) then some (0x20B, 0, 0)
      else if c.dest ≠ 0xFFFF ∧ c.dest ≥ s.groupCount then some (0x108, 0x10, 0)
      else none

/-- Whether Tolni accepts slots now (R344, R359). -/
def State.accepting (s : State) : Bool := s.boot.tolniReady && s.log.enable

/-! ### Running commands -/

/-- The command with its payload; an indirect one is read when the command starts (R347). A relayed command comes with its payload (R352). -/
def State.started (s : State) (c : Cmd) : Cmd := if c.indirect && decide (c.tag < 256) then { c with payload := s.hostBytes c.payAddr c.len } else c

/-- Whether a command's record has been made. -/
def State.recMade (s : State) (seq : Nat) : Bool :=
  s.log.waiting.any (fun r => r.seq == seq) || !s.cmds.inflight.any (fun c => c.seq == seq)

/-- A query command: it runs on the snapshot at its start. -/
def runQuery (c : Cmd) (s : State) : State :=
  match c.opcode with
  | 0x001 => runInfo c s
  | 0x104 => runRead c s
  | 0x401 => runHealthErrors c s
  | 0x402 => runHealthCongestion c s
  | 0x403 => runHealthPorts c s
  | 0x404 => runHealthUnits c s
  | 0x405 => runHealthSensors c s
  | 0x501 => runEnvelopeReport c s
  | 0x601 => runAttest c s
  | 0x602 => runCertRead c s
  | _ => s

/-- A transfer-lane command starts. -/
def runTransfer (c : Cmd) (s : State) : State :=
  match c.opcode with
  | 0x301 => runDmaWrite c s
  | 0x302 => runDmaRead c s
  | 0x804 => runGroupCopy c s
  | _ => s

/-- A control command at this panel. -/
def runControl (c : Cmd) (s : State) : State :=
  match c.opcode with
  | 0x101 => runStage c s
  | 0x102 => runProof c s
  | 0x103 => runCommit c s
  | 0x201 => runPlanLoad c s
  | 0x202 => runStepStart c s
  | 0x203 => runStepCommit c s
  | 0x204 => runStepReplay c s
  | 0x603 => runKeyAdd c s
  | 0x604 => runDebugUnlock c s
  | 0x605 => runFwUpdate c s
  | 0x701 => runComputeReset c s
  | 0x702 => runPanelReset c s
  | 0x801 => runZlRetrain c s
  | 0x802 => runWindowOpen c s
  | 0x803 => runWindowClose c s
  | _ => s

/-- A control command whose DEST_SLOT names a slot goes down the tree; one that names the manager's own slot runs here as its target (R352). -/
def State.relayOut (s : State) (c : Cmd) : State :=
  let s1 := { s with cmds := { s.cmds with relayed := s.cmds.relayed ++ [c.tag] } }
  if c.dest = s.groupSlot then runControl { c with tag := 256 + c.seq, dest := 0xFFFF } s1
  else s1.send (.relayed c.dest c.seq c.opcode c.flags c.payload)

/-- Whether the command that started last still holds the lane: until its record is made (Table 9.10). -/
def State.laneHeld (s : State) : Bool := s.cmds.holding.any (fun c => !s.recMade c.seq)

/-- Commands that hold the lane until they complete; the others release it when their run returns. -/
def holdsLane (c : Cmd) : Bool := c.opcode == 0x201 || c.opcode == 0x701 || c.opcode == 0x702 || (c.dest != 0xFFFF && c.opcode != 0x801)

/-- Whether transfer-lane commands accepted before a place in the order are not complete (R351). -/
def State.transfersBefore (s : State) (seq : Nat) : Bool :=
  s.cmds.xfers.any (fun x => !x.ofStep && decide (x.cmd.seq < seq)) || s.cmds.xferQueue.any (fun c => decide (c.seq < seq)) ||
    s.group.copies.any (fun k => (s.cmdOf k.tag).any (fun c => decide (c.seq < seq)))

/-- Whether the next control command must wait: the lane is held, a flip is fixed (R69), another commit is pending (R378), earlier
transfers run before a PLAN_LOAD or a discarded step has yet to stop (R351), a profile reduction is pending (R429), or a factory unlock
waits for the step (R514). Settings commands run on while a COMPUTE_RESET holds the lane (R351). -/
def State.laneBlocked (s : State) (c : Cmd) : Bool :=
  (!(s.boot.resetTag.isSome && decide (0x101 ≤ c.opcode ∧ c.opcode ≤ 0x103)) && (s.laneHeld || s.boot.resetTag.isSome)) ||
  s.step.flip.isSome || s.log.waiting.any (fun r => r.opcode == 0x702 && r.status == 0) ||
  (c.opcode == 0x103 && s.settings.pendingCommit.isSome) ||
  (c.opcode == 0x201 && (s.transfersBefore c.seq || (s.isRunning && s.plan.isNone))) ||
  ((c.opcode == 0x202 || c.opcode == 0x204) && (s.power.reduction || s.power.reductionThermal)) ||
  (c.opcode == 0x604 && (s.started c).arg 0 1 == 2 && s.isRunning)

/-- Starts one control command. -/
def State.startControl (s : State) (c : Cmd) : State :=
  let s1 := { s with cmds := { s.cmds with holding := if holdsLane c then some c else s.cmds.holding } }
  if c.dest = 0xFFFF then runControl (s.started c) s1 else s1.relayOut (s.started c)

/-- Runs the control lane in acceptance order until it blocks or is empty. -/
def State.runLane : Nat → State → State
  | 0, s => s
  | n + 1, s =>
    match s.cmds.lane with
    | [] => s
    | c :: rest =>
      if s.laneBlocked c then s
      else State.runLane n ({ s with cmds := { s.cmds with lane := rest } }.startControl c)

/-- Whether a PLAN_LOAD has started and is not complete, or waits at the head of a free lane for earlier transfers (R351). -/
def State.loadRunning (s : State) : Bool :=
  (s.laneHeld && s.cmds.holding.any (fun c => c.opcode == 0x201)) ||
    (!s.laneHeld && (s.cmds.lane.head?).any (fun c => c.opcode == 0x201 && s.transfersBefore c.seq))

/-- Starts transfer-lane commands that wait in acceptance order, at most 64 at once; one accepted while a PLAN_LOAD runs waits for it, and one whose
stacks are not ready lets those behind it go on (R350, R351, R463). -/
def State.runTransfers : List Cmd → State → State
  | [], s => s
  | c :: cs, s =>
    let afterLoad := s.loadRunning && (s.cmds.holding.any (fun d => decide (d.seq < c.seq)) ||
      (s.cmds.lane.head?).any (fun d => decide (d.seq < c.seq)))
    if (s.cmds.xfers.filter (fun x => !x.ofStep)).length + s.group.copies.length ≥ 64 ∨ afterLoad then s
    else if s.stacksWait (s.started c) then State.runTransfers cs s
    else State.runTransfers cs (runTransfer (s.started c) { s with cmds := { s.cmds with xferQueue := s.cmds.xferQueue.filter (fun d => d.seq != c.seq) } })

/-- Runs what the lanes can run now. -/
def State.runLanes (s : State) : State :=
  let s1 := State.runLane s.cmds.lane.length s
  State.runTransfers s1.cmds.xferQueue s1

/-- Puts an accepted command in its lane. During COMPUTE_RESET, commands that need the crumb are refused at once (R351). -/
def State.dispatch (s : State) (c : Cmd) : State :=
  if queryOps.contains c.opcode then runQuery (s.started c) s
  else if transferOps.contains c.opcode then State.runLanes { s with cmds := { s.cmds with xferQueue := s.cmds.xferQueue ++ [c] } }
  else if needsCrumb c.opcode ∧ s.boot.resetTag.isSome then runControl (s.started c) s
  else State.runLanes { s with cmds := { s.cmds with lane := s.cmds.lane ++ [c] } }

/-- A slot taken at the head of the acceptance order: OWN clears and its command is in flight (R347, R348). -/
def State.takeSlot (s : State) (slot : Nat) : State :=
  let c := s.slotCmd slot
  { s with
    host := { s.host with slots := tset 0 s.host.slots (slot * 256 + 3) (tget 0 s.host.slots (slot * 256 + 3) &&& 0xFE),
                          acceptQ := s.host.acceptQ.drop 1 },
    cmds := { s.cmds with accepted := s.cmds.accepted + 1,
                          inflight := if s.cmds.inflight.any (fun d => d.tag == c.tag) then s.cmds.inflight else s.cmds.inflight ++ [c] } }

/-- Accepts the slot at the head of the acceptance order: the command is refused with its record or goes to its lane. -/
def State.acceptSlot (s : State) (slot : Nat) : State :=
  match s.acceptFail (s.slotCmd slot) (s.slotBytes slot) with
  | some f => (s.takeSlot slot).completeAt (s.slotCmd slot) s.now f.1 0xFFFF f.2.1 0 0 f.2.2
  | none => (s.takeSlot slot).dispatch (s.slotCmd slot)

/-- The command of one catalogue row: it acts when its slot is the next to be accepted and holds that opcode; a slot whose opcode no row
has is accepted by whichever command names it, and refused by check 1 of Table 9.8. -/
def acceptAs (op slot : Nat) (s : State) : Out :=
  if slot ≥ 32 then .next s
  else if !s.accepting ∨ s.host.acceptQ.head? ≠ some slot then .next s
  else if (s.slotCmd slot).opcode ≠ op ∧ opcodeDefined (s.slotCmd slot).opcode then .next s
  else .next (s.acceptSlot slot)

/-! ### The 28 commands -/

/-- INFO (R353, Table 9.11). -/
def execInfo (slot : Nat) (s : State) : Out := acceptAs 0x001 slot s
/-- STAGE (R372). -/
def execStage (slot : Nat) (s : State) : Out := acceptAs 0x101 slot s
/-- PROOF (R374). -/
def execProof (slot : Nat) (s : State) : Out := acceptAs 0x102 slot s
/-- COMMIT (R377, R378, R539). -/
def execCommit (slot : Nat) (s : State) : Out := acceptAs 0x103 slot s
/-- READ (R381). -/
def execRead (slot : Nat) (s : State) : Out := acceptAs 0x104 slot s
/-- PLAN_LOAD (R85, R86). -/
def execPlanLoad (slot : Nat) (s : State) : Out := acceptAs 0x201 slot s
/-- STEP_START (R64, R65). -/
def execStepStart (slot : Nat) (s : State) : Out := acceptAs 0x202 slot s
/-- STEP_COMMIT (R69). -/
def execStepCommit (slot : Nat) (s : State) : Out := acceptAs 0x203 slot s
/-- STEP_REPLAY (R70). -/
def execStepReplay (slot : Nat) (s : State) : Out := acceptAs 0x204 slot s
/-- DMA_WRITE (R354). -/
def execDmaWrite (slot : Nat) (s : State) : Out := acceptAs 0x301 slot s
/-- DMA_READ (R354). -/
def execDmaRead (slot : Nat) (s : State) : Out := acceptAs 0x302 slot s
/-- HEALTH_ERRORS (R487). -/
def execHealthErrors (slot : Nat) (s : State) : Out := acceptAs 0x401 slot s
/-- HEALTH_CONGESTION (R295). -/
def execHealthCongestion (slot : Nat) (s : State) : Out := acceptAs 0x402 slot s
/-- HEALTH_PORTS (R310). -/
def execHealthPorts (slot : Nat) (s : State) : Out := acceptAs 0x403 slot s
/-- HEALTH_UNITS (R388). -/
def execHealthUnits (slot : Nat) (s : State) : Out := acceptAs 0x404 slot s
/-- HEALTH_SENSORS (R451). -/
def execHealthSensors (slot : Nat) (s : State) : Out := acceptAs 0x405 slot s
/-- ENVELOPE_REPORT (R433). -/
def execEnvelopeReport (slot : Nat) (s : State) : Out := acceptAs 0x501 slot s
/-- ATTEST (R515). -/
def execAttest (slot : Nat) (s : State) : Out := acceptAs 0x601 slot s
/-- CERT_READ (R502). -/
def execCertRead (slot : Nat) (s : State) : Out := acceptAs 0x602 slot s
/-- KEY_ADD (R511). -/
def execKeyAdd (slot : Nat) (s : State) : Out := acceptAs 0x603 slot s
/-- DEBUG_UNLOCK (R513, R514). -/
def execDebugUnlock (slot : Nat) (s : State) : Out := acceptAs 0x604 slot s
/-- FW_UPDATE (R507). -/
def execFwUpdate (slot : Nat) (s : State) : Out := acceptAs 0x605 slot s
/-- COMPUTE_RESET (R475). -/
def execComputeReset (slot : Nat) (s : State) : Out := acceptAs 0x701 slot s
/-- PANEL_RESET (R351). -/
def execPanelReset (slot : Nat) (s : State) : Out := acceptAs 0x702 slot s
/-- ZL_RETRAIN (R307). -/
def execZlRetrain (slot : Nat) (s : State) : Out := acceptAs 0x801 slot s
/-- WINDOW_OPEN (R336). -/
def execWindowOpen (slot : Nat) (s : State) : Out := acceptAs 0x802 slot s
/-- WINDOW_CLOSE (R336). -/
def execWindowClose (slot : Nat) (s : State) : Out := acceptAs 0x803 slot s
/-- GROUP_COPY (R356). -/
def execGroupCopy (slot : Nat) (s : State) : Out := acceptAs 0x804 slot s

end Sys2Proof.Machine
end

