-- ==== Sys2Proof/Machine/Groups.lean ====
section
/-! DEFINITION. The group: management messages, beacons, joining, and what a lost manager or worker does (02 R52, R61, R67 to R70; 08
R326 to R337; 09 R352; 10 R382; 11 R400, R402). -/

namespace Sys2Proof.Machine

/-! ### Steps of a group -/

/-- A worker's run of the group step: frames alone, from the first tick at or after the time that the manager names (R67, R70). STEP_START closes an open state-load
window, STEP_REPLAY does not (R336). -/
def State.workerRun (s : State) (tick : Nat) (st : Step) : State :=
  let s1 := { s with step := { st with
    state := .running, phase := .wait, frame := 0, startAt := some tick, flip := none, flipTag := none, faults := [], reports := [],
    stop := none, inputs := [], outputs := [], autoCommit := false, acceptedAt := s.now } }
  { s1 with group := { s1.group with window := if st.replay then s1.group.window else none, live := true } }

/-- The manager orders the stop of a group step at the first tick at least two frame periods ahead (R61, R334). -/
def State.orderStop (s : State) (slot : Nat) (f : StepFault) : State :=
  if !(s.isRunning && s.leads) then s
  else
    let s1 := { s with step := { s.step with reports := s.step.reports ++ [(slot, f)] } }
    if s.step.stop.isSome then s1
    else
      let t := s.now + 2 * s.period
      State.send { s1 with step := { s1.step with stop := some t } } (.stepStop slot f.status t)

/-- A worker's failure at the manager: it stops the running step, and one that comes after the step has failed still bears on its replay (R59, R61,
R71). -/
def State.takeFailure (s : State) (slot : Nat) (f : StepFault) : State :=
  if s.isRunning then s.orderStop slot f
  else if s.step.state = .failed then
    let s1 := { s with step := { s.step with reports := s.step.reports ++ [(slot, f)] } }
    let s2 := s1.judgeBudget
    { s2 with step := { s2.step with state := s2.afterFailure } }
  else s

/-- A relayed command at its target: it joins the control lane and runs by the target's own rules, and its outcome goes back (R352). Its tag, 256 and
the manager's number of the command, marks it. -/
def State.runRelayed (s : State) (seq opcode flags : Nat) (payload : List Byte) : State :=
  let c : Cmd := { opcode := opcode, tag := 256 + seq, flags := flags, len := payload.length, payAddr := 0, dest := 0xFFFF, payload := payload }
  if relayable opcode then State.runLanes { s with cmds := { s.cmds with lane := s.cmds.lane ++ [c] } } else s

/-- A worker's load of the image that the manager sent it (R85, R86, R332). -/
def State.workerLoad (s : State) (bytes : List Byte) : State :=
  if s.resetting then s.send (.loaded s.groupSlot 0x20F 0)
  else
    let r := s.loadImage bytes
    r.2.send (.loaded s.groupSlot r.1.1 r.1.2)

/-! ### Messages (R330, Table 8.11) -/

/-- What a message does at a manager. -/
def State.managerTakes (s : State) (m : GroupMsg) : State :=
  match m with
  | .stretchReport slot ns profile => { s with group := { s.group with
      stretch := tset 0 s.group.stretch slot ns, profiles := tset 0 s.group.profiles slot profile } }
  | .failure slot frame status core detail => s.takeFailure slot { frame := frame, status := status, core := core, detail := detail }
  | .health slot st ports counts => { s with group := { s.group with
      healthAt := tset 0 s.group.healthAt slot s.now, health := tset {} s.group.health slot { state := st, ports := ports, counts := counts } } }
  | .joined slot => { s with group := { s.group with
      joined := insertNat slot s.group.joined, healthAt := tset 0 s.group.healthAt slot s.now,
      images := s.group.images.filter (fun x => x.1 != slot) } }
  | .loaded slot status detail => s.loadReport slot status detail
  | .stepDone slot => { s with group := { s.group with done := insertNat slot s.group.done } }
  | .relayAnswer slot seq status detail result => s.relayDone slot seq status detail result
  | .planLost slot => { s with group := { s.group with images := s.group.images.filter (fun x => x.1 != slot) } }
  | _ => s

/-- A worker that has stepped its timebase and not joined ends the frame in progress at the epoch sequence's next tick, as it now knows that sequence (R402). -/
def State.realign (s : State) : State :=
  match s.isWorker && s.group.stepped && !s.group.selfJoined && s.clock.nextTick.isSome, s.group.epoch with
  | true, some e => { s with clock := { s.clock with nextTick := some (s.epochTick e) } }
  | _, _ => s

/-- The status that keeps a worker from starting its part of a step: its profile in force does not carry its plan (R43, R65; log entry 104). -/
def State.workerBars (s : State) (p : Plan) : Nat :=
  if s.power.profile = 3 then 0x206 else if profileFloor s.power.profile < p.fFloor then 0x205 else 0

/-- A worker starts its part of a step, or reports why it does not. -/
def State.workerStart (s : State) (p : Plan) (tick : Nat) (st : Step) : State :=
  if s.workerBars p = 0 then s.workerRun tick st else s.send (.failure s.groupSlot 0 (s.workerBars p) 0xFFFF 0)

/-- What a message does at a worker. The flip that the manager fixes takes place on every panel, also on one whose plan is gone since its clean run (R69). -/
def State.workerTakes (s : State) (m : GroupMsg) : State :=
  match m with
  | .stretchApply ns tick => { s with clock := s.clock.decide ns tick }
  | .epoch tick => State.realign { s with group := { s.group with epoch := some tick } }
  | .stepStart stepIndex tick =>
    match s.plan with
    | some p =>
      if s.step.state = .idle then
        s.workerStart p tick { s.step with
          stepIndex := stepIndex, frameBase := stepIndex * p.frames % 2 ^ 64, replay := false, lastOverrun := [],
          clockRuns := if stepIndex = s.step.stepIndex then s.step.clockRuns else [] }
      else s
    | none => s
  | .stepCommit tick => { s with step := { s.step with flip := some tick } }
  | .stepReplay stepIndex tick =>
    match s.plan with
    | some p =>
      if s.isRunning then s
      else s.workerStart p tick { s.step with
        stepIndex := stepIndex, frameBase := stepIndex * p.frames % 2 ^ 64, replay := true, lastOverrun := s.overruns }
    | none => s
  | .stepTaken => { s with group := { s.group with live := true } }
  | .stepLeft tick => { s with group := { s.group with live := false, leftAt := tick } }
  | .beacon manager stamp next ft gc es st =>
    State.realign { s with group := { s.group with
      manager := manager, epoch := some next,
      values := if s.group.values.isSome && decide (stamp < s.group.valuesAt) then s.group.values
                else some { frameTicks := ft, guardCycles := gc, envelopeStretch := es, stretch := st } } }
  | .stepStop slot status tick =>
    if s.isRunning then
      { s with step := { s.step with
        stop := some tick, reports := s.step.reports ++ [(slot, { frame := s.step.frame, status := status, core := 0xFFFF, detail := 0 })] } }
    else s
  | .commit entries tick waits =>
    let c : PendingCommit :=
      { entries := entries.map (fun e => { key := e.1, op := 0, rsv := 0, value := e.2 }), tick := tick, tag := none, waits := waits }
    { s with settings := { s.settings with groupCommit := some c } }
  | _ => s

/-- A worker relays upward what is for the manager; what the manager sends to all it obeys and relays to the slots below it. A worker whose manager
is lost takes no orders (R330, R333). -/
def State.workerHub (s : State) (m : GroupMsg) : State :=
  if goesUp m then s.send m
  else if s.group.managerLost then s
  else
    let s1 := s.workerTakes m
    if s.hasBelow then s1.send m else s1

/-- Messages that a relay queue toward a neighbour holds: those sent within the 2 µs that a hop takes at most (R330, Table 8.7; log entry 50). -/
def State.queued (s : State) (e : Nat) : Nat :=
  ((s.group.sent.zip s.group.sentAt).filter (fun x => decide (s.now < x.2 + 2000) && (s.msgEdges x.1).contains e)).length

/-- Whether every relay queue that a message takes has room: 64 messages for each tree direction of each neighbour (Table 8.7). -/
def State.relayRoom (s : State) (m : GroupMsg) : Bool := (s.msgEdges m).all (fun e => decide (s.queued e < 64))

/-- Whether a message waits in its receive buffer: one that this hub has to relay while its queue is full (Table 8.7), and one that came in TC3, the plan
images, during the coolant-loss response (R335). A worker whose manager is lost takes no order either (R333). -/
def State.holdsMsg (s : State) (m : GroupMsg) : Bool :=
  match m with
  | .planImage _ _ => s.thermal.active || (s.isWorker && s.group.managerLost)
  | .relayed slot _ _ _ _ => (s.isWorker && s.group.managerLost) || (slot != s.groupSlot && !s.relayRoom m)
  | .copyAck _ to_ _ _ => to_ != s.groupSlot && !s.relayRoom m
  | .transit _ => !s.relayRoom m
  | _ => s.isWorker && (goesUp m || s.hasBelow) && !s.relayRoom m

/-- GROUP_MESSAGE_RECEIVE: a hub acts on a message that is for it, or relays it one tree hop (R330, R332). -/
def execGroupMessageReceive (msg : GroupMsg) (s : State) : Out :=
  if s.holdsMsg msg then .next s
  else match msg with
  | .transit _ => .next (s.send msg)
  | .planImage slots bytes =>
    let s1 := if slots.contains s.groupSlot then s.workerLoad bytes else s
    .next (s1.distribute ((slots.filter (· != s.groupSlot)).map (fun g => (g, bytes))))
  | .relayed slot seq opcode flags payload =>
    if slot = s.groupSlot then .next (s.runRelayed seq opcode flags payload) else .next (s.send msg)
  | .copyAck slot to_ id inside => if to_ = s.groupSlot then .next (s.takeAck slot id inside) else .next (s.send msg)
  | m => if s.isManager then .next (s.managerTakes m) else if s.isWorker then .next (s.workerHub m) else .next s

/-- COMMAND_RELAY: the target's outcome reaches the manager (R352). -/
def execCommandRelay (slot seq status detail result : Nat) (s : State) : Out :=
  if s.isManager then .next (s.relayDone slot seq status detail result) else .next s

/-! ### Beacons and joining (R331, R333, R400) -/

/-- The manager's beacon, with its group-wide values (R330, R382, R400). -/
def State.beaconMsg (s : State) : GroupMsg :=
  .beacon s.groupSlot s.now (s.clock.nextTick.getD s.now) s.frameTicks s.guardCycles s.stretchMax s.clock.stretch

/-- A time that moves with a step of the timebase. -/
def movedTime (d : Int) (t : Nat) : Nat := ((t : Int) + d).toNat

/-- What a step of the timebase by `d` ns does to the moments from which the panel measures time, so that every duration goes on as it was: it is the
count that jumps (R400; log entry 116). The ticks that the manager names are in its own time and stay. -/
def State.moveMoments (s : State) (d : Int) : State :=
  let mv := movedTime d
  { s with
    boot := { s.boot with startedAt := s.boot.startedAt + d, resetAt := s.boot.resetAt.map mv, resetDrain := s.boot.resetDrain.map mv, began := s.boot.began.map (fun e => (e.1, mv e.2)) },
    clock := { s.clock with
      lastTick := mv s.clock.lastTick, refLostAt := mv s.clock.refLostAt, trimAt := mv s.clock.trimAt,
      dies := s.clock.dies.map (fun (e : Nat × DieClock) => (e.1, { e.2 with slewFrom := mv e.2.slewFrom })) },
    power := { s.power with recent := s.power.recent.map (fun (e : Nat × List (Nat × Nat × Nat)) => (e.1, e.2.map (fun x => (mv x.1, x.2)))) },
    thermal := { s.thermal with
      lastPulse := mv s.thermal.lastPulse, exitFrom := s.thermal.exitFrom.map mv,
      tdZeroFrom := if s.thermal.tdZeroFrom = 0 then 0 else mv s.thermal.tdZeroFrom,
      history := s.thermal.history.map (fun e => (mv e.1, e.2)),
      pairs := s.thermal.pairs.map (fun (e : Nat × Pair) => (e.1, { e.2 with
        differSince := e.2.differSince.map mv, invalidSince := e.2.invalidSince.map mv, hotSince := e.2.hotSince.map mv })) },
    hbm := s.hbm.map (fun (e : Nat × Stack) => (e.1, { e.2 with invalidSince := e.2.invalidSince.map mv, hotSince := e.2.hotSince.map mv })),
    units := { s.units with
      suspects := s.units.suspects.map (fun x => (x.1, mv x.2.1, x.2.2)),
      deratedAt := s.units.deratedAt.map (fun e => (e.1, max 1 (mv e.2))) },
    ports := s.ports.map (fun (e : Nat × Port) => (e.1, { e.2 with
      challenge := e.2.challenge.map (fun c => (c.1, mv c.2)), retryAt := e.2.retryAt.map mv })),
    irq := { s.irq with unsignalled := s.irq.unsignalled.map (fun u => (mv u.1, u.2)) } }

/-- The one step of a worker's timebase to the manager's value (R400): the seconds, minutes and updates of the new count follow, and the minute that it
falls in is STEPPED (Table 12.8). -/
def State.stepTimebase (s : State) (t : Nat) : State :=
  let s1 := s.moveMoments ((t : Int) - (s.now : Int))
  { s1 with
    clock := { s1.clock with timebase := t, slew := 0, added := s.clock.added + ((t : Int) - (s.now : Int)) },
    power := { s1.power with
      lastSecond := t / 10 ^ 9 * 10 ^ 9, minuteStart := t / (60 * 10 ^ 9) * (60 * 10 ^ 9), minuteFlags := s1.power.minuteFlags ||| 8 },
    thermal := { s1.thermal with lastSecond := t / 10 ^ 9 * 10 ^ 9, tdAt := t / 10 ^ 8 * 10 ^ 8 } }

/-- The manager's time at a beacon's receipt, in 62.5 ps: the stamp at its transmission and half the round trip of the exchange (R400). -/
def beaconTime (stamp roundTrip : Nat) : Int := 16 * stamp + (roundTrip / 2 : Nat)

/-- The rate trim that the beacons in a row give, in 0.001 ppm: the manager's time since the first of them against this hub's own count, without what it has added and
withheld. The spec gives no estimator (DESIGN CHOICE: log entry 120). -/
def State.rateOf (s : State) (first : Option (Int × Int)) (time own : Int) : Int :=
  match first with
  | some (m, u) => if u < own then ((time - m) - (own - u)) * 10 ^ 9 / (own - u) else s.clock.trim
  | none => s.clock.trim

/-- TIME_BEACON: a manager sends its beacon down the tree. A worker counts beacons in a row, estimates its rate from them, steps its timebase once before it joins,
after the third, and slews after that (R399, R400). `roundTrip` is in units of 62.5 ps, `received` its own count at the receipt. -/
def execTimeBeacon (stamp roundTrip received : Nat) (s : State) : Out :=
  if s.leads then .next (s.send s.beaconMsg)
  else if !s.isWorker ∨ s.group.managerLost then .next s
  else
    let row := match s.group.lastBeacon with
      | some t => decide (s.now < t + 2000000)
      | none => false
    let n := if row then s.group.beacons + 1 else 1
    let time := beaconTime stamp roundTrip
    let own : Int := 16 * ((received : Int) - s.clock.added)
    let rate := s.rateOf (if row then s.group.firstBeacon else none) time own
    let ok := decide (-50000 ≤ rate ∧ rate ≤ 50000)
    let s0 := if ok ∨ s.group.selfJoined ∨ !s.group.rateOk then s
      else s.addError { unit := hubUnit, code := 0x408, cls := 1 }
    let s1 := { s0 with group := { s0.group with
      beacons := n, lastBeacon := some s.now, rateOk := ok, firstBeacon := if row then s.group.firstBeacon else some (time, own) } }
    let d := (time + 8 - 16 * received) / 16
    if !ok then .next s1
    else
      let s2 := s1.setTrim rate
      if !s.group.selfJoined ∧ !s.group.stepped ∧ n ≥ 3 then
        let here := ((s.now : Int) + d).toNat
        .next (State.realign (State.stepTimebase { s2 with group := { s2.group with stepped := true, lastBeacon := some here } } here))
      else if s.group.selfJoined ∨ s.group.stepped then .next { s2 with clock := s2.clock.slewBy d }
      else .next s2

/-- Whether every port of the bundles toward neighbours is ACTIVE or retired (R331). -/
def State.bundlesUp (s : State) : Bool :=
  (List.range 8).all (fun e => (s.bundle e).all (fun p => (s.port p).state == 4 || (s.port p).state == 5))

/-- Whether the frame tick lies within 50 ns of the epoch sequence (R331, Table 11.4). -/
def State.tickAligned (s : State) : Bool :=
  match s.group.epoch, s.clock.nextTick with
  | some e, some t => let p := s.groupPeriod
                      let d := (t + p - e % p) % p
                      decide (d ≤ 50) || decide (p ≤ d + 50)
  | _, _ => false

/-- WORKER_JOIN: ports, three beacons, a timebase within 20 ns and ticks within 50 ns (R331). The worker takes the manager's values at its next tick
(R382). -/
def execWorkerJoin (s : State) : Out :=
  if s.isWorker ∧ !s.group.selfJoined ∧ !s.group.managerLost ∧ s.bundlesUp ∧ s.group.beacons ≥ 3 ∧ s.group.stepped ∧ s.group.rateOk ∧
      (-20 ≤ s.clock.slew ∧ s.clock.slew ≤ 20) ∧ s.tickAligned then
    .next (State.send { s with group := { s.group with selfJoined := true, joining := true } } (.joined s.groupSlot))
  else .next s

/-- MANAGER_LOST: no beacon for 8 ms; a running step stops at the next tick with 0x0406 (R333). -/
def execManagerLost (s : State) : Out :=
  match s.group.lastBeacon with
  | some t =>
    if s.isWorker ∧ !s.group.managerLost then
      let s1 := s.advanceTo (t + 8000000)
      let s2 := { s1 with group := { s1.group with managerLost := true, beacons := 0 } }
      .next ((s2.addError { unit := hubUnit, code := 0x406, cls := 1, flags := if s2.isRunning then flStepFailed else 0 }).failStep
        s2.step.frame 0x406 0xFFFF 0)
    else .next s
  | none => .next s

/-- WORKER_SILENT: 2 s without health stop the group step with 0x0405 and the silent slot, which has to join again (R331, R334, R337). -/
def execWorkerSilent (slot : Nat) (s : State) : Out :=
  if s.leads ∧ s.group.joined.contains slot then
    let s1 := s.advanceTo (tget 0 s.group.healthAt slot + 2 * 10 ^ 9)
    let s2 := s1.orderStop slot { frame := s1.step.frame, status := 0x405, core := 0xFFFF, detail := 0 }
    .next { s2 with group := { s2.group with joined := s2.group.joined.filter (· != slot) } }
  else .next s

/-- HEALTH_GATHER: once a second a worker sends its counters, port status and state up the tree, and the manager holds who has reported
(R330). -/
def execHealthGather (s : State) : Out :=
  if s.isWorker then
    .next (s.send (.health s.groupSlot (stepCode s.shownState) ((List.range 64).map s.portWord)
      (s.units.counts.map (fun c => (c.unit, c.code, c.times.length)))))
  else if s.leads then
    .next { s with group := { s.group with gathered := s.group.joined.filter (fun g => decide (s.now ≤ tget 0 s.group.healthAt g + 10 ^ 9)) } }
  else .next s

end Sys2Proof.Machine
end

