-- ==== Sys2Proof/Machine/Units.lean ====
section
/-! DEFINITION. Marks, probes, the defect ledger, scrubbing, the engine firewall and the debug port (06 R231; 10 R385 to R387; 14 R467,
R468; 15 R484; 16 R513 to R517; 17 R530). -/

namespace Sys2Proof.Machine

/-! ### Marks and probes (R385, R387) -/

/-- DATA_PATH_MARK: the mark takes effect at once (R385). -/
def execDataPathMark (unit code reporter : Nat) (s : State) : Out :=
  if unit ≥ 2 ^ 32 then .next s else .next (s.markUnit unit code reporter)

/-- UNIT_REPROBE: at the next frame tick the smallest unit that the probe shows to contain the failure is retired; after a probe that
passes, the marked unit itself (R387). The marked unit becomes RETIRED with an enclosing unit, with its own event and ledger entry (DESIGN CHOICE: R387 does not say what
the table then shows of it; log entry 137). -/
def execUnitReprobe (unit found : Nat) (s : State) : Out :=
  if unit ≥ 2 ^ 32 then .next s
  else
    match s.units.suspects.find? (fun x => x.1 == unit && x.2.2 == none) with
    | none => .next s
    | some x =>
      let target := if (enclosing unit).contains found then found else unit
      .next { s with units := { s.units with
        suspects := s.units.suspects.map (fun y => if y = x then (y.1, y.2.1, some target) else y),
        due := s.units.due ++ [(target, 2, 3)] ++ (if target = unit then [] else [(unit, 2, 3)]) } }

/-! ### The defect ledger (R467, R468) -/

/-- LEDGER_WRITE (R468). ACTION above 5 and SOURCE outside 2 to 4 are reserved (Table 14.4). -/
def execLedgerWrite (unit action source detail : Nat) (s : State) : Out :=
  if unit ≥ 2 ^ 32 then .next s
  else if action > 5 ∨ source < 2 ∨ source > 4 then .next s
  else .next (s.addLedger unit action source (detail % 2 ^ 32))

/-! ### Scrubbing (R230, R231) -/

/-- LOCATION of a row's error: row, memory number and 128-bit word (Table 15.5). -/
def rowLocation (m row word : Nat) : Nat := row + (if m < 0x80000000 then 0 else 2 ^ 16) + word % 256 * 2 ^ 20

/-- A core's accumulator memory at 0x9000_0000, or its instruction store at 0xA000_0000, plus its index: the memory's number in Table 15.5 and the
core (DESIGN CHOICE: the spec numbers them nowhere else; log entry 110). -/
def coreArray (m : Nat) : Option (Nat × Nat) :=
  if 0x90000000 ≤ m ∧ m < 0x90000000 + 2304 then some (2, m - 0x90000000)
  else if 0xA0000000 ≤ m ∧ m < 0xA0000000 + 2304 then some (3, m - 0xA0000000) else none

/-- What a memory's error gives its record: counted against the physical row, whose spare takes its place at the next start (Table 15.1, Table 15.3). The syndrome
is a free value (log entry 14). -/
def State.memoryError (s : State) (key location die cycle : Nat) (bad : Bool) (flags : Nat) : State :=
  (s.takeFree 1).countEvent
    { unit := keyUnit key, code := if bad then 0x1002 else 0x1001, cls := 0, location := location, aux := (Config.freeWord s.free).toNat, cycle := cycle, reporter := die,
      key := some key, repairs := true, detail := rowDetail key, flags := if bad then flPoisoned + flags else 0 } false

/-- A word of an accumulator memory or instruction store, met by the read of it: an uncorrectable one poisons the accumulator row, or is consumed by the
fetch (R230, R489). -/
def State.coreArrayError (s : State) (kind c row word : Nat) (bad : Bool) : State :=
  let l := row + kind * 2 ^ 16 + word % 256 * 2 ^ 20
  let s1 := s.memoryError (rowKey (s.coreUnit c) kind row) l (c / 16) (s.core c).cycle bad 0
  if !bad then s1
  else if kind = 2 then s1.setCore c { s1.core c with accBad := insertNat row (s1.core c).accBad }
  else
    s1.poisonRead c { unit := s1.coreUnit c, code := 0x403, cls := 2, location := l, aux := 1, cycle := (s1.core c).cycle, reporter := c / 16 }

/-- SCRUB_ROW: outcome 1 corrects a word, outcome 2 finds one uncorrectable and marks the row; each counts against the row. Outcomes 3 and 4 are the same
met by a unit's read just before it reads, for which the table has no command of its own (R230; log entry 110); nothing scrubs accumulators or
instruction stores. Scrub stops while the cluster is gated (R234). -/
def execScrubRow (memory row outcome word : Nat) (s : State) : Out :=
  match coreArray memory with
  | some (kind, c) =>
    if row ≥ (if kind = 2 then 2048 else 8192) ∨ outcome < 3 ∨ outcome > 4 then .next s
    else .next (s.coreArrayError kind c row word (outcome == 4))
  | none =>
    if !(decide (memory < 2304) || decide (0x80000000 ≤ memory ∧ memory < 0x80000000 + 288)) then .next s
    else if row ≥ memRows memory ∨ (s.clusterGated (memCluster memory) ∧ outcome ≤ 2) ∨ outcome = 0 ∨ outcome > 4 then .next s
    else
      let bad := outcome == 2 || outcome == 4
      let a := memRowAddr memory row
      .next ((if bad then s.markPoison a true else s).memoryError
        (rowKey (s.memUnit memory) (bit (decide (0x80000000 ≤ memory))) row) (rowLocation memory row word) (memCluster memory / 2)
        (if memory < 2304 ∧ 3 ≤ outcome then (s.core memory).cycle else 0) bad (s.poisonFlags (panelTarget s.units.gridClass a)))

/-! ### The optical engine firewall (R516, R517) -/

/-- Whether an access lies in the allow-list (Table 16.10): target 0 the engine's own lane, equalisation and optical power registers, 1 its
mailbox of 4 KiB, 2 its eight ports' status words; every other number stands for anything else (log entry 31). -/
def allowed (target offset length : Nat) (isWrite : Bool) : Bool :=
  decide (target = 0) || (decide (target = 1) && decide (offset + length ≤ 4096)) ||
    (decide (target = 2) && !isWrite && decide (offset + length ≤ 64))

/-- Starts a new window of a millisecond as the timebase passes it. -/
def State.firewallWindows (s : State) : State :=
  let ms := s.now / 10 ^ 6
  { s with security := { s.security with
    transactions := if ms = s.security.msWindow then s.security.transactions else [], msWindow := ms } }

/-- A refused transaction: counted, and more than 65,536 within one second, wherever it begins, close the sideband (R517). -/
def State.refuseEngine (s : State) (e : Nat) : State :=
  let ts := (tget [] s.security.refusedAt e).filter (fun t => decide (s.now < t + 10 ^ 9)) ++ [s.now]
  { s with security := { s.security with
    refusals := tset 0 s.security.refusals e (min (2 ^ 32 - 1) (tget 0 s.security.refusals e + 1)),
    refusedAt := tset [] s.security.refusedAt e ts,
    closed := if ts.length > 65536 then insertNat e s.security.closed else s.security.closed } }

/-- What an admitted access does: the mailbox and the lane, equalisation and optical power registers are read and written, and the ports' status words are read. The spec
gives those registers no layout: each byte reads as it was written last, 0 at the start (DESIGN CHOICE: log entry 31). -/
def State.serveEngine (s : State) (e target offset length : Nat) (isWrite : Bool) (data : List Byte) : State :=
  let answer := fun (s : State) (bs : List Byte) => { s with security := { s.security with sideband := bs } }
  match target, isWrite with
  | 1, true => { s with security := { s.security with
      mailbox := (List.range length).foldl (fun m i => tset 0 m (e * 4096 + offset + i) ((fitBytes length data).getD i 0)) s.security.mailbox } }
  | 1, false => answer s ((List.range length).map (fun i => tget 0 s.security.mailbox (e * 4096 + offset + i)))
  | 2, false => answer s ((((List.range 8).flatMap (fun i => toLE 8 (s.portWord (8 * e + i)))).drop offset).take length)
  | 0, true => { s with security := { s.security with
      laneRegs := (List.range length).foldl (fun m i => tset 0 m ((offset + i) * 8 + e) ((fitBytes length data).getD i 0)) s.security.laneRegs } }
  | 0, false => answer s ((List.range length).map (fun i => tget 0 s.security.laneRegs ((offset + i) * 8 + e)))
  | _, _ => s

/-- ENGINE_SIDEBAND_ACCESS: admitted within the allow-list, the length and the rate; else refused, a read answering zeros and a write
discarded (R516, R517). -/
def execEngineSidebandAccess (engine target offset length : Nat) (isWrite : Bool) (data : List Byte) (s : State) : Out :=
  if engine ≥ 8 then .next s
  else
    let s1 := s.firewallWindows
    let n := tget 0 s1.security.transactions engine
    let s2 := { s1 with security := { s1.security with transactions := tset 0 s1.security.transactions engine (n + 1) } }
    if s1.security.closed.contains engine ∨ !allowed target offset length isWrite ∨ length > 256 ∨ n ≥ 4096 then
      let s3 := s2.refuseEngine engine
      .next (if isWrite then s3 else { s3 with security := { s3.security with sideband := List.replicate length 0 } })
    else .next (s2.serveEngine engine target offset length isWrite data)

/-! ### The debug port (R513, R530) -/

/-- IDCODE. -/
def State.idcode (s : State) : Nat := s.fuses.stepping.toNat % 16 * 2 ^ 28 + partCode s.fuses.part * 2 ^ 12 + 1

/-- What a debug address beyond 2^48 names: 2^48 + core × 2^24 + kind × 2^20 + index, kinds 0 g, 1 v and 2 c registers, 3 pc, 4 slot limit, 5 accumulator row, 6 program
word, 7 the bits NV, OF and WR; 15 trace (DESIGN CHOICE: the spec numbers no register for the debug port and gives trace no contents; log entry 32). -/
def debugPlace (a : Nat) : Option (Nat × Nat × Nat) :=
  if 2 ^ 48 ≤ a ∧ a < 2 ^ 48 + 2304 * 2 ^ 24 then some ((a - 2 ^ 48) / 2 ^ 24, a / 2 ^ 20 % 16, a % 2 ^ 20) else none

/-- What the debug port reads at an address: a row or unit of memory, or a register; nothing where the address names none. No address names the security block
(R513). -/
def State.debugRead (s : State) (a : Nat) : List Byte :=
  match debugPlace a with
  | none =>
    let t := panelTarget s.units.gridClass a
    if s.served t then s.readRow (s.cellAddr t) else []
  | some (c, kind, i) =>
    let k := s.core c
    match kind with
    | 0 => if i < 32 then toLE 8 (k.greg i).toNat else []
    | 1 => if i < 16 then k.vreg i else []
    | 2 => if i < 16 then toLE 4 (k.creg i).toNat else []
    | 3 => toLE 2 k.pc
    | 4 => toLE 2 k.sl.toNat
    | 5 => if i < 2048 then (List.range 64).flatMap (fun n => toLE 4 (k.accElem i n).toNat) else []
    | 6 => if i < 8192 then toLE 8 ((k.prog[i]?).getD 0).toNat else []
    | 7 => toLE 1 (bit k.nv + 2 * bit k.of + 4 * bit k.wr)
    | 15 => s.freeBytes 512
    | _ => []

/-- What the debug port writes at an address. -/
def State.debugWrite (s : State) (a : Nat) (data : List Byte) : State :=
  match debugPlace a with
  | none =>
    let t := panelTarget s.units.gridClass a
    if s.served t then s.writeRow (s.cellAddr t) data false else s
  | some (c, kind, i) =>
    let w := leNat data
    match kind with
    | 0 => if i < 32 then s.modCore c (fun k => k.setG i (BitVec.ofNat 64 w)) else s
    | 1 => if i < 16 then s.modCore c (fun k => k.setV i (fitBytes 256 data)) else s
    | 2 => if i < 16 then s.modCore c (fun k => { k with ctr := tset 0 k.ctr i (BitVec.ofNat 32 w) }) else s
    | 3 => s.modCore c (fun k => { k with pc := w % 16384 })
    | 4 => s.modCore c (fun k => { k with sl := BitVec.ofNat 16 w })
    | 5 => if i < 2048 then s.modCore c (fun k => k.setAccRow i ((List.range 64).map (fun n => BitVec.ofNat 32 (leNat ((data.drop (4 * n)).take 4))))) else s
    | 6 => s.modCore c (fun k => { k with prog := k.prog.set i (BitVec.ofNat 64 w) })
    | 7 => s.modCore c (fun k => { k with nv := w.testBit 0, of := w.testBit 1, wr := w.testBit 2 })
    | _ => s

/-- DEBUG_PORT_ACCESS: op 0 BYPASS, 1 IDCODE, 2 read, 3 scan, 4 halt, 5 write (log entry 32). BYPASS and IDCODE run always; a read needs scope 1 or 2; scan, halt and
write need scope 2. A scan shifts the old contents of what its address names out and its data in. Without AUX the port is neither driven nor sampled (R527). -/
def execDebugPortAccess (op address : Nat) (data : List Byte) (s : State) : Out :=
  let shown := fun (s : State) (bs : List Byte) => { s with security := { s.security with tdo := bs } }
  let full := s.security.debugScope = 2
  let drawn := fun (s : State) => if debugPlace address |>.any (fun p => p.2.1 == 15) then s.takeFree 512 else s
  if !s.pins.aux then .next s
  else match op with
  | 0 => .next (shown s data)
  | 1 => .next (shown s (toLE 4 s.idcode))
  | 2 => if s.security.debugScope ≥ 1 then .next (drawn (shown s (s.debugRead address))) else .next s
  | 3 => if full then .next (drawn (shown (s.debugWrite address data) (s.debugRead address))) else .next s
  | 4 => if full then .next { s with security := { s.security with halted := true } } else .next s
  | 5 => if full then .next (s.debugWrite address data) else .next s
  | _ => .next s

end Sys2Proof.Machine
end

