-- ==== Sys2Proof/Machine/Bringup.lean ====
section
/-! DEFINITION. Power, resets by pin, bring-up's stages, recovery boot and firmware blocks (14 R454 to R473, Table 14.2; 16 R506 to R509; 17
R527, R535). -/

namespace Sys2Proof.Machine

/-! ### STAGE_CODE (R462) -/

/-- Whether a stage belongs to an I/O die. -/
def ioStage (code : Nat) : Bool := decide (0x20 ≤ code ∧ code ≤ 0x26)

/-- The report that STAGE_CODE shows: a halt, READY, or the lowest stage that runs and the lowest die that runs it. -/
def State.showStage (s : State) : State :=
  let v : Nat × Nat × Nat × Nat :=
    match s.boot.halt with
    | some c => (c, if ioStage c then 3 else 4, s.boot.haltUnit, 2)
    | none =>
      if s.boot.ready then (0xFF, 4, 0, 3)
      else match s.boot.running with
        | [] => s.boot.shown
        | r :: rs =>
          let m := rs.foldl (fun m x => if x.1 < m.1 ∨ (x.1 = m.1 ∧ x.2 < m.2) then x else m) r
          (m.1, if ioStage m.1 then 3 else 4, m.2, 0)
  { s with boot := { s.boot with shown := v } }

/-! ### What a stage's findings do -/

/-- The unit that reports a stage. -/
def stageUnit (code unit : Nat) : Nat := if ioStage code then unitId 3 unit 0 else hubUnit

/-- The error record of a failed stage (R462, Table 15.5). -/
def State.stageRecord (s : State) (code unit : Nat) : State :=
  s.addError { unit := stageUnit code unit, code := code, cls := 1, reporter := if ioStage code then ioPlace unit else hubPlace }

/-- Whether a COMPUTE_RESET is under way: from the frame tick at which it begins until READY. One that a start still on its way has accepted begins at the first tick
after READY (R475). -/
def State.resetRuns (s : State) : Bool := s.boot.resetTag.isSome && s.boot.resetAt.isNone

/-- A unit found failing by the start-up self-test: retired with what it takes out of service, and in the ledger (R461, R468). During COMPUTE_RESET
it becomes DERATED at the next frame tick, so that it counts at the next PLAN_LOAD (R384, R476). -/
def State.retireFound (s : State) (u : Nat) : State :=
  let s1 := if neverRetired u then s else s.addLedger u (if s.resetRuns then 5 else 0) 2 0
  if neverRetired u then s
  else if s.resetRuns then { s1 with units := { s1.units with due := s1.units.due ++ [(u, 1, 2)] } }
  else
    let s2 := forEach (withContained u) (fun v s => s.setUnit v 2 2) s1
    if s2.unspared u then s2.spareLost true u else s2

/-- A fabric lane found failing at stage 0x11: a spare takes its place while one of two is left; then a horizontal link makes its row
unrepairable and a vertical one leaves no grid class (R292, Table 14.5). -/
def State.laneFound (s : State) (u : Nat) : State :=
  let row := siteRow (unitSite u)
  let s1 := s.addLedger u 2 2 (u % 2 ^ 16)
  if !s1.unspared u then s1
  else (if fabricLane u ∧ bitsOf u 17 15 ≥ 3 then s1.addLedger (unitId 2 (row * 13) 0) 4 2 row else s1).spareLost true u

/-- A regulator phase found at stage 0x32: two of a cluster, or one that leaves a profile without a point, retire the site (Table 14.5). In a COMPUTE_RESET the
first caps its cluster and a second derates the die, whose site counts at the next PLAN_LOAD (R476). Each makes a record of CODE 0x1030, CLASS 1, against the phase
(Table 12.6, R487); a stage's finding has no test count, so that AUX is 0. -/
def State.phaseFound (s : State) (u : Nat) : State :=
  if s.resetRuns ∧ (unitSub u).testBit 4 = false then
    match s.dieAt (unitSite u) with
    | some d =>
      let ci := 2 * d + bitsOf u 3 3
      if (s.cluster ci).lost = [] then s.loseFirstPhase ci (bitsOf u 2 0)
      else if (s.cluster ci).lost.contains (bitsOf u 2 0) then s else s.retireFound (unitId 2 (unitSite u) 0)
    | none => s
  else
  let p := unitSite u
  let j := bitsOf u 3 3
  let s1 := (s.addError { unit := u, code := 0x1030, cls := 1, flags := flRetired + s.ledgerFlag u (if s.resetRuns then 5 else 0) 0,
                          reporter := s.reporterAt p }).retireFound u
  let twice := s1.units.table.any (fun e => e.1 != u && unitKind e.1 == 9 && unitSite e.1 == p && bitsOf e.1 3 3 == j && e.2.state == 2 &&
    !(unitSub e.1).testBit 4)
  let uncapped := (List.range 3).any (fun pr => (profilePoints pr).all (fun m => decide (tget 0 s.fuses.phaseCurrent ((2 * p + j) * 2048 + m) > 105)))
  if (unitSub u).testBit 4 then s1 else if twice ∨ uncapped then s1.retireFound (unitId 2 p 0) else s1

/-- A sensor found failing at stage 0x33 leaves its pair in sensor fault, which makes its record once (R436). -/
def State.sensorFound (s : State) (u : Nat) : State :=
  match s.pairOfUnit u with
  | none => s.retireFound u
  | some k =>
    let s1 := s.addLedger (s.sensorUnit k) 0 2 0
    if (s.pair k).fault then s1 else (s1.setPair k (s.pair k).inFault).faultRecord k (s.pair k).inFault 2

/-- A row gets a spare of its set; when none is left its site is retired (R470, Table 14.5). -/
def State.repairRow (s : State) (k : Nat) : State :=
  let s1 := { s with units := { s.units with repaired := insertNat k s.units.repaired } }
  let used := (s1.units.repaired.filter (fun r => isRowKey r && spareSet r == spareSet k)).length
  if isRowKey k ∧ spareRows k < used then s1.retireFound (unitId 2 (unitSite (keyUnit k)) 0) else s1

/-- A row found failing at stage 0x30: in the ledger, and spared at once, but where the rows are retained (R470, R472). -/
def State.rowFound (s : State) (k : Nat) : State :=
  let s1 := s.addLedger (keyUnit k) 1 2 (rowDetail k)
  if s.resetRuns && s.boot.resetTag.any (·.2) then s1 else s1.repairRow k

/-- What a stage does with the units it found. -/
def State.stageFound (s : State) (code : Nat) (found : List Nat) : State :=
  match code with
  | 0x06 => { s with power := { s.power with intake := found.filter (fun k => decide (k < 128)) } }
  | 0x10 => (forEach found (fun u s => s.retireFound u) s).lockClocks (found.map unitPlace)
  | 0x30 => forEach found (fun u s => if u < 2 ^ 32 then s.retireFound u else s.rowFound u) s
  | 0x11 => forEach found (fun u s => if unitKind u = 7 then s.laneFound u else s.retireFound u) s
  | 0x32 => forEach found (fun u s => if unitKind u = 9 then s.phaseFound u else s.retireFound u) s
  | 0x33 => forEach found (fun u s => if unitKind u = 10 then s.sensorFound u else s.retireFound u) s
  | _ => if code < 0x10 then s else forEach found (fun u s => s.retireFound u) s

/-! ### The ledger and the policy at stage 0x05 (R466, R467, R469, R509) -/

/-- The ledger copy with the higher SEQUENCE that verifies. -/
def State.ledgerInUse (s : State) : Option Ledger :=
  let f := s.flash
  if s.ledgerOk f.ledgerA && (!s.ledgerOk f.ledgerB || decide (f.ledgerB.sequence ≤ f.ledgerA.sequence)) then some f.ledgerA
  else if s.ledgerOk f.ledgerB then some f.ledgerB else none

/-- The policy copy with the higher POLICY_COUNTER that verifies; of two alike, the one with the higher DEBUG_COUNTER. -/
def State.policyInUse (s : State) : Option Policy :=
  let f := s.flash
  let le := fun (a b : Policy) => decide (a.policyCounter < b.policyCounter ∨ (a.policyCounter = b.policyCounter ∧ a.debugCounter ≤ b.debugCounter))
  if s.policyOk f.policyA && (!s.policyOk f.policyB || le f.policyB f.policyA) then some f.policyA
  else if s.policyOk f.policyB then some f.policyB else none

/-- Units that the part number leaves out (R6, R523): on a GN2000 four stacks, and two engines with their ports. -/
def absentUnits (p : Part) : List Nat :=
  if p = .gn2000 then
    [10, 11, 22, 23].map (fun k => unitId 5 k 0) ++
      [3, 7].flatMap (fun e => unitId 8 e 0 :: (List.range 8).map (fun i => unitId 6 (8 * e + i) 0))
  else []

/-- Sets a unit as the panel starts, without an event. SINCE is the timebase of the stage, as no frame tick has come, and what fuses and ledger tell does not count in
VERSION (DESIGN CHOICE: R388 says neither; log entry 136). -/
def State.startUnit (s : State) (u st source : Nat) : State :=
  let e := s.unitEntry u
  if e.state = 3 ∨ e.state = 2 ∨ (e.state = 1 ∧ st = 1) then s
  else { s with units := { s.units with
    table := tset {} s.units.table u { state := st, source := source, since := s.now }, deratedAt := deratedTime s.units.deratedAt u st s.now } }

/-- What a start takes out of service with a unit of the fuses or the ledger. A module lane goes alone: a redundant lane takes its place (R298,
Table 8.2, Table 15.3). -/
def startContained (u : Nat) : List Nat :=
  if unitKind u = 7 ∧ bitsOf u 19 18 = 1 then [u] else withContained u

/-- One ledger entry applied at a start: retirement outranks derating, and derating a repair (R469). -/
def State.startEntry (s : State) (e : LedgerEntry) : State :=
  match e.action with
  | 0 => forEach (startContained e.unit) (fun v s => s.startUnit v 2 1) s
  | 4 => { s with units := { s.units with badRows := insertNat e.detail s.units.badRows } }
  | 5 => s.startUnit e.unit 1 1
  | _ => s

/-- The module lanes of a port that the table retires. -/
def State.moduleLanes (s : State) (p : Nat) : List Nat :=
  (s.units.table.filter (fun e => unitKind e.1 == 7 && bitsOf e.1 19 18 == 1 && unitSite e.1 == p && e.2.state == 2)).map (·.1)

/-- The repairs, of some ACTIONs, that the fuses and the ledger tell of units that no stronger action names: retirement outranks derating, and derating a repair
(R469). A lane that the table retires since this start is repaired all the same (R472). -/
def State.repairsTold (s : State) (actions : List Nat) : List Nat :=
  ((s.fuses.repairs ++ s.units.ledger.entries.map (fun e => (e.unit, e.action, e.detail))).filter (fun r =>
    actions.contains r.2.1 && ((s.unitEntry r.1).state == 0 || (r.2.1 == 2 && decide (2 < (s.unitEntry r.1).source))))).map
    (fun r => repairKey r.1 r.2.1 r.2.2)

/-- Repairs take effect: each row and lane once (R469, R472). -/
def State.applyRepairs (s : State) (actions : List Nat) : State :=
  forEach ((s.repairsTold actions).filter (fun k => !s.units.repaired.contains k)) (fun k s => s.repairRow k) s

/-- Every link's plane and direction that the lanes told leave without a spare counts by Table 14.5. -/
def State.spareLanes (s : State) (atTick : Bool) : State :=
  let told := (s.units.ledger.entries.filter (fun e => e.action == 0 || e.action == 2)).map (·.unit) ++
    (s.fuses.repairs.filter (fun r => r.2.1 == 2)).map (·.1) ++ (s.units.table.filter (fun e => e.2.state == 2)).map (·.1)
  forEach (told.filter s.unspared) (fun u s => s.spareLost atTick u) s

/-- Lanes assigned at a start: a port whose module has lost more lanes than it has redundant ones is retired, and a link's plane and direction without
a spare counts by Table 14.5. The spec gives no number of redundant module lanes: a value of the implementation (log entry 14). -/
def State.assignLanes (s : State) : State :=
  let s1 := forEach (List.range 64) (fun p s =>
    if (s.moduleLanes p) != [] && decide (Config.moduleSpares < (s.moduleLanes p).length) then s.startUnit (unitId 6 p 0) 2 1 else s) s
  s1.spareLanes true

/-- Ports as the unit table gives them: retired, disabled, or DOWN with the lanes that the ledger retires (Table 8.5, Table 8.6). -/
def State.startPorts (s : State) : State :=
  forEach (List.range 64) (fun p s =>
    let lanes := (List.range 8).foldl (fun b i =>
      if s.retired (unitId 7 p i) then b ||| BitVec.ofNat 8 (2 ^ i) else b) (0 : BitVec 8)
    s.modPort p (fun q => { q with
      laneRetired := lanes, state := if s.retired (unitId 6 p 0) then 5 else if s.portDir p = 15 then 0 else 1 })) s

/-- The host link's lanes that the unit table retires; a link that runs on one of them trains again (R340, R469). -/
def State.startHostLink (s : State) : State :=
  let lanes := (List.range 8).foldl (fun b i => if s.retired (hostLane i) then b ||| BitVec.ofNat 8 (2 ^ i) else b) (0 : BitVec 8)
  let s1 := s.modLink (fun q => { q with laneRetired := lanes })
  if s.host.lanes &&& lanes = 0 then s1
  else match s1.linkLanes 0xFF with
    | some m => s1.linkTrained m
    | none => s1.linkDown

/-- Stage 0x05: the shutdown record is reported and cleared, the ledger and the policy taken, fuses and ledger merged, the first map
formed, and a new ledger copy written. -/
def State.stageLedger (s : State) : State :=
  let s0 := match s.pins.shutdown with
    | none => s
    | some (u, t, at_) => State.addError { s with pins := { s.pins with shutdown := none } }
        { unit := u, code := 0x1072, cls := 1, location := s16 t, aux := at_ }
  let l := s0.ledgerInUse
  let s1 := if l.isNone then s0.addError { unit := unitId 4 0 2, code := 0x501, cls := 2 } else s0
  let p := s1.policyInUse
  let s2 := if p.isNone then s1.addError { unit := unitId 4 0 2, code := 0x501, cls := 2 } else s1
  let s3 := { s2 with
    boot := { s2.boot with fuseOnly := l.isNone },
    security := { s2.security with policy := p.getD {}, shippedUsed := p.isNone } }
  let s4 := forEach (absentUnits s3.fuses.part) (fun u s => s.startUnit u 3 5) s3
  let s5 := forEach s4.fuses.retired (fun u s => forEach (startContained u) (fun v s => s.startUnit v 2 0) s) s4
  let lg := l.getD {}
  -- the strongest action first, so that it stands
  let s6 := forEach (lg.entries.filter (fun e => e.action == 0 || e.action == 4) ++ lg.entries.filter (fun e => e.action == 5)) (fun e s => s.startEntry e) s5
  let s7 := ((s6.storeLedger { lg with startCount := lg.startCount + 1 }).applyRepairs [1, 2, 3]).assignLanes
  (s7.startPorts.startHostLink).applyMap (s7.formMap false)

/-! ### The order of the stages (R459, Table 14.2) -/

/-- I/O dies in service. -/
def State.liveIo (s : State) : List Nat := (List.range 12).filter (fun i => !s.retired (unitId 3 i 0))

/-- Whether a stage of the crumb's phases from `lo` to `hi` runs. -/
def State.anyRunning (s : State) (lo hi : Nat) : Bool := s.boot.running.any (fun r => decide (lo ≤ r.1 ∧ r.1 ≤ hi))

/-- The fetch of Tolni begins: copy A, then copy B, then recovery, in which nothing limits the stage (R464). -/
def State.beginFetch (s : State) (src : BootSource) : State :=
  State.beginStage { s with boot := { s.boot with source := src, recovery := src == .recovery } } 3 0

/-- First frame ticks: the first multiple of 1,000 ns, or the group's epoch where a worker knows it; a group's manager names the epoch
(R402). -/
def State.beginTicks (s : State) : State :=
  if s.clock.nextTick.isSome then s
  else
    let first := (s.now / 1000 + 1) * 1000
    let t := match (if s.isWorker then s.group.epoch else none) with
      | some e => s.epochTick e
      | none => first
    let s1 := { s with clock := { s.clock with nextTick := some t } }
    if s.leads then State.send { s1 with group := { s1.group with epoch := some t } } (.epoch t) else s1

/-- READY: the anti-rollback counter advances after a panel start; a COMPUTE_RESET under way completes, and one accepted during the start begins at the next frame
tick (R463, R475, R508). -/
def State.becomeReady (s : State) : State :=
  let s1 := { s with boot := { s.boot with ready := true } }
  if !s.resetRuns then s1.advanceRollback
  else
    let s2 := { s1 with boot := { s1.boot with resetTag := none } }
    match s.boot.resetTag.bind (fun r => s2.cmdOf r.1) with
    | none => s2
    | some c => State.runLanes (s2.complete c 0 0 0)

/-- What follows a stage that has ended. -/
def State.afterStage (s : State) (code unit : Nat) : State :=
  let memories := !s.anyRunning 0x20 0x23 && !s.anyRunning 0x30 0x30
  let links := fun (s : State) => if s.liveIo = [] then s.beginStage 0x35 0 else forEach s.liveIo (fun i s => s.beginStage 0x24 i) s
  match code with
  | 0x01 => s.beginStage 2 0
  | 0x02 => s.beginFetch (if s.straps.boot = 0 then .copyA else .recovery)
  | 0x03 => s.beginStage 4 0
  | 0x04 => s.beginStage 5 0
  | 0x05 => s.beginStage 6 0
  | 0x06 => State.beginStage { s with boot := { s.boot with tolniReady := true } } 0x10 0
  | 0x10 => s.beginStage 0x11 0
  | 0x11 => (s.beginStage 0x12 0).sendBlock 0x12
  | 0x12 => State.beginStage (forEach s.liveIo (fun i s => s.beginStage 0x20 i) s) 0x30 0
  | 0x23 => if memories then links s else s
  | 0x30 => if s.resetRuns then s.beginStage 0x35 0 else if memories then links s else s
  | 0x26 => if s.anyRunning 0x24 0x26 then s else s.beginStage 0x35 0
  | 0x35 => (s.beginStage 0x31 0).sendBlock 0x31
  | 0x31 => s.beginStage 0x32 0
  | 0x32 => s.beginStage 0x33 0
  | 0x33 => s.beginStage 0x34 0
  | 0x34 => s.beginStage 0x36 0
  | 0x36 => s.becomeReady
  | _ => if ioStage code then s.beginStage (code + 1) unit else s

/-- Ends a stage: no longer running. -/
def State.endStage (s : State) (code unit : Nat) (passed : Bool) : State :=
  { s with boot := { s.boot with
    running := s.boot.running.filter (fun r => r != (code, unit)),
    done := if passed then s.boot.done ++ [(code, unit)] else s.boot.done,
    began := terase (code * 16 + unit) s.boot.began } }

/-- Tolni's image is accepted: its versions show in ID (R544). -/
def State.acceptImage (s : State) (img : Img) : State :=
  { s with boot := { s.boot with
    image := img, secVersion := field img 6 2, fwMajor := field img 8 2, fwMinor := field img 10 2, fwPatch := field img 12 2 } }

/-- A stage that passed. -/
def State.stagePassed (s : State) (code unit : Nat) : State :=
  match code with
  | 0x01 => { s with clock := { s.clock with counting := true, timebase := 0 }, boot := { s.boot with startedAt := 0 } }
  | 0x02 => { s with host := { s.host with
      linkUp := true, lanes := if s.straps.hlw then 0x0F else 0xFF, link := s.host.link.fresh } }
  | 0x03 => { s with boot := { s.boot with image := if s.boot.source = .copyB then s.flash.tolniB else s.flash.tolniA } }
  | 0x04 => s.acceptImage s.boot.image
  | 0x05 => s.stageLedger
  | 0x06 => { s with power := { s.power with warnAt := (List.range 16).map (fun z => (128 + 0x20 + z, 1350)) } }
  | 0x11 => s.trainFifos
  | 0x26 => match ioEngine unit with
    | none => s
    | some e => forEach ((s.bundle e).filter s.portEnabled) (fun p s => s.startTraining p) s
  | 0x35 => { s with thermal := { s.thermal with armed := true } }
  | 0x34 => if s.resetRuns then s else s.applyMap (s.formMap false)
  | 0x36 => (s.noteLost.enterProfile s.power.profile).beginTicks
  | _ => s

/-- The ports of an I/O die's engine retire (Table 14.2). -/
def State.retirePorts (s : State) (io : Nat) : State :=
  match ioEngine io with
  | none => s
  | some e => forEach (List.range 8) (fun i s => s.retireFound (unitId 6 (8 * e + i) 0)) s

/-- No grid class, as the outcome of stage 0x34 or 0x36 (R543). A COMPUTE_RESET never changes the map: what its stages find counts at the next PLAN_LOAD (R476). -/
def State.loseGrid (s : State) : State :=
  let s1 := { s with boot := { s.boot with noGrid := true } }
  if s.resetRuns then s1 else (s1.applyMap (s1.formMap false)).discardPlan

/-- A stage that failed: its record and the outcome of Table 14.2. `found` are the units the stage names; where stage 0x10 names none, or the hub, the hub has no
lock. -/
def State.stageFailed (s : State) (code unit : Nat) (found : List Nat) : State :=
  let s1 := (s.stageRecord code unit).endStage code unit false
  match code with
  | 0x01 => s1.halt code unit true
  | 0x03 => if s.boot.source = .copyA then s1.beginFetch .copyB else s1.beginFetch .recovery
  | 0x04 => if s.boot.source = .copyA then s1.beginFetch .copyB else s1.beginFetch .recovery
  | 0x05 => (s1.stageLedger).afterStage code unit
  | 0x06 => s1.halt code unit false
  | 0x10 => if found = [] ∨ found.any neverRetired then s1.halt code unit false else s1.afterStage code unit
  | 0x20 => (s1.retireFound (unitId 3 unit 0)).afterStage 0x23 unit
  | 0x21 => (s1.retireFound (unitId 3 unit 0)).afterStage 0x23 unit
  | 0x22 => State.afterStage (if found = [] then (s1.retireFound (unitId 5 (2 * unit) 0)).retireFound (unitId 5 (2 * unit + 1) 0) else s1) code unit
  | 0x23 => State.afterStage (if found = [] then (s1.retireFound (unitId 5 (2 * unit) 0)).retireFound (unitId 5 (2 * unit + 1) 0) else s1) code unit
  | 0x24 => (s1.retirePorts unit).afterStage code unit
  | 0x25 => (s1.retirePorts unit).afterStage code unit
  | 0x26 => (s1.retirePorts unit).afterStage code unit
  | 0x34 => (s1.loseGrid).afterStage code unit
  | 0x36 => (s1.loseGrid.beginTicks).afterStage code unit
  | _ => s1.afterStage code unit

/-- Why stage 0x04 refuses the image, beyond what the event says (R506). -/
def State.verifyRecord (s : State) : State :=
  match s.imageFail s.boot.image with
  | some f => s.addError { unit := hubUnit, code := f, cls := 2 }
  | none => s

/-- Whether a stage of the management phase waits, within its limit, for a reference that is lost (Table 14.8). -/
def State.waitsReference (s : State) (code : Nat) : Bool := decide (code ≤ 6) && s.clock.ref == .holdover

/-- Whether a running stage may pass: stage 0x01 by the ROM's digest (R464), stage 0x04 by R506, stage 0x06 where every PMB1 converter has answered (R417), stage 0x35
by R444 and not during the coolant-loss response (R475). `found` is what the stage has found. -/
def State.mayPass (s : State) (code : Nat) (found : List Nat) : Bool :=
  match code with
  | 0x01 => s.fuses.romOk
  | 0x04 => (s.imageFail s.boot.image).isNone
  | 0x06 => pmb1Keys.all found.contains
  | 0x35 => s.flowAtLeast 8000 && !s.thermal.active
  | _ => true

/-- The routers reset and the compute stages begin, 2.1 ms after COMPUTE_RESET's tick: FIFOs trained anew, lane spares reassigned, rows repaired but where they are
retained, edges thawed (R472, R475, Table 14.7). -/
def State.resetProgress (s : State) : State :=
  match s.boot.resetDrain, s.boot.resetTag with
  | some t, some (_, retain) =>
    if s.now < t + 2100000 then s
    else
      let s1 := s.routersReset.spareLanes false
      let s2 := s1.applyRepairs (if retain then [2] else [1, 2])
      State.showStage { s2 with boot := { s2.boot with
        resetDrain := none, running := s2.boot.running ++ [(0x30, 0)], began := tset 0 s2.boot.began (0x30 * 16) (t + 2100000) } }
  | _, _ => s

/-- An event of stage 0x30 comes no earlier than the stage has begun (R475). -/
def State.resetBegun (s : State) (code : Nat) : State :=
  match code, s.boot.resetDrain with
  | 0x30, some t => (s.advanceTo (t + 2100000)).resetProgress
  | _, _ => s

/-- What follows a stage that has ended: Halt B where the hub is cut off (R461), the report of STAGE_CODE, and the transfers that waited for stage 0x23 (R463). -/
def State.stageEnded (s : State) (code unit : Nat) : State :=
  let s1 := (s.haltIfCut code unit).showStage
  if code = 0x23 then s1.runLanes else s1

/-- STAGE_COMPLETE (R459 to R463): a running stage ends; what it found is retired, and the next stage begins. In recovery stage 0x03 ends by
RECOVERY_BOOT; stage 0x35 waits and never fails; a stage that waits for the reference does not pass. -/
def execStageComplete (code unit : Nat) (pass : Bool) (found : List Nat) (s : State) : Out :=
  let s := s.resetBegun code
  if unit ≥ 2 ^ 32 then .next s
  else if !s.boot.running.contains (code, unit) ∨ (code = 3 ∧ s.boot.recovery) ∨ (code = 0x35 ∧ !(pass && s.mayPass code found)) ∨
      (pass ∧ s.waitsReference code) then .next s
  else if pass && s.mayPass code found then
    .next (((((s.stageFound code found).endStage code unit true).stagePassed code unit).afterStage code unit).stageEnded code unit)
  else
    let s1 := if code = 4 then s.verifyRecord else s
    .next (((s1.stageFound code found).stageFailed code unit found).stageEnded code unit)

/-- Limit of a stage in ms (Table 14.2, R475); none where it has none. -/
def State.stageLimit (s : State) (code : Nat) : Option Nat :=
  match code with
  | 0x01 => some 50 | 0x02 => some 100 | 0x03 => if s.boot.recovery then none else some 1000 | 0x04 => some 200 | 0x05 => some 500
  | 0x06 => some 200 | 0x10 => some 5 | 0x11 => some 500 | 0x12 => some 500 | 0x20 => some 100 | 0x21 => some 1000 | 0x22 => some 10000
  | 0x23 => some 30000 | 0x30 => if s.resetRuns && s.boot.resetTag.any (·.2) then some 200 else some 20000 | 0x24 => some 2000 | 0x25 => some 5000
  | 0x26 => some 100 | 0x31 => some 10000 | 0x32 => some 2000 | 0x33 => some 2000 | 0x34 => some 100 | 0x36 => some 1000 | _ => none

/-- A stage at its limit: one that waits for the reference halts the panel (Table 14.8). -/
def State.stageLate (s : State) (code unit : Nat) (late : List Nat) : State :=
  if s.waitsReference code then ((s.stageRecord code unit).endStage code unit false).halt code unit (code == 1)
  else (s.stageFound code late).stageFailed code unit late

/-- STAGE_TIMEOUT: a stage still running at its limit fails, and the units that have not finished are retired (R459, R461). Those of an I/O die's stage begin with the
die's number; a die of stage 0x22 or 0x23 that names none has finished neither stack. -/
def execStageTimeout (code : Nat) (late : List Nat) (s : State) : Out :=
  let s := s.resetBegun code
  let unit := if ioStage code then late.headD 0 else 0
  let late := if ioStage code then late.drop 1 else late
  if !s.boot.running.contains (code, unit) then .next s
  else match s.stageLimit code with
    | none => .next s
    | some ms =>
      let s1 := if s.clock.counting then s.advanceTo (tget 0 s.boot.began (code * 16 + unit) + ms * 10 ^ 6) else s
      .next ((s1.stageLate code unit late).stageEnded code unit)

/-- RECOVERY_BOOT: the starter reads FW_UPDATE from slot 0, fetches the image and applies stage 0x04; it runs the image without storing it, or
shows stage 0x04 failed and waits until the slot's first bytes are rewritten (R464). A stage that waits for the reference does not pass (Table 14.8). -/
def execRecoveryBoot (s : State) : Out :=
  let c := s.slotCmd 0
  let p := (s.started c).payload
  if !(s.boot.recovery && s.boot.running.contains (3, 0) && s.host.linkUp && s.ownBit 0 && c.opcode == 0x605 && s.boot.reread) ∨
      s.waitsReference 3 then .next s
  else
    let img := s.hostBytes (field p 0 8) (field p 8 8)
    match s.imageFail img with
    | none =>
      let s1 := ((s.endStage 3 0 true).acceptImage img)
      .next ((State.beginStage { s1 with boot := { s1.boot with done := s1.boot.done ++ [(4, 0)] } } 5 0).showStage)
    | some f =>
      let s1 := (s.stageRecord 4 0).addError { unit := hubUnit, code := f, cls := 2 }
      .next { s1 with boot := { s1.boot with shown := (4, 4, 0, 2), reread := false } }

/-! ### Firmware and microcode blocks (R465) -/

/-- A block is kept for the die at a place: agent firmware at stage 0x12, microcode, which a compute die's agent loads into its cores, at stage 0x31. -/
def State.keepBlock (s : State) (code place : Nat) (block : List Byte) : State :=
  let b := s.boot
  { s with boot := { b with
    agentFw := if code = 0x12 then tset [] b.agentFw place (tget [] b.agentFw place ++ [block]) else b.agentFw,
    microcode := if code = 0x31 then tset [] b.microcode place (tget [] b.microcode place ++ [block]) else b.microcode } }

/-- FIRMWARE_BLOCK_RECEIVE during stage 0x12 or 0x31, at a compute site or an I/O die (0x100 + its number), once every packet of the block has come there: the block is
the section of the running image that the digest sent ahead names (R465, R506). A good one is kept and ends the run of requests; a bad one is asked for again, and after
four requests in vain the die fails the stage and is retired. -/
def execFirmwareBlockReceive (site : Nat) (block digest : List Byte) (s : State) : Out :=
  match s.blockStage with
  | none => .next s
  | some code =>
    if !diePlace site ∨ (code = 0x31 ∧ 0x100 ≤ site) ∨ !s.blockCame code site then .next s
    else
      let u := if site < 0x100 then unitId 2 site 0 else unitId 3 (site - 0x100) 0
      let rep := s.reporterAt site
      let n := tget 0 s.boot.blockTries site
      let action := if s.resetRuns then 5 else 0
      let set := fun k => let t := s.takeBlock site; { t with boot := { t.boot with blockTries := tset 0 t.boot.blockTries site k } }
      if digest = digest64 (s.block code) ∧ digest64 block = digest then .next ((set 0).keepBlock code site block)
      else if n < 4 then
        .next (((set (n + 1)).inject [s.blockRequest site]).countRetired { unit := u, code := 0x501, cls := 0, reporter := rep } action (fun s => s.retireFound u))
      else
        .next (((set 0).addError { unit := u, code := code, cls := 1, flags := flRetired + s.ledgerFlag u action 0, reporter := rep }).retireFound u)

/-! ### Power and the reset pin (R457, R458, R474, R527, R535) -/

/-- PWR_OK_RISE, a rise that the pin's filter lets through (Table 17.5; log entry 132): bring-up begins where PANEL_RESET_N and PWR_SHDN_N are high, with the straps sampled; else only the AUX domain runs (R457,
Table 17.9). -/
def execPwrOkRise (straps : StrapPins) (s : State) : Out :=
  if s.pins.pwrOk ∨ !s.pins.aux then .next s
  else .next (State.panelReset { s with pins := { s.pins with pwrOk := true } } straps)

/-- The write to flash that still goes on as PWR_OK or AUX falls stops: a copy written at the present count of the timebase is left partly written, and fails its check at the
next start (Table 17.9; DESIGN CHOICE: the spec gives no time of a write; log entry 83). -/
def State.stopWrite (s : State) : State :=
  let f := s.flash
  match f.writing with
  | none => s
  | some (c, t) =>
    if t ≠ s.now then s
    else { s with flash := { (match c with
      | .tolniA => { f with tolniA := f.tolniA.dropLast }
      | .ledgerA => { f with ledgerA := { f.ledgerA with block := f.ledgerA.block.dropLast } }
      | .ledgerB => { f with ledgerB := { f.ledgerB with block := f.ledgerB.block.dropLast } }
      | .policyA => { f with policyA := { f.policyA with block := f.policyA.block.dropLast } }
      | .policyB => { f with policyB := { f.policyB with block := f.policyB.block.dropLast } }) with writing := none } }

/-- PWR_OK_FALL: the panel keeps the AUX domain alone (R458). The command is a fall that the pin's filter lets through, low for 1 µs or more (Table 17.5, Table 17.9;
DESIGN CHOICE: log entry 132). -/
def execPwrOkFall (s : State) : Out :=
  if s.pins.pwrOk then .next (State.cleared { s.stopWrite with pins := { s.pins with pwrOk := false } }) else .next s

/-- PANEL_RESET_N: low for 1 µs or more, it resets the panel and releases PWR_SHDN_N; its release begins bring-up (R449, R454, R474). `released` says
that it is high again. -/
def execPanelResetN (lowNs : Nat) (released : Bool) (straps : StrapPins) (s : State) : Out :=
  if !s.pins.aux ∨ (lowNs < 1000 ∧ s.pins.resetN) then .next s
  else .next (State.panelReset { s with pins := { s.pins with shdnN := true, resetN := released } } straps)

/-- AUX_FALL: the AUX domain stops and loses the shutdown record; nothing else of the panel runs without it (R527, R535). -/
def execAuxFall (s : State) : Out :=
  if s.pins.aux then
    .next (State.cleared { s.stopWrite with pins := { s.pins with aux := false, pwrOk := false, shdnN := true, shutdown := none } })
  else .next s

/-- AUX_RISE: the starter waits without running a stage (R457). -/
def execAuxRise (s : State) : Out :=
  if s.pins.aux then .next s else .next { s with pins := { s.pins with aux := true, shdnN := true } }

end Sys2Proof.Machine
end

