-- ==== Sys2Proof/Machine/Scalar.lean ====
section
/-! DEFINITION. Control, synchronisation and scalar instructions (05 R185 to R190). -/

namespace Sys2Proof.Machine

/-- NOP: one cycle of the scalar unit; a set RSV bit is a reserved encoding (Table 5.4, R187). -/
def execNop (core : Nat) (body : BitVec 56) (s : State) : Out :=
  issue core (wordOf 0x01 body) s fun s k cyc =>
    if body ≠ 0 then s.illegal core (wordOf 0x01 body)
    else
      s.setCore core ((k.issued cyc).occupy 0 (cyc + 1))

/-- LOOP's checks (R185, R211): reserved bits, a BODY of zero or beyond WORDS or beyond the enclosing body, a fifth level. -/
def loopBad (k : Core) (w : BitVec 64) : Bool :=
  let b := fld w 45 32
  decide (fld w 55 46 ≠ 0) || b == 0 || decide (k.pc + b ≥ k.prog.length) ||
    (match k.loops with
     | [] => false
     | l :: _ => decide (k.pc + b > l.lend)) || decide (k.loops.length ≥ 4)

/-- LOOP (R185). -/
def execLoop (core : Nat) (body : BitVec 56) (s : State) : Out :=
  issue core (wordOf 0x02 body) s fun s k cyc =>
    let w := wordOf 0x02 body
    let b := fld w 45 32
    let n := fld w 31 0
    if loopBad k w then s.illegal core w
    else
      let k1 := { k with cycle := cyc, pc := if n = 0 then k.pc + b + 1 else k.pc + 1,
                         loops := if n = 0 then k.loops else { lstart := k.pc + 1, lend := k.pc + b, left := n } :: k.loops }
      s.setCore core (k1.occupy 0 (cyc + 1))

/-- ENDF: the loop rule fixes the word at which the next frame resumes; the core then drains until ENDF retires (R186). -/
def execEndf (core : Nat) (body : BitVec 56) (s : State) : Out :=
  issue core (wordOf 0x03 body) s fun s k cyc =>
    if body ≠ 0 then s.illegal core (wordOf 0x03 body)
    else s.setCore core { k.issued cyc with mode := .draining }

/-- SLOT: SL := min(g[GA], 65,535) (R155, R187). -/
def execSlot (core : Nat) (body : BitVec 56) (s : State) : Out :=
  issue core (wordOf 0x04 body) s fun s k cyc =>
    let w := wordOf 0x04 body
    let ga := fld w 42 38
    if fld w 55 43 ≠ 0 ∨ fld w 37 0 ≠ 0 then s.illegal core w
    else
      s.setCore core { (k.issued cyc).occupy 0 (cyc + 1) with sl := BitVec.ofNat 16 (min (k.greg ga).toNat 65535) }

/-- c[i] as a cycle sees it: without the increments that land in that cycle or later (R171, R189). -/
def Core.landedBy (k : Core) (i cyc : Nat) : Nat :=
  (k.creg i).toNat - ((tget [] k.timing.incs i).filter (fun x => decide (cyc ≤ x))).length

/-- The first cycle from one on in which c[i] is at least a value, of those that follow a landing; none while too few have landed. -/
def Core.reachedFrom (k : Core) (i v cyc : Nat) : Option Nat :=
  (cyc :: (tget [] k.timing.incs i).map (fun x => max cyc (x + 1))).foldl (fun m x =>
    if v ≤ k.landedBy i x then (match m with | none => some x | some y => some (min x y)) else m) none

/-- WAIT: completes in its issue cycle when c[CTR], counting the increments landed in earlier cycles, is at least VALUE; else the core waits
(R171, R187). -/
def execWait (core : Nat) (body : BitVec 56) (s : State) : Out :=
  issue core (wordOf 0x05 body) s fun s k cyc =>
    let w := wordOf 0x05 body
    let c := fld w 55 52
    let v := fld w 31 0
    if fld w 51 32 ≠ 0 then s.illegal core w
    else
      let k1 := k.issued cyc
      if v ≤ k.landedBy c cyc then s.setCore core k1 else s.setCore core { k1 with mode := .waiting c v }

/-- WAIT_COMPLETE: a waiting core's WAIT completes in the first cycle in which its counter, counting the increments landed in earlier cycles, is at
least the value; the next instruction may issue in the cycle after (R171). The cluster's accesses up to that cycle are made, since a reply that lands among
them increments the counter (R167). -/
def execWaitComplete (core : Nat) (s : State) : Out :=
  match (s.core core).mode with
  | .waiting c v =>
    let t := s.runUntil (core / 8) (fun t => ((t.core core).reachedFrom c v (s.core core).cycle).isSome)
    match s.clockHeld core, (t.core core).reachedFrom c v (s.core core).cycle with
    | false, some x => .next (t.modCore core fun k => { k with mode := .running, cycle := x })
    | _, _ => .next s
  | _ => .next s

/-- The scalar functions of Table 5.6; none for an FN that the form leaves blank. -/
def scalarFn (imm : Bool) (fn : Nat) (a b : BitVec 64) : Option (BitVec 64) :=
  match fn with
  | 0x00 => some (a + b)
  | 0x01 => some (a - b)
  | 0x02 => some (a &&& b)
  | 0x03 => some (a ||| b)
  | 0x04 => some (a ^^^ b)
  | 0x05 => some (a <<< (b.toNat % 64))
  | 0x06 => some (a >>> (b.toNat % 64))
  | 0x07 => some (a.sshiftRight (b.toNat % 64))
  | 0x08 => some (if b.slt a then b else a)
  | 0x09 => some (if a.slt b then b else a)
  | 0x0A => some (if b.ult a then b else a)
  | 0x0B => some (if a.ult b then b else a)
  | 0x0C => some (if a = b then 1 else 0)
  | 0x0D => some (if a.slt b then 1 else 0)
  | 0x0E => some (if a.ult b then 1 else 0)
  | 0x0F => some (a * b)
  | 0x10 => if imm then some ((b <<< 32) ||| (a &&& 0xFFFFFFFF)) else none
  | _ => none

/-- The cycles after issue in which a scalar result is ready: 3 for MUL and MULI, else 1 (R188). -/
def scalarReady (fn : Nat) : Nat := if fn = 0x0F then 3 else 1

/-- Writes a scalar result: g[GD] at its ready cycle, one cycle of the scalar unit. -/
def Core.scalarResult (k : Core) (gd : Nat) (v : BitVec 64) (cyc ready : Nat) : Core :=
  (((k.issued cyc).setG gd v).gPend gd (if gd = 0 then 0 else cyc + ready)).occupy 0 (cyc + 1)

/-- SCALAR_REGISTER_FORM (R188). -/
def execScalarRegisterForm (core : Nat) (body : BitVec 56) (s : State) : Out :=
  issue core (wordOf 0x10 body) s fun s k cyc =>
    let w := wordOf 0x10 body
    let fn := fld w 55 48
    let gd := fld w 47 43
    let ga := fld w 42 38
    let gb := fld w 37 33
    match scalarFn false fn (k.greg ga) (k.greg gb) with
    | none => s.illegal core w
    | some v =>
      if fld w 32 0 ≠ 0 then s.illegal core w
      else s.setCore core (k.scalarResult gd v cyc (scalarReady fn))

/-- SCALAR_IMMEDIATE_FORM: IMM sign-extended; a shift with IMM[31:6] set is a reserved encoding (R188, R214). -/
def execScalarImmediateForm (core : Nat) (body : BitVec 56) (s : State) : Out :=
  issue core (wordOf 0x11 body) s fun s k cyc =>
    let w := wordOf 0x11 body
    let fn := fld w 55 48
    let gd := fld w 47 43
    let ga := fld w 42 38
    let imm := (BitVec.ofNat 32 (fld w 31 0)).signExtend 64
    match scalarFn true fn (k.greg ga) imm with
    | none => s.illegal core w
    | some v =>
      if fld w 37 32 ≠ 0 ∨ ((fn = 5 ∨ fn = 6 ∨ fn = 7) ∧ fld w 31 6 ≠ 0) then s.illegal core w
      else s.setCore core (k.scalarResult gd v cyc (scalarReady fn))

/-- A system read's reserved bits: [37:36] and [31:0] (Table 5.4). -/
def sysBad (w : BitVec 64) : Bool := decide (fld w 37 36 ≠ 0 ∨ fld w 31 0 ≠ 0)

/-- A system read: `val` gives gd from the panel, the core and the issue cycle (R189). -/
def sysRead (core fn : Nat) (body : BitVec 48) (s : State) (val : State → Core → Nat → BitVec 64) : Out :=
  issue core (sysWord fn body) s fun s k cyc =>
    let w := sysWord fn body
    if sysBad w then s.illegal core w
    else
      let gd := fld w 47 43
      s.setCore core (k.scalarResult gd (val s k cyc) cyc 1)

/-- RDTB: the die's timebase (R398). -/
def execRdtb (core : Nat) (body : BitVec 48) (s : State) : Out :=
  sysRead core 0x00 body s fun s _ _ => BitVec.ofInt 64 ((s.now : Int) + (s.dieClock (s.siteOf (core / 16))).offsetAt s.now)

/-- RDFI: the frame index within the step. -/
def execRdfi (core : Nat) (body : BitVec 48) (s : State) : Out :=
  sysRead core 0x01 body s fun _ k _ => BitVec.ofNat 64 k.frame

/-- RDCYC: the frame's cycle count, taken in the issue cycle. -/
def execRdcyc (core : Nat) (body : BitVec 48) (s : State) : Out :=
  sysRead core 0x02 body s fun _ _ cyc => BitVec.ofNat 64 cyc

/-- RDID: the core index c of R82. -/
def execRdid (core : Nat) (body : BitVec 48) (s : State) : Out :=
  sysRead core 0x03 body s fun _ _ _ => BitVec.ofNat 64 core

/-- RDST: the status word, once every earlier TDRAIN and VCVT has finished (R178, R179). -/
def execRdst (core : Nat) (body : BitVec 48) (s : State) : Out :=
  sysRead core 0x04 body s fun _ k _ => k.statusWord

/-- CLRST: clears each of NV, OF, WR for which g[GA] holds a 1; GD names no register it writes (R178, R179). -/
def execClrst (core : Nat) (body : BitVec 48) (s : State) : Out :=
  issue core (sysWord 0x05 body) s fun s k cyc =>
    let w := sysWord 0x05 body
    let ga := fld w 42 38
    if sysBad w then s.illegal core w
    else
      s.setCore core (((k.issued cyc).clearFlags (k.greg ga)).occupy 0 (cyc + 1))

/-- RDCTR: c[CTR], zero-extended, counting the increments landed in earlier cycles (R189). -/
def execRdctr (core : Nat) (body : BitVec 48) (s : State) : Out :=
  sysRead core 0x06 body s fun _ k cyc => BitVec.ofNat 64 (k.landedBy (fld (sysWord 0x06 body) 35 32) cyc)

/-- The cycle in which ENDF retires: the first in which every unit has finished and every local write has landed (R173). A unit has finished when its
last instruction's result is ready: a TWLOAD's buffer usable, at issue + rows + 4, a register written (DESIGN CHOICE: R173 does not say whether the end
of the occupancy suffices; log entry 109). -/
def Core.retireAt (k : Core) : Nat := max k.cycle k.timing.finish

/-- A cycle-limit overrun: latched, with an error record and step failure 0x0110, once a frame, none after a fault (R59, R212, R215). -/
def State.limitOverrun (s : State) (c : Nat) : State :=
  let k := s.core c
  let w := (k.prog[k.pc]?).getD 0
  let s1 := s.setCore c ({ k with overran := true }.latchFault .cycleLimit k.pc w k.limit)
  let s2 := s1.addError { unit := s.coreUnit c, code := 0x110, cls := 2, location := w.toNat, aux := k.pc,
                          flags := if s.isRunning then flStepFailed else 0, frame := k.frame, cycle := k.limit, reporter := c / 16 }
  s2.failStep k.frame 0x110 c (coreDetail k.frame c)

/-- ENDF_RETIRE: a draining core, once every access of it is made and every reply slot is free, retires ENDF and is clock-gated (R57, R173). A retirement
in or after the cycle of the limit is a cycle-limit overrun (R59). -/
def execEndfRetire (core : Nat) (s : State) : Out :=
  let s0 := s.runCore core
  let k0 := s0.core core
  if k0.mode = .draining ∧ k0.slots = [] ∧ !s.clockHeld core then
    let s1 := if k0.limit ≤ k0.retireAt ∧ k0.overran = false then s0.limitOverrun core else s0
    .next (s1.modCore core fun k => { k with mode := if k.mode = .draining then .gated else k.mode, cycle := k.retireAt })
  else .next s

/-- Whether a core executes a frame whose ENDF has not retired. -/
def Core.live (k : Core) : Bool :=
  match k.mode with
  | .running => true
  | .waiting _ _ => true
  | .draining => true
  | _ => false

/-- CYCLE_LIMIT_OVERRUN: the cycle count of a core whose ENDF has not retired reaches its frame-table entry (R59). -/
def execCycleLimitOverrun (core : Nat) (s : State) : Out :=
  let k := s.core core
  if k.live = true ∧ k.limit ≠ 0 ∧ k.overran = false ∧ s.clockHeld core = false then .next (s.limitOverrun core) else .next s

end Sys2Proof.Machine
end

