-- ==== Sys2Proof/Machine/Tick.lean ====
section
/-! DEFINITION. The frame tick (02 R49 to R60; 04 R172, R542; 05 R176; 06 R244; 07 R284, R294; 10 R379, R386, R387; 11 R395, R402). -/

namespace Sys2Proof.Machine

/-! ### Overruns (R59) -/

/-- A clock overrun: latched (R215), counted against the core's cluster with a record of its own, and the step fails with 0x0402 (R59, R487). A cluster
whose fault it makes permanent is marked by its die agent (R385, Table 15.1). -/
def State.clockOverrun (s : State) (c : Nat) : State :=
  let k := s.core c
  let w := (k.prog[k.pc]?).getD 0
  let s1 := s.setCore c ({ k with overran := true }.latchFault .clockOverrun k.pc w k.cycle)
  let e : ErrIn := { unit := s.clusterUnit (c / 8), code := 0x402, cls := if tget 0 s.step.clockRuns (s.clusterUnit (c / 8)) ≥ 3 then 1 else 0,
                     location := w.toNat, aux := k.pc, flags := flStepFailed, frame := k.frame, cycle := k.cycle, reporter := c / 16 }
  let s2 := s1.countEvent e true
  let s3 := if s1.turnsPermanent e then s2.markUnit e.unit 0x402 (unitId 2 (s.siteOf (c / 16)) 2) else s2
  s3.failStep k.frame 0x402 c (coreDetail k.frame c)

/-- Whether a core's cluster runs no clock for a cause that counts toward no overrun: the hold of R445, a dark cluster, a retired site. -/
def State.clockExcused (s : State) (c : Nat) : Bool :=
  s.clockHeld c || (s.cluster (c / 8)).dark || s.siteGone false (s.coreSite c)

/-- What a tick finds at one core whose ENDF has not retired: its limit reached, or too few cycles. A halted core's clock goes on. -/
def State.overrunAt (s : State) (c : Nat) : State :=
  let k := s.core c
  if k.live = true ∧ k.limit ≠ 0 ∧ k.overran = false ∧ s.clockExcused c = false then
    if k.limit ≤ k.cycle ∨ s.security.halted then s.limitOverrun c else s.clockOverrun c
  else s

/-! ### Items that missed their tick (R173, R244, R284, R324, R542) -/

/-- Whether a multicast route delivers at a logical die (R277, R278). -/
def onRoute (p : Packet) (d : Nat) : Bool :=
  inSpan p.src p.dst d && (if p.kind = 1 then d / 12 == p.src / 12 else d % 12 == p.src % 12)

/-- The cores that await a planned packet: DCORE at the receiving die, for a multicast at each die that it has not yet reached, a side copy's at its own; the
sender where the packet leaves the panel. A request or reply is awaited by its reply slot, a transfer's row or read by the transfer (R361). -/
def State.awaiters (s : State) (p : Packet) : List Nat :=
  if (2 ≤ p.typ ∧ p.typ ≤ 6) ∨ p.typ = 8 ∨ p.core / 0x10000 = 1 then []
  else
    match (if p.isLocal ∨ p.sideOnly then s.dieAt p.place else none) with
    | some d => [d * 16 + p.dcore]
    | none =>
      if p.dst < 144 then
        (if p.kind = 0 then [p.dst]
         else (gridDies s.units.gridClass).filter (fun d => onRoute p d && s.wouldReach p d)).map (fun d => d * 16 + p.dcore)
      else if p.core < 2304 then [p.core] else []

/-- Cores, locations and routes of the planned packets among some, each packet once: at the place that its flits have reached and not left. -/
def State.latePackets (s : State) (ps : List Packet) : List (Nat × Nat × Nat) :=
  (ps.filter (fun p => p.planned && p.gone == 0)).flatMap (fun p => (s.awaiters p).map (fun c => (c, p.routeId, p.routeId)))

/-- Reply slots in use (R167): the issuing core, the panel address and the route. -/
def State.lateSlots (s : State) : List (Nat × Nat × Nat) :=
  s.cores.flatMap (fun (e : Nat × Core) => e.2.slots.filterMap (fun (x : Nat × Option ReplySlot) => x.2.map (fun r => (e.1, r.addr, r.route))))

/-- Rows that have arrived and not landed, but for those that a reply slot or a transfer waits for (R361). -/
def State.lateRows (s : State) : List (Nat × Nat × Nat) :=
  s.fabric.arrived.flatMap (fun (e : Nat × List Arrived) => (e.2.filter (fun a => a.ack.isNone && a.sender / 0x10000 != 1)).map (fun a =>
    (a.waiter, a.route, a.route)))

/-- Increments not applied. -/
def State.lateIncs (s : State) : List (Nat × Nat × Nat) := s.fabric.incs.map (fun n => (n.core, n.route, n.route))

/-- Reduction entries whose FANIN was not reached: DCORE of the die as the first present input names it (R361). -/
def State.lateReds (s : State) : List (Nat × Nat × Nat) :=
  s.fabric.reds.filterMap (fun (e : Nat × List RedInput) => (orderInputs e.2).head?.map (fun i =>
    let red := e.1 / 8 % 65536
    (e.1 / 524288 * 16 + i.dcore, red, red)))

/-- The notified core of a planned transfer, else its launcher (R361). -/
def Desc.waiter (d : Desc) : Nat := if d.notify then d.core else d.launcher

/-- Planned transfers queued or running; those that the coolant-loss response ended have ended already (R244, R445). -/
def State.lateTransfers (s : State) : List (Nat × Nat × Nat) :=
  s.ioDies.flatMap (fun (d : Nat × IoDie) => d.2.channels.flatMap (fun (c : Nat × Channel) =>
    (c.2.queue ++ (match c.2.running with
      | some r => if r.err = 3 then [] else [r.desc]
      | none => [])).map (fun d => (d.waiter, d.dst, d.route))))

/-- Cross-panel transfers whose count was not reached (Table 8.9). -/
def State.lateIngress (s : State) : List (Nat × Nat × Nat) :=
  s.ioDies.flatMap (fun (d : Nat × IoDie) => d.2.ingress.filterMap (fun (x : Nat × Option InXfer) =>
    match x.2, s.farRoute d.1 (x.1 / 65536) with
    | some t, some r => some (r.dst * 16 + t.dcore, x.1 / 65536, x.1 / 65536)
    | _, _ => none))

/-- Planned packets that still wait for a port at an egress. -/
def State.lateEgress (s : State) : List (Nat × Nat × Nat) :=
  s.ioDies.flatMap (fun (d : Nat × IoDie) => s.latePackets (d.2.txWait.map (·.pkt)))

/-- Everything that missed this tick. -/
def State.lateItems (s : State) : List (Nat × Nat × Nat) :=
  s.lateTransfers ++ s.lateSlots ++ s.latePackets (s.fabric.packets ++ s.fabric.lost) ++ s.lateEgress ++ s.lateRows ++ s.lateIncs ++
    s.lateReds ++ s.lateIngress

/-- Planned work leaves every unit that held it: a late item counts nothing and writes nothing (R542). -/
def State.clearPlanned (s : State) : State :=
  let s := s.dropRequests (fun r => r.who.isNone)
  { s with
    fabric := { s.fabric with
      packets := s.fabric.packets.filter (fun p => !p.planned), lost := [], refused := [], arrived := [], incs := [], reds := [] },
    cores := s.cores.map (fun (e : Nat × Core) => (e.1, { e.2 with slots := [] })),
    ioDies := s.ioDies.map (fun (d : Nat × IoDie) => (d.1, { d.2 with
      channels := [], ingress := [], txWait := d.2.txWait.filter (fun x => !x.pkt.planned) })) }

/-- The cycles of a cluster in the frame that ends: its clock's since the last tick, and at least those of its core's frame-table entry. The model does not count a
cluster's cycles one by one to the tick (DESIGN CHOICE: log entry 109). -/
def State.frameCycles (s : State) (c limit : Nat) : Nat := max limit (s.pointOf (c / 8) * (s.now - s.clock.lastTick) / 1000)

/-- The accesses of instructions under way at a tick: those in cycles of the frame that ends are made, the others never (R542), nor those of a cluster whose clock is
held (R445). -/
def State.lastAccesses (s : State) : State :=
  let busy := s.cores.filter (fun (e : Nat × Core) => e.2.timing.jobs != [] && !s.clockHeld e.1)
  let s1 := { s with cores := s.cores.map (fun (e : Nat × Core) => (e.1, { e.2 with timing := { e.2.timing with
    jobs := e.2.timing.jobs.map (fun j => { j with acts := j.acts.filter (fun a => decide (a.cyc < s.frameCycles e.1 e.2.limit)) }) } })) }
  forEach (busy.foldl (fun cs e => insertNat (e.1 / 8) cs) [])
    (fun ci s => State.runWhile ci (fun s => (s.nextAct ci).getD 0 + 1) (s.actsLeft ci) s) s1

/-- The end of a frame of a running step: overruns, then timeouts. -/
def State.closeFrame (s : State) : State :=
  if s.isRunning && s.step.phase == .frames then
    let s1 := forEach (s.cores.map (·.1)) (fun c s => s.overrunAt c) s
    (forEach s1.lateItems (fun x s => s.timeout x.1 x.2.1 x.2.2) s1).clearPlanned
  else s

/-! ### Stall counters and crossing FIFOs (R294, R395) -/

/-- The planned flits that wait at the heads of their partitions have waited until the tick: their outputs' stall cycles are counted to it (R294). -/
def State.stallsToTick (s : State) : State :=
  let n := s.period * 8 / 5
  forEach (s.fabric.packets.filter (fun p => p.planned && !p.isLocal))
    (fun p s => forEach (s.hops p) (fun b s => s.countStalls p.place b.1 p.plane n n) s) s

/-- The die agents read and clear the stall counters, keeping the second's largest count and saturating sum; a TC0 window starts
(R274, R294). -/
def State.readStalls (s : State) : State :=
  let f := s.fabric
  { s with fabric := { f with
    stalls := [], tc0Out := [], tc0Inject := [],
    stallMax := f.stalls.foldl (fun t (e : Nat × Nat) => tset 0 t e.1 (max (tget 0 t e.1) e.2)) f.stallMax,
    stallSum := f.stalls.foldl (fun t (e : Nat × Nat) => tset 0 t e.1 (min (2 ^ 32 - 1) (tget 0 t e.1 + e.2))) f.stallSum } }

/-- The plane of a link that a crossing FIFO belongs to; a clock line's counts as plane 0 of the link that it runs beside (DESIGN CHOICE: Table 15.2 has no
unit id for a clock line; log entry 114). -/
def fifoUnit (p key : Nat) : Nat := if key < 0x100 then linkLane p (key / 8) (key % 8) 0x7FF else linkLane p (key - 0x100) 0 0x7FF

/-- A die's crossing FIFOs whose separation has reached 1 or 7 are recentred and counted, each against its link's plane, which the 16th in
24 h retires at the next tick (R395, R479, Table 15.1). -/
def State.recentre (s : State) (p : Nat) : State :=
  let d := s.dieClock p
  forEach (d.fifos.filter (fun e => decide (e.2 ≤ 1) || decide (7 ≤ e.2))) (fun e s =>
    s.countLane { unit := fifoUnit p e.1, code := 0x1013, cls := 0, aux := e.2, reporter := s.reporterAt p })
    (s.setDieClock p { d with fifos := d.fifos.filter (fun e => decide (1 < e.2) && decide (e.2 < 7)) })

/-! ### Stretch (R51, R52) -/

/-- The stretch of the frame that the tick begins: the value decided for this tick, within STRETCH_MAX; the minute's record shows the largest (R433). A worker holds
the value that the manager has named as the manager's, so that an older beacon brings no older value back (R52). -/
def State.takeStretch (s : State) : State :=
  let st := min (s.clock.stretchBy s.now) s.stretchMax
  let left := s.clock.waiting.filter (fun w => decide (s.now < w.2))
  { s with
    clock := { s.clock with stretch := st, waiting := left },
    power := { s.power with maxStretch := max s.power.maxStretch st },
    group := if left.length = s.clock.waiting.length then s.group
      else { s.group with values := s.group.values.map (fun v => { v with stretch := s.clock.stretchBy s.now }), valuesAt := s.now } }

/-- A worker reports its demand and the profile in force; a manager names the tick, the first at least two frame periods ahead, for the largest demand of the group
(R52). -/
def State.groupStretch (s : State) : State :=
  if s.isWorker then s.send (.stretchReport s.groupSlot s.stretchDemand s.power.profile)
  else if s.leads then
    let want := s.group.stretch.foldl (fun m (e : Nat × Nat) => max m e.2) s.stretchDemand
    if want = s.clock.lastStretch then s
    else State.send { s with clock := s.clock.decide want (s.now + 2 * s.period) } (.stretchApply want (s.now + 2 * s.period))
  else s

/-! ### Starting and ending (R56, R57, R60, R66, R172, R175, R176) -/

/-- A core at the first frame of a step: Table 5.1's registers, and the valid bits of the accumulator and weight buffers. -/
def Core.atStep (k : Core) : Core :=
  { k with g := [], v := [], pc := 0, loops := [], nv := false, of := false, wr := false, latch := none, accValid := [],
           vBad := [], accBad := [],
           wbuf0 := { k.wbuf0 with valid := false }, wbuf1 := { k.wbuf1 with valid := false } }

/-- A core in cycle 0 of a frame (Table 4.6). -/
def Core.atFrame (k : Core) (entry frame : Nat) : Core :=
  { k with cycle := 0, limit := entry, ctr := [], sl := 0xFFFF, elem := 0, frame := frame, overran := false, slots := [], timing := {},
           mode := if entry = 0 ∨ k.prog = [] then .gated else .running }

/-- `n` consecutive entries of the frame table. -/
def entriesFrom : Nat → List Byte → List Nat
  | 0, _ => []
  | n + 1, bs => leNat (bs.take 4) :: entriesFrom n (bs.drop 4)

/-- The entries of a frame for every core of the plan's class (R82); a frame beyond the table has none. -/
def Plan.frameEntries (p : Plan) (f : Nat) : List Nat :=
  let n := if p.gridClass = 144 then 2304 else 1920
  if f < p.frames then entriesFrom n (p.image.drop (p.tableAt + 4 * (f * n))) else List.replicate n 0

/-- A table in which core `i` and those after it have taken the entries given, in one pass; what holds the default is not listed. -/
def frameCores (begin_ : Nat → Core → Core) : List Nat → Nat → Tab Core → Tab Core
  | [], _, t => t
  | e :: es, i, [] => let k := begin_ e {}
                      if k = {} then frameCores begin_ es (i + 1) [] else (i, k) :: frameCores begin_ es (i + 1) []
  | e :: es, i, (j, v) :: t =>
    if i = j then
      let k := begin_ e v
      if k = {} then frameCores begin_ es (i + 1) t else (i, k) :: frameCores begin_ es (i + 1) t
    else
      let k := begin_ e {}
      if k = {} then frameCores begin_ es (i + 1) ((j, v) :: t) else (i, k) :: frameCores begin_ es (i + 1) ((j, v) :: t)

/-- Begins a frame at every core, and every channel's element counter (R111). At the first frame of a step no planned work of an earlier run is
left (R60). -/
def State.beginFrame (s : State) (p : Plan) (f : Nat) (isFirst : Bool) : State :=
  let s0 := if isFirst then s.clearPlanned else s
  { s0 with
    step := { s0.step with frame := f, phase := .frames },
    cores := frameCores (fun e k => (if isFirst then k.atStep else k).atFrame e f) (p.frameEntries f) 0 s0.cores,
    ioDies := s0.ioDies.map (fun (d : Nat × IoDie) => (d.1, { d.2 with
      channels := d.2.channels.map (fun (c : Nat × Channel) => (c.1, { c.2 with elem := 0 })),
      egressNext := if isFirst then [] else d.2.egressNext, egressOpen := if isFirst then [] else d.2.egressOpen,
      ingressNext := if isFirst then [] else d.2.ingressNext })) }

/-- Whether the stop that the group's manager has named is due (R61). -/
def State.stopDue (s : State) : Bool := match s.step.stop with | some t => decide (t ≤ s.now) | none => false

/-- Whether a run goes no further at this tick: it has failed here, or its manager's stop has come (R60, R61). -/
def State.stopsNow (s : State) : Bool := s.step.faults != [] || s.stopDue

/-- The run at a tick: it stops, starts, goes on to its next frame, or has run its last. -/
def State.runAtTick (s : State) : State :=
  if !s.isRunning then s
  else if s.stopsNow then (if s.groupRuns && !s.stopDue then s.orderOwnStop else s.endFailed)
  else
    match s.plan with
    | none => (s.failWith { unit := hubUnit, code := 0x40B, cls := 1 } hubUnit).endFailed
    | some p =>
      match s.step.phase with
      | .inputs => s
      | .outputs => s
      | .wait => if (s.step.startAt.getD s.now) ≤ s.now then s.beginFrame p 0 true else s
      | .frames =>
        if s.step.frame + 1 < p.frames then s.beginFrame p (s.step.frame + 1) false
        else
          let s1 := { s with step := { s.step with phase := .outputs } }
          if s1.isWorker then s1.endClean else s1.openStep false s1.step.outputs

/-! ### The tick -/

/-- The tick after a tick: a worker that has stepped its timebase and not joined keeps to the epoch sequence (R402). -/
def State.tickAfter (s : State) (t : Nat) : Nat :=
  match s.isWorker && s.group.stepped && !s.group.selfJoined, s.group.epoch with
  | true, some e => s.epochAfter e t
  | _, _ => t + s.period

/-- What the sync unit of every core does at a tick, whether or not it begins a frame (Table 4.6, Table 5.1; log entry 108). -/
def Core.atTick (k : Core) : Core := { k with cycle := 0, limit := 0, ctr := [], sl := 0xFFFF, elem := 0, timing := {} }

/-- Table 4.6 at every core. The cycles of the clusters count from the tick. -/
def State.restCores (s : State) : State :=
  { s with
    cores := s.cores.filterMap (fun (e : Nat × Core) => let k := e.2.atTick; if k = {} then none else some (e.1, k)),
    fabric := { s.fabric with landedAt := [], served := [], reads := [] } }

/-- The fabric's cycles count from the tick, 1,600 to the µs (R255): what still waits for a cycle beyond it waits for the remainder. -/
def State.restFabric (s : State) : State :=
  let n := s.period * 8 / 5
  { s with fabric := { s.fabric with
    packets := s.fabric.packets.map (fun p => { p with wait := p.wait.map (· - n) }),
    owed := s.fabric.owed.map (fun (e : Nat × List Nat) => (e.1, e.2.map (· - n))),
    sentAt := [], freedAt := [], stalledAt := [] } }

/-- Time at a tick: the settings and the stretch of the frame it begins are in force, and the next tick is known (R49, R402). -/
def State.timeAtTick (s : State) (t : Nat) : State :=
  let s1 := s.advanceTo t
  let s2 := { s1 with
    clock := { s1.clock with lastTick := t, tickCount := s1.clock.tickCount + 1, ticksThisSecond := s1.clock.ticksThisSecond + 1 },
    boot := { s1.boot with firstTick := true, clocksOff := s1.boot.clocksOff && !s1.boot.ready } }
  let s3 := s2.stallsToTick.lastAccesses.closeFrame.readStalls.restCores.restFabric.commitAtTick.takeStretch
  { s3 with clock := { s3.clock with nextTick := some (s3.tickAfter t) } }

/-- What follows the retirement of a lane of a port or the host link, a phase or a sensor (Table 15.3): narrower width (R313, R340), the cap of Table 12.6, a pair in
sensor fault (R436). Where the fault was found there, it has followed already. -/
def State.follow (s : State) (us : List Nat) : State :=
  forEach (us.filter s.retired) (fun u s =>
    match unitKind u with
    | 7 =>
      if bitsOf u 19 18 = 0 ∧ unitSite u < 64 ∧ bitsOf u 10 0 < 8 then s.retireLane (unitSite u) (bitsOf u 10 0)
      else if bitsOf u 19 18 = 3 ∧ unitSite u = 0 ∧ bitsOf u 10 0 < 8 then s.retireHostLane (bitsOf u 10 0)
      else s
    | 9 =>
      if (unitSub u).testBit 4 then s
      else match s.dieAt (unitSite u) with
        | some d => s.losePhase (2 * d + bitsOf u 3 3) (bitsOf u 2 0)
        | none => s
    | 10 => match s.pairOfUnit u with
      | some k => if (s.pair k).fault then s else (s.setPair k (s.pair k).inFault).faultRecord k (s.pair k).inFault 3
      | none => s
    | _ => s) s

/-- Unit changes at a tick, the settlements they end among them (R386, R387, R423). -/
def State.unitsAtTick (s : State) : State :=
  let s1 := { s with units := { s.units with suspects := s.units.suspects.filter (fun x => x.2.2.isNone) } }
  (s1.dueChanges.follow (s1.units.due.map (·.1))).expireAtTick

/-- What power and temperature change at a tick. -/
def State.powerAtTick (s : State) : State :=
  forEach s.clusters_ (fun ci s => (s.throttle ci).pointAtTick ci) s.reduceAtTick.riseAtTick

/-- FRAME_TICK: the frame ends, what waits for a tick takes effect, and the next frame begins (R49, Table 4.6). -/
def execFrameTick (s : State) : Out :=
  match s.clock.nextTick with
  | none => .next s
  | some t =>
    let s1 := (s.timeAtTick t).flipAtTick.resetAtTick.resetProgress.unitsAtTick.responseAtTick
    let s2 := forEach (s1.clock.dies.map (·.1)) (fun p s => s.recentre p) s1
    let s3 := forEach (s2.ioDies.map (·.1)) (fun io s => s.drainRx io) s2
    .next s3.runAtTick.powerAtTick.groupStretch.settleRetrains.finishLoad.runLanes

end Sys2Proof.Machine
end

