-- ==== Sys2Proof/Machine/Dispatch.lean ====
section
/-! DEFINITION. The meaning of every command, one arm each. -/

namespace Sys2Proof.Machine

def exec (i : Instr) (s : State) : Host.Outcome State Fault Refusal :=
  match i with
  | .info slot => Sys2Proof.Machine.execInfo slot s
  | .stage slot => Sys2Proof.Machine.execStage slot s
  | .proof slot => Sys2Proof.Machine.execProof slot s
  | .commit slot => Sys2Proof.Machine.execCommit slot s
  | .read slot => Sys2Proof.Machine.execRead slot s
  | .planLoad slot => Sys2Proof.Machine.execPlanLoad slot s
  | .stepStart slot => Sys2Proof.Machine.execStepStart slot s
  | .stepCommit slot => Sys2Proof.Machine.execStepCommit slot s
  | .stepReplay slot => Sys2Proof.Machine.execStepReplay slot s
  | .dmaWrite slot => Sys2Proof.Machine.execDmaWrite slot s
  | .dmaRead slot => Sys2Proof.Machine.execDmaRead slot s
  | .healthErrors slot => Sys2Proof.Machine.execHealthErrors slot s
  | .healthCongestion slot => Sys2Proof.Machine.execHealthCongestion slot s
  | .healthPorts slot => Sys2Proof.Machine.execHealthPorts slot s
  | .healthUnits slot => Sys2Proof.Machine.execHealthUnits slot s
  | .healthSensors slot => Sys2Proof.Machine.execHealthSensors slot s
  | .envelopeReport slot => Sys2Proof.Machine.execEnvelopeReport slot s
  | .attest slot => Sys2Proof.Machine.execAttest slot s
  | .certRead slot => Sys2Proof.Machine.execCertRead slot s
  | .keyAdd slot => Sys2Proof.Machine.execKeyAdd slot s
  | .debugUnlock slot => Sys2Proof.Machine.execDebugUnlock slot s
  | .fwUpdate slot => Sys2Proof.Machine.execFwUpdate slot s
  | .computeReset slot => Sys2Proof.Machine.execComputeReset slot s
  | .panelReset slot => Sys2Proof.Machine.execPanelReset slot s
  | .zlRetrain slot => Sys2Proof.Machine.execZlRetrain slot s
  | .windowOpen slot => Sys2Proof.Machine.execWindowOpen slot s
  | .windowClose slot => Sys2Proof.Machine.execWindowClose slot s
  | .groupCopy slot => Sys2Proof.Machine.execGroupCopy slot s
  | .commandRelay slot seq status detail result => Sys2Proof.Machine.execCommandRelay slot seq status detail result s
  | .logEnableWrite value => Sys2Proof.Machine.execLogEnableWrite value s
  | .consWrite value => Sys2Proof.Machine.execConsWrite value s
  | .hostWindowWrite isWrite offset bytes => Sys2Proof.Machine.execHostWindowWrite isWrite offset bytes s
  | .completionRecordWrite => Sys2Proof.Machine.execCompletionRecordWrite s
  | .interruptMessage => Sys2Proof.Machine.execInterruptMessage s
  | .nop core body => Sys2Proof.Machine.execNop core body s
  | .loop core body => Sys2Proof.Machine.execLoop core body s
  | .endf core body => Sys2Proof.Machine.execEndf core body s
  | .endfRetire core => Sys2Proof.Machine.execEndfRetire core s
  | .slot core body => Sys2Proof.Machine.execSlot core body s
  | .wait core body => Sys2Proof.Machine.execWait core body s
  | .waitComplete core => Sys2Proof.Machine.execWaitComplete core s
  | .scalarRegisterForm core body => Sys2Proof.Machine.execScalarRegisterForm core body s
  | .scalarImmediateForm core body => Sys2Proof.Machine.execScalarImmediateForm core body s
  | .rdtb core body => Sys2Proof.Machine.execRdtb core body s
  | .rdfi core body => Sys2Proof.Machine.execRdfi core body s
  | .rdcyc core body => Sys2Proof.Machine.execRdcyc core body s
  | .rdid core body => Sys2Proof.Machine.execRdid core body s
  | .rdst core body => Sys2Proof.Machine.execRdst core body s
  | .clrst core body => Sys2Proof.Machine.execClrst core body s
  | .rdctr core body => Sys2Proof.Machine.execRdctr core body s
  | .twload core body => Sys2Proof.Machine.execTwload core body s
  | .tmac core body => Sys2Proof.Machine.execTmac core body s
  | .tdrain core body => Sys2Proof.Machine.execTdrain core body s
  | .vectorFp32 core body => Sys2Proof.Machine.execVectorFp32 core body s
  | .vectorBf16 core body => Sys2Proof.Machine.execVectorBf16 core body s
  | .vectorInt32 core body => Sys2Proof.Machine.execVectorInt32 core body s
  | .vectorFp32Functions core body => Sys2Proof.Machine.execVectorFp32Functions core body s
  | .vred core body => Sys2Proof.Machine.execVred core body s
  | .vcvt core body => Sys2Proof.Machine.execVcvt core body s
  | .vld core body => Sys2Proof.Machine.execVld core body s
  | .vst core body => Sys2Proof.Machine.execVst core body s
  | .getl core body => Sys2Proof.Machine.execGetl core body s
  | .putl core body => Sys2Proof.Machine.execPutl core body s
  | .rowcp core body => Sys2Proof.Machine.execRowcp core body s
  | .rget core body => Sys2Proof.Machine.execRget core body s
  | .rput core body => Sys2Proof.Machine.execRput core body s
  | .send core body => Sys2Proof.Machine.execSend core body s
  | .mcrow core body => Sys2Proof.Machine.execMcrow core body s
  | .mccol core body => Sys2Proof.Machine.execMccol core body s
  | .redsend core body => Sys2Proof.Machine.execRedsend core body s
  | .sig core body => Sys2Proof.Machine.execSig core body s
  | .cycleLimitOverrun core => Sys2Proof.Machine.execCycleLimitOverrun core s
  | .remoteRequestArrival pkt cycle => Sys2Proof.Machine.execRemoteRequestArrival pkt cycle s
  | .replyArrival pkt cycle => Sys2Proof.Machine.execReplyArrival pkt cycle s
  | .fabricPacketArrival pkt cycle headerOk payloadOk lane => Sys2Proof.Machine.execFabricPacketArrival pkt cycle headerOk payloadOk lane s
  | .rowDelivery pkt cycle => Sys2Proof.Machine.execRowDelivery pkt cycle s
  | .externalWriteLand memory cycle => Sys2Proof.Machine.execExternalWriteLand memory cycle s
  | .reduceInputArrival pkt => Sys2Proof.Machine.execReduceInputArrival pkt s
  | .tc0WindowStart => Sys2Proof.Machine.execTc0WindowStart s
  | .arbiterWindowStart arbiter => Sys2Proof.Machine.execArbiterWindowStart arbiter s
  | .dmaLaunch pkt => Sys2Proof.Machine.execDmaLaunch pkt s
  | .dmaTransferStart io channel => Sys2Proof.Machine.execDmaTransferStart io channel s
  | .dmaTransferComplete io channel => Sys2Proof.Machine.execDmaTransferComplete io channel s
  | .hostPieceStart tag => Sys2Proof.Machine.execHostPieceStart tag s
  | .hostPieceComplete tag piece => Sys2Proof.Machine.execHostPieceComplete tag piece s
  | .scrubRow memory row outcome word => Sys2Proof.Machine.execScrubRow memory row outcome word s
  | .frameTick => Sys2Proof.Machine.execFrameTick s
  | .stepInputsDone => Sys2Proof.Machine.execStepInputsDone s
  | .stepOutputsDone => Sys2Proof.Machine.execStepOutputsDone s
  | .congestionMapAssemble => Sys2Proof.Machine.execCongestionMapAssemble s
  | .portTraining port goodLanes roundTripNs => Sys2Proof.Machine.execPortTraining port goodLanes roundTripNs s
  | .portRetryTimer port => Sys2Proof.Machine.execPortRetryTimer port s
  | .peerVerification port reply => Sys2Proof.Machine.execPeerVerification port reply s
  | .identityRequest port challenge => Sys2Proof.Machine.execIdentityRequest port challenge s
  | .linkFlitReceive port ctl payload codewordOk worstLane => Sys2Proof.Machine.execLinkFlitReceive port ctl payload codewordOk worstLane s
  | .laneRetire port lane => Sys2Proof.Machine.execLaneRetire port lane s
  | .portSignalLoss port => Sys2Proof.Machine.execPortSignalLoss port s
  | .tc3Ingress io => Sys2Proof.Machine.execTc3Ingress io s
  | .outboundTransferComplete io route xferId => Sys2Proof.Machine.execOutboundTransferComplete io route xferId s
  | .tc3TransferTimeout srcSlot xferId => Sys2Proof.Machine.execTc3TransferTimeout srcSlot xferId s
  | .tc3RowWrite => Sys2Proof.Machine.execTc3RowWrite s
  | .groupMessageReceive msg => Sys2Proof.Machine.execGroupMessageReceive msg s
  | .timeBeacon stamp roundTrip received => Sys2Proof.Machine.execTimeBeacon stamp roundTrip received s
  | .workerJoin => Sys2Proof.Machine.execWorkerJoin s
  | .managerLost => Sys2Proof.Machine.execManagerLost s
  | .workerSilent slot => Sys2Proof.Machine.execWorkerSilent slot s
  | .healthGather => Sys2Proof.Machine.execHealthGather s
  | .hostLinkTraining goodLanes => Sys2Proof.Machine.execHostLinkTraining goodLanes s
  | .hostLinkDown => Sys2Proof.Machine.execHostLinkDown s
  | .referenceLost => Sys2Proof.Machine.execReferenceLost s
  | .referenceHoldoverExpire => Sys2Proof.Machine.execReferenceHoldoverExpire s
  | .referenceReturned => Sys2Proof.Machine.execReferenceReturned s
  | .clockParentSwitch die => Sys2Proof.Machine.execClockParentSwitch die s
  | .timingBeacon die beacon seps => Sys2Proof.Machine.execTimingBeacon die beacon seps s
  | .droopEvent cluster droop failed => Sys2Proof.Machine.execDroopEvent cluster droop failed s
  | .phaseLost cluster phase => Sys2Proof.Machine.execPhaseLost cluster phase s
  | .deratedExpiry site => Sys2Proof.Machine.execDeratedExpiry site s
  | .pmbusPoll readings => Sys2Proof.Machine.execPmbusPoll readings s
  | .powerSecond => Sys2Proof.Machine.execPowerSecond s
  | .zoneCurrentWarning zone => Sys2Proof.Machine.execZoneCurrentWarning zone s
  | .energyMinute => Sys2Proof.Machine.execEnergyMinute s
  | .sensorSample pair primary secondary => Sys2Proof.Machine.execSensorSample pair primary secondary s
  | .hbmTemperatureRead stack reading errors => Sys2Proof.Machine.execHbmTemperatureRead stack reading errors s
  | .flowPulse => Sys2Proof.Machine.execFlowPulse s
  | .thermalDemandUpdate => Sys2Proof.Machine.execThermalDemandUpdate s
  | .thermalSecond => Sys2Proof.Machine.execThermalSecond s
  | .coolantLossDetect condition => Sys2Proof.Machine.execCoolantLossDetect condition s
  | .hardLimit unit reading => Sys2Proof.Machine.execHardLimit unit reading s
  | .pwrOkRise straps => Sys2Proof.Machine.execPwrOkRise straps s
  | .pwrOkFall => Sys2Proof.Machine.execPwrOkFall s
  | .panelResetN lowNs released straps => Sys2Proof.Machine.execPanelResetN lowNs released straps s
  | .auxFall => Sys2Proof.Machine.execAuxFall s
  | .stageComplete code unit pass found => Sys2Proof.Machine.execStageComplete code unit pass found s
  | .stageTimeout code late => Sys2Proof.Machine.execStageTimeout code late s
  | .recoveryBoot => Sys2Proof.Machine.execRecoveryBoot s
  | .firmwareBlockReceive site block digest => Sys2Proof.Machine.execFirmwareBlockReceive site block digest s
  | .dataPathMark unit code reporter => Sys2Proof.Machine.execDataPathMark unit code reporter s
  | .unitReprobe unit found => Sys2Proof.Machine.execUnitReprobe unit found s
  | .ledgerWrite unit action source detail => Sys2Proof.Machine.execLedgerWrite unit action source detail s
  | .engineSidebandAccess engine target offset length isWrite data => Sys2Proof.Machine.execEngineSidebandAccess engine target offset length isWrite data s
  | .auxRise => Sys2Proof.Machine.execAuxRise s
  | .debugPortAccess op address data => Sys2Proof.Machine.execDebugPortAccess op address data s
  | .identityReplyTimeout port => Sys2Proof.Machine.execIdentityReplyTimeout port s

end Sys2Proof.Machine
end

