-- ==== Sys2Proof/Machine/Idle.lean ====
section
/-! DEFINITION. What the panel does with no command waiting. -/

namespace Sys2Proof.Machine

/-- An idle step: one count of the timebase while it counts, which may bring a COMPUTE_RESET to its stages (R397, R399, R475; log entry 2). -/
def idle (s : State) : State :=
  if s.clock.counting then State.resetProgress { s with clock := s.clock.tick } else s

end Sys2Proof.Machine
end

