-- ==== Sys2Proof/Safety.lean ====
section
/-! DEFINITION. What counts as a safe step and a sound state, and the shapes of commands that act, in the terms the statements use. -/

namespace Sys2Proof

open Machine

/-- The step of a state answers a next state: neither a fault nor a refusal. -/
def StepsOn (s : State) : Prop := ∃ t, step s = .next t

/-- Panel memory and host memory hold their canonical form. -/
def MemSound (s : State) : Prop := Memory.wf s.mem = true ∧ Memory.wf s.hostMem = true

/-! ### Core instructions -/

/-- Core `c` runs and may be used, neither a debug halt nor the hold of R445 stops it, and its next word is `w` (R40, R129, R445, R513). -/
def Issues (c : Nat) (w : BitVec 64) (s : State) : Prop :=
  c < 2304 ∧ (s.core c).mode = .running ∧ s.security.halted = false ∧ s.coreUsable c = true ∧ s.clockHeld c = false ∧
    (s.core c).prog[(s.core c).pc]? = some w

/-- The program counter and the loops as the loop rule leaves them (R185). -/
def Advanced (k k' : Core) : Prop := k'.pc = (loopNext k.pc k.loops).1 ∧ k'.loops = (loopNext k.pc k.loops).2

/-- Every g register reads as before. -/
def GKept (k k' : Core) : Prop := ∀ j, k'.greg j = k.greg j
/-- Every v register reads as before. -/
def VKept (k k' : Core) : Prop := ∀ j, k'.vreg j = k.vreg j
/-- The sticky bits are as before. -/
def FlagsKept (k k' : Core) : Prop := k'.nv = k.nv ∧ k'.of = k.of ∧ k'.wr = k.wr
/-- Accumulator and weight buffers are as before. -/
def TensorKept (k k' : Core) : Prop := k'.acc = k.acc ∧ k'.accValid = k.accValid ∧ k'.wbuf0 = k.wbuf0 ∧ k'.wbuf1 = k.wbuf1
/-- Counters, latch, program, reply slots, frame fields and run mode are as before. -/
def RestKept (k k' : Core) : Prop :=
  k'.ctr = k.ctr ∧ k'.latch = k.latch ∧ k'.prog = k.prog ∧ k'.slots = k.slots ∧ k'.limit = k.limit ∧ k'.frame = k.frame ∧
    k'.mode = k.mode ∧ k'.overran = k.overran

/-- Only the program counter, the loops and the cycle counts have moved. -/
def OnlyAdvanced (k k' : Core) : Prop :=
  Advanced k k' ∧ GKept k k' ∧ VKept k k' ∧ FlagsKept k k' ∧ TensorKept k k' ∧ RestKept k k' ∧ k'.sl = k.sl ∧ k'.elem = k.elem

/-- As `OnlyAdvanced`, but g[gd] now reads `v` (a write to g0 is discarded). -/
def WritesG (k k' : Core) (gd : Nat) (v : BitVec 64) : Prop :=
  Advanced k k' ∧ (∀ j, k'.greg j = if j = gd ∧ j ≠ 0 then v else k.greg j) ∧ VKept k k' ∧ FlagsKept k k' ∧ TensorKept k k' ∧
    RestKept k k' ∧ k'.sl = k.sl ∧ k'.elem = k.elem

/-- As `OnlyAdvanced`, but v[vd] now reads `bs`. -/
def WritesV (k k' : Core) (vd : Nat) (bs : List Byte) : Prop :=
  Advanced k k' ∧ (∀ j, k'.vreg j = if j = vd then fitBytes 256 bs else k.vreg j) ∧ GKept k k' ∧ FlagsKept k k' ∧ TensorKept k k' ∧
    RestKept k k' ∧ k'.sl = k.sl ∧ k'.elem = k.elem

/-- What the accesses of instructions under way leave alone in a core: all but its v registers, accumulator, weight buffers, flags and scoreboard, and, where a
reply to it lands, that reply's slot and counter (R167). -/
def KeptAside (k k' : Core) : Prop :=
  GKept k k' ∧ ((∀ j ∈ k.timing.jobs, j.slot = none) → k'.ctr = k.ctr ∧ k'.slots = k.slots) ∧ k'.latch = k.latch ∧ k'.prog = k.prog ∧
    k'.limit = k.limit ∧ k'.frame = k.frame ∧ k'.mode = k.mode ∧ k'.overran = k.overran ∧ k'.pc = k.pc ∧ k'.loops = k.loops ∧ k'.sl = k.sl ∧
    k'.cycle = k.cycle ∧ k'.elem = k.elem

/-- Core commands: the 41 that name a core and act as its instruction. -/
def coreOf : Instr → Option Nat
  | .nop c _ | .loop c _ | .endf c _ | .slot c _ | .wait c _ | .scalarRegisterForm c _ | .scalarImmediateForm c _ => some c
  | .rdtb c _ | .rdfi c _ | .rdcyc c _ | .rdid c _ | .rdst c _ | .clrst c _ | .rdctr c _ => some c
  | .twload c _ | .tmac c _ | .tdrain c _ | .vectorFp32 c _ | .vectorBf16 c _ | .vectorInt32 c _ | .vectorFp32Functions c _ => some c
  | .vred c _ | .vcvt c _ | .vld c _ | .vst c _ | .getl c _ | .putl c _ | .rowcp c _ | .rget c _ | .rput c _ => some c
  | .send c _ | .mcrow c _ | .mccol c _ | .redsend c _ | .sig c _ => some c
  | _ => none

/-! ### Host commands -/

/-- Slot `slot` is the next to be accepted, holds a command with opcode `op`, and passes every check of Table 9.8 (R344, R347). -/
def Accepts (slot op : Nat) (s : State) : Prop :=
  slot < 32 ∧ s.accepting = true ∧ s.host.acceptQ.head? = some slot ∧ (s.slotCmd slot).opcode = op ∧
    s.acceptFail (s.slotCmd slot) (s.slotBytes slot) = none

/-- The command of a slot with its payload. -/
def theCmd (s : State) (slot : Nat) : Cmd := (s.takeSlot slot).started (s.slotCmd slot)

/-- The control lane is empty and free for the command of a slot, which is for this panel and for which no reset refuses at once. -/
def LaneFree (slot : Nat) (s : State) : Prop :=
  s.cmds.lane = [] ∧ (s.slotCmd slot).dest = 0xFFFF ∧ s.boot.resetTag = none ∧
    State.laneBlocked { s.takeSlot slot with cmds := { (s.takeSlot slot).cmds with lane := [s.slotCmd slot] } } (s.slotCmd slot) = false

/-- The state in which a control command of a slot runs: its slot is taken and a command that holds the lane holds it. -/
def inLane (s : State) (slot : Nat) : State :=
  { s.takeSlot slot with cmds := { (s.takeSlot slot).cmds with
    lane := [], holding := if holdsLane (s.slotCmd slot) then some (s.slotCmd slot) else s.cmds.holding } }

/-- After a control command the transfers that wait may start. -/
def lanesOn (t : State) : State := State.runTransfers t.cmds.xferQueue t

/-- A command's completion record with no SLOT: opcode, tag, status, DETAIL, RESULT and the time (Table 9.15). -/
def recOf (s : State) (c : Cmd) (status detail result : Nat) : Rec :=
  { opcode := c.opcode, tag := c.tag, flags := 0, status := status, slot := 0xFFFF, detail := detail, timebase := s.now, xferWord := 0,
    result := result, noIrq := c.noIrq, fault := false, seq := c.seq }

/-- The state with a command's completion record behind those that wait, and nothing else changed. -/
def answered (s : State) (c : Cmd) (status detail result : Nat) : State :=
  { s with log := { s.log with waiting := s.log.waiting ++ [recOf s c status detail result] } }

/-- The state with a block at a host address and the frames that carry it, the command's success record with RESULT `n`, and nothing else changed. -/
def reported (s : State) (c : Cmd) (a : Nat) (block : List Byte) (n : Nat) : State :=
  answered { s with hostMem := writeBytes s.hostMem a block, host := HostPort.pump { s.host with out := s.host.out ++ hostFrames block } } c 0 0 n

/-- The transfer lane is empty and has room, and nothing waits in the control lane. -/
def TransferFree (s : State) : Prop :=
  s.cmds.lane = [] ∧ s.cmds.xferQueue = [] ∧ (s.cmds.xfers.filter (fun x => !x.ofStep)).length + s.group.copies.length < 64 ∧ s.cmds.holding = none

/-! ### Boot -/

/-- What a panel reset leaves: host memory, fuses, flash, the AUX domain's pins and the waiting commands. -/
def OnlyAuxLeft (s t : State) : Prop :=
  t = { State.reset with pending := s.pending, free := s.free, hostMem := s.hostMem, fuses := s.fuses, flash := { s.flash with writing := none }, pins := t.pins } ∧
    t.pins.shutdown = s.pins.shutdown

end Sys2Proof
end

