-- ==== Sys2Proof/WellFormed.lean ====
section
/-! DEFINITION. Well-formed commands: every operand names a unit that Tables 1.1 to 1.4, 6.2, 8.1 and 9.2 number. -/

namespace Sys2Proof

/-- A memory number: a scratchpad by core index, or a cluster memory at 0x8000_0000 plus its cluster index (R82). -/
def memoryOk (m : Nat) : Bool := decide (m < 2304) || decide (0x80000000 ≤ m ∧ m < 0x80000000 + 288)

/-- The number of a core's accumulator memory or instruction store, at 0x9000_0000 and 0xA000_0000 (log entry 110). -/
def coreArrayOk (m : Nat) : Bool := decide (0x90000000 ≤ m ∧ m < 0x90000000 + 2304) || decide (0xA0000000 ≤ m ∧ m < 0xA0000000 + 2304)

/-- A die's place: a grid site, or an I/O die at 0x100 plus its index. -/
def placeOk (p : Nat) : Bool := decide (p < 156) || (decide (0x100 ≤ p) && decide (p < 0x10C))

/-- An arbiter's number: an HBM stack's, an edge injection's at 0x100 on, or a port bundle's at 0x300 on. -/
def arbiterNumbered (n : Nat) : Bool :=
  decide (n < 24) || (decide (0x100 ≤ n) && decide (n < 0x100 + 400)) || (decide (0x300 ≤ n) && decide (n < 0x300 + 16))

/-- Whether every operand of a command lies in its range. -/
def wellFormed : Instr → Bool
  | .info slot => decide (slot < 32)
  | .stage slot => decide (slot < 32)
  | .proof slot => decide (slot < 32)
  | .commit slot => decide (slot < 32)
  | .read slot => decide (slot < 32)
  | .planLoad slot => decide (slot < 32)
  | .stepStart slot => decide (slot < 32)
  | .stepCommit slot => decide (slot < 32)
  | .stepReplay slot => decide (slot < 32)
  | .dmaWrite slot => decide (slot < 32)
  | .dmaRead slot => decide (slot < 32)
  | .healthErrors slot => decide (slot < 32)
  | .healthCongestion slot => decide (slot < 32)
  | .healthPorts slot => decide (slot < 32)
  | .healthUnits slot => decide (slot < 32)
  | .healthSensors slot => decide (slot < 32)
  | .envelopeReport slot => decide (slot < 32)
  | .attest slot => decide (slot < 32)
  | .certRead slot => decide (slot < 32)
  | .keyAdd slot => decide (slot < 32)
  | .debugUnlock slot => decide (slot < 32)
  | .fwUpdate slot => decide (slot < 32)
  | .computeReset slot => decide (slot < 32)
  | .panelReset slot => decide (slot < 32)
  | .zlRetrain slot => decide (slot < 32)
  | .windowOpen slot => decide (slot < 32)
  | .windowClose slot => decide (slot < 32)
  | .groupCopy slot => decide (slot < 32)
  | .commandRelay slot _ _ _ _ => decide (slot < 65535)
  | .logEnableWrite _ => true
  | .consWrite _ => true
  | .hostWindowWrite _ offset _ => decide (offset < 65536)
  | .completionRecordWrite => true
  | .interruptMessage => true
  | .nop core _ => decide (core < 2304)
  | .loop core _ => decide (core < 2304)
  | .endf core _ => decide (core < 2304)
  | .endfRetire core => decide (core < 2304)
  | .slot core _ => decide (core < 2304)
  | .wait core _ => decide (core < 2304)
  | .waitComplete core => decide (core < 2304)
  | .scalarRegisterForm core _ => decide (core < 2304)
  | .scalarImmediateForm core _ => decide (core < 2304)
  | .rdtb core _ => decide (core < 2304)
  | .rdfi core _ => decide (core < 2304)
  | .rdcyc core _ => decide (core < 2304)
  | .rdid core _ => decide (core < 2304)
  | .rdst core _ => decide (core < 2304)
  | .clrst core _ => decide (core < 2304)
  | .rdctr core _ => decide (core < 2304)
  | .twload core _ => decide (core < 2304)
  | .tmac core _ => decide (core < 2304)
  | .tdrain core _ => decide (core < 2304)
  | .vectorFp32 core _ => decide (core < 2304)
  | .vectorBf16 core _ => decide (core < 2304)
  | .vectorInt32 core _ => decide (core < 2304)
  | .vectorFp32Functions core _ => decide (core < 2304)
  | .vred core _ => decide (core < 2304)
  | .vcvt core _ => decide (core < 2304)
  | .vld core _ => decide (core < 2304)
  | .vst core _ => decide (core < 2304)
  | .getl core _ => decide (core < 2304)
  | .putl core _ => decide (core < 2304)
  | .rowcp core _ => decide (core < 2304)
  | .rget core _ => decide (core < 2304)
  | .rput core _ => decide (core < 2304)
  | .send core _ => decide (core < 2304)
  | .mcrow core _ => decide (core < 2304)
  | .mccol core _ => decide (core < 2304)
  | .redsend core _ => decide (core < 2304)
  | .sig core _ => decide (core < 2304)
  | .cycleLimitOverrun core => decide (core < 2304)
  | .remoteRequestArrival _ _ => true
  | .replyArrival _ _ => true
  | .fabricPacketArrival _ _ _ _ _ => true
  | .rowDelivery _ _ => true
  | .externalWriteLand memory _ => memoryOk memory
  | .reduceInputArrival _ => true
  | .tc0WindowStart => true
  | .arbiterWindowStart arbiter => arbiterNumbered arbiter
  | .dmaLaunch _ => true
  | .dmaTransferStart io channel => decide (io < 12) && decide (channel < 64)
  | .dmaTransferComplete io channel => decide (io < 12) && decide (channel < 64)
  | .hostPieceStart _ => true
  | .hostPieceComplete _ _ => true
  | .scrubRow memory _ _ _ => memoryOk memory || coreArrayOk memory
  | .frameTick => true
  | .stepInputsDone => true
  | .stepOutputsDone => true
  | .congestionMapAssemble => true
  | .portTraining port _ _ => decide (port < 64)
  | .portRetryTimer port => decide (port < 64)
  | .peerVerification port _ => decide (port < 64)
  | .identityRequest port _ => decide (port < 64)
  | .linkFlitReceive port _ _ _ worstLane => (decide (port < 64) || port == 0x80) && decide (worstLane < 8)
  | .laneRetire port lane => (decide (port < 64) || port == 0x80) && decide (lane < 8)
  | .portSignalLoss port => decide (port < 64)
  | .tc3Ingress io => decide (io < 13)
  | .outboundTransferComplete io _ _ => decide (io < 12)
  | .tc3TransferTimeout _ _ => true
  | .tc3RowWrite => true
  | .groupMessageReceive _ => true
  | .timeBeacon _ _ _ => true
  | .workerJoin => true
  | .managerLost => true
  | .workerSilent slot => decide (slot < 65535)
  | .healthGather => true
  | .hostLinkTraining _ => true
  | .hostLinkDown => true
  | .referenceLost => true
  | .referenceHoldoverExpire => true
  | .referenceReturned => true
  | .clockParentSwitch die => placeOk die
  | .timingBeacon die _ _ => placeOk die || die == 0x200
  | .droopEvent cluster _ failed => decide (cluster < 288) && failed.all (fun p => decide (p < 8))
  | .phaseLost cluster phase => decide (cluster < 288) && decide (phase < 8)
  | .deratedExpiry site => decide (site < 156)
  | .pmbusPoll _ => true
  | .powerSecond => true
  | .zoneCurrentWarning zone => decide (zone < 16)
  | .energyMinute => true
  | .sensorSample pair _ _ => decide (pair < 302) || (decide (0x200 ≤ pair) && decide (pair < 0x200 + 312))
  | .hbmTemperatureRead stack _ _ => decide (stack < 24)
  | .flowPulse => true
  | .thermalDemandUpdate => true
  | .thermalSecond => true
  | .coolantLossDetect _ => true
  | .hardLimit unit _ => decide (unit < 2 ^ 32)
  | .pwrOkRise _ => true
  | .pwrOkFall => true
  | .panelResetN _ _ _ => true
  | .auxFall => true
  | .stageComplete _ unit _ _ => decide (unit < 2 ^ 32)
  | .stageTimeout _ late => late.all (fun u => decide (u < 2 ^ 32))
  | .recoveryBoot => true
  | .firmwareBlockReceive site _ _ => placeOk site
  | .dataPathMark unit _ _ => decide (unit < 2 ^ 32)
  | .unitReprobe unit _ => decide (unit < 2 ^ 32)
  | .ledgerWrite unit _ _ _ => decide (unit < 2 ^ 32)
  | .engineSidebandAccess engine _ _ _ _ _ => decide (engine < 8)
  | .auxRise => true
  | .debugPortAccess _ _ _ => true
  | .identityReplyTimeout port => decide (port < 64)

end Sys2Proof
end

