-- ==== Sys2Proof/Certificates/Slice0/Obligations.lean ====
section
/-! DEFINITION. The statements about the model. Each docstring names the rules of spec/ that it formalises. -/

open Sys2Proof Sys2Proof.Machine

/-! ### The machine -/

/-- A step takes the command at the front of the queue and is `exec` of it on the state with the queue's rest. -/
def Obligations.StepRunsFront : Prop :=
  ∀ (c : Instr) (s : State) (rest : List Instr), s.pending = c :: rest → step s = exec c { s with pending := rest }

/-- With an empty queue a step counts once while the timebase counts, by 1 ns and what trim and slew add or withhold, and changes nothing else unless a
COMPUTE_RESET waits for its routers (the model's choice, log entries 2 and 123); the timebase never goes back (R397, R399). With a command at the front it answers
a next state, whatever the command and the state: no command of the table stops a run, one whose event cannot happen leaving the state as it is (the model's choice,
log entries 1 and 102). -/
def Obligations.EmptyQueueIdles : Prop :=
  (∀ s : State, s.pending = [] → s.boot.resetDrain = none →
    step s = .next { s with clock := if s.clock.counting then s.clock.tick else s.clock }) ∧
  (∀ k : Clock, k.timebase ≤ k.tick.timebase ∧ k.tick.timebase ≤ k.timebase + 2 ∧
    (k.trimAcc + k.beaconTrim < 10 ^ 9 → -(10 ^ 9) < k.trimAcc + k.beaconTrim → k.slew = 0 → k.tick.timebase = k.timebase + 1)) ∧
  (∀ s : State, s.pending = [] → StepsOn s) ∧
  (∀ (c : Instr) (s : State) (rest : List Instr), s.pending = c :: rest → StepsOn s) ∧
  (∀ (c : Instr) (s : State), ∃ t, exec c s = .next t)

/-- At reset both memories have their canonical form (log entry 4). -/
def Obligations.ResetMemorySound : Prop := MemSound State.reset

/-- Whatever command a step takes, panel memory and host memory keep their canonical form: addresses strictly rising, no entry equal to
what an unlisted byte reads as. -/
def Obligations.StepKeepsMemorySound : Prop :=
  ∀ s t : State, MemSound s → step s = .next t → MemSound t

/-- The part number, the stepping, the fused retirements, keys, key identifiers, secret, starter digest, serial and certificates, and the starter's ROM are fixed: no
step changes them (R4, R466, R500, R502). FW_KEY0_REVOKED once blown stays, and ROLLBACK never falls (R508). -/
def Obligations.StepKeepsFuses : Prop :=
  ∀ s t : State, step s = .next t →
    t.fuses = { s.fuses with fwKey0Revoked := t.fuses.fwKey0Revoked, rollback := t.fuses.rollback } ∧
      (s.fuses.fwKey0Revoked = true → t.fuses.fwKey0Revoked = true) ∧
      (field s.boot.image 6 2 ≤ 63 → s.fuses.rollback.toNat ≤ t.fuses.rollback.toNat)

/-- A core instruction acts on its own core and what it hands out, and time passes in its cluster alone (the model's choice, log entry 9): whatever it does, no other core's registers,
place in its program or mode change, nor its counters but by replies that land, cores of other clusters are as before whole, and so are the settings, the plan, the alias table, the
host window, the commands in flight, host memory and every byte of HBM. Where no unit of the cluster has an access to come, no time passes but the
core's own. -/
def Obligations.CoreInstructionsAreLocal : Prop :=
  (∀ (i : Instr) (c : Nat) (s t : State), coreOf i = some c → exec i s = .next t →
    (∀ d, d ≠ c → KeptAside (s.core d) (t.core d)) ∧ (∀ d, d / 8 ≠ c / 8 → t.core d = s.core d) ∧
      t.settings = s.settings ∧ t.plan = s.plan ∧ t.aliases = s.aliases ∧ t.host = s.host ∧
      t.cmds = s.cmds ∧ t.hostMem = s.hostMem ∧ (∀ a, 2 * 2 ^ 44 ≤ a → readByte t.mem a = readByte s.mem a)) ∧
  (∀ (c : Nat) (w : BitVec 64) (s : State), KeptAside (s.core c) ((s.atIssue c w).core c)) ∧
  (∀ (c : Nat) (w : BitVec 64) (s : State), (∀ d, d / 8 = c / 8 → (s.core d).timing.jobs = []) → s.atIssue c w = s)

/-! ### Control and synchronisation instructions (05 R185 to R187) -/

/-- NOP with no RSV bit set occupies the scalar unit for a cycle and changes nothing but the place in the program; with one set it raises the
illegal-instruction fault (R187, R214). It issues in the first cycle after the last issue in which the scalar unit is free (R130). -/
def Obligations.NopOnlyAdvances : Prop :=
  (∀ (c : Nat) (s : State), let w := wordOf 0x01 0; let u := s.atIssue c w; let k := u.core c
    Issues c w s → ∃ k', exec (.nop c 0) s = .next (u.setCore c k') ∧ OnlyAdvanced k k' ∧ k'.cycle = max (k.cycle + 1) (k.unitAt 0) ∧
      k'.unitAt 0 = k'.cycle + 1) ∧
  (∀ (c : Nat) (body : BitVec 56) (s : State), let w := wordOf 0x01 body
    Issues c w s → body ≠ 0 → exec (.nop c body) s = .next ((s.atIssue c w).illegal c w))

/-- LOOP, where none of R185's conditions forbids it: COUNT 0 goes on behind the body with the same loops; else the body's first word
follows, and a new innermost level holds the body's bounds and COUNT. A word that is not the last of a body is followed by the next word; the
last of a body goes back to its first word while trips are left, and after the last trip falls to the loop around it (R185). -/
def Obligations.LoopsRepeat : Prop :=
  (∀ (c : Nat) (body : BitVec 56) (s : State), let w := wordOf 0x02 body; let u := s.atIssue c w; let k := u.core c
      Issues c w s → loopBad k w = false →
      ∃ k', exec (.loop c body) s = .next (u.setCore c k') ∧
        (fld w 31 0 = 0 → k'.pc = k.pc + fld w 45 32 + 1 ∧ k'.loops = k.loops) ∧
        (fld w 31 0 ≠ 0 → k'.pc = k.pc + 1 ∧
          k'.loops = { lstart := k.pc + 1, lend := k.pc + fld w 45 32, left := fld w 31 0 } :: k.loops) ∧
        GKept k k' ∧ VKept k k' ∧ FlagsKept k k' ∧ TensorKept k k' ∧ RestKept k k' ∧ k'.sl = k.sl ∧ k'.elem = k.elem) ∧
  (∀ a : Nat, loopNext a [] = (a + 1, [])) ∧
  (∀ (a : Nat) (l : Loop) (ls : List Loop), a ≠ l.lend → loopNext a (l :: ls) = (a + 1, l :: ls)) ∧
  (∀ (a : Nat) (l : Loop) (ls : List Loop), a = l.lend → 2 ≤ l.left →
    loopNext a (l :: ls) = (l.lstart, { l with left := l.left - 1 } :: ls)) ∧
  (∀ (a : Nat) (l : Loop) (ls : List Loop), a = l.lend → l.left = 1 → loopNext a (l :: ls) = loopNext a ls)

/-- R186: ENDF issues like any other instruction and the loop rule fixes the next word; as the last word of a body with trips left, the
next frame resumes at the body's first word. It retires once every access of its core is made, every unit has finished and every reply slot is free (R173); the cycle
that it retires in is the model's choice (log entry 109). -/
def Obligations.EndfThenRetires : Prop :=
  (∀ (c : Nat) (s : State), let w := wordOf 0x03 0; let u := s.atIssue c w; let k := u.core c
    Issues c w s →
    ∃ k', exec (.endf c 0) s = .next (u.setCore c k') ∧ Advanced k k' ∧ k'.mode = .draining ∧ GKept k k' ∧
      VKept k k' ∧ FlagsKept k k' ∧ TensorKept k k' ∧
      (∀ l ls, k.loops = l :: ls → k.pc = l.lend → 2 ≤ l.left → k'.pc = l.lstart)) ∧
  (∀ (c : Nat) (s : State), let u := s.runCore c; let k := u.core c
    k.mode = .draining → k.slots = [] → s.clockHeld c = false → k.retireAt < k.limit →
    exec (.endfRetire c) s = .next (u.setCore c { k with mode := .gated, cycle := k.retireAt })) ∧
  (∀ (c : Nat) (s : State), (∀ d, d / 8 = c / 8 → (s.core d).timing.jobs = []) → s.runCore c = s) ∧
  (∀ (c : Nat) (s : State), ((s.runCore c).core c).slots ≠ [] → exec (.endfRetire c) s = .next s)

/-- R187: SLOT sets SL to the smaller of g[GA], unsigned, and 65,535; WAIT goes on when c[CTR], counting the increments landed in earlier cycles, is at
least VALUE, and else waits until the counter is; the next instruction then issues after the cycle in which it is (R171). -/
def Obligations.SlotAndWait : Prop :=
  (∀ (c : Nat) (body : BitVec 56) (s : State), let w := wordOf 0x04 body; let u := s.atIssue c w; let k := u.core c
    Issues c w s → fld w 55 43 = 0 → fld w 37 0 = 0 →
    ∃ k', exec (.slot c body) s = .next (u.setCore c k') ∧ k'.sl.toNat = min (k.greg (fld w 42 38)).toNat 65535 ∧
      Advanced k k' ∧ GKept k k' ∧ VKept k k' ∧ FlagsKept k k' ∧ TensorKept k k' ∧ RestKept k k' ∧ k'.elem = k.elem) ∧
  (∀ (c : Nat) (body : BitVec 56) (s : State), let w := wordOf 0x05 body; let u := s.atIssue c w; let k := u.core c
    Issues c w s → fld w 51 32 = 0 →
    ∃ k', exec (.wait c body) s = .next (u.setCore c k') ∧ Advanced k k' ∧ GKept k k' ∧ VKept k k' ∧ k'.ctr = k.ctr ∧ k'.cycle = k.cycle + 1 ∧
      k'.mode = (if fld w 31 0 ≤ k.landedBy (fld w 55 52) k'.cycle then .running else .waiting (fld w 55 52) (fld w 31 0))) ∧
  (∀ (c r v x : Nat) (s : State), let k := s.core c
    c < 2304 → s.clockHeld c = false → k.mode = .waiting r v → k.cycle ≤ x → v ≤ k.landedBy r x → (∀ y, k.cycle ≤ y → y < x → k.landedBy r y < v) →
    ∃ k', exec (.waitComplete c) s = .next (s.setCore c k') ∧ k'.mode = .running ∧ k'.pc = k.pc ∧ k'.ctr = k.ctr ∧ k'.cycle = x ∧
      GKept k k' ∧ VKept k k')

/-! ### Scalar instructions and system reads (05 R178, R188, R189) -/

/-- Both scalar forms write the function of Table 5.6 to g[GD] and nothing else; g0 stays 0. -/
def Obligations.ScalarForms : Prop :=
  (∀ (c : Nat) (body : BitVec 56) (s : State) (v : BitVec 64), let w := wordOf 0x10 body; let u := s.atIssue c w; let k := u.core c
    Issues c w s → fld w 32 0 = 0 → scalarFn false (fld w 55 48) (k.greg (fld w 42 38)) (k.greg (fld w 37 33)) = some v →
    ∃ k', exec (.scalarRegisterForm c body) s = .next (u.setCore c k') ∧ WritesG k k' (fld w 47 43) v) ∧
  (∀ (c : Nat) (body : BitVec 56) (s : State) (v : BitVec 64), let w := wordOf 0x11 body; let u := s.atIssue c w; let k := u.core c
    Issues c w s → fld w 37 32 = 0 → ((fld w 55 48 = 5 ∨ fld w 55 48 = 6 ∨ fld w 55 48 = 7) → fld w 31 6 = 0) →
    scalarFn true (fld w 55 48) (k.greg (fld w 42 38)) ((BitVec.ofNat 32 (fld w 31 0)).signExtend 64) = some v →
    ∃ k', exec (.scalarImmediateForm c body) s = .next (u.setCore c k') ∧ WritesG k k' (fld w 47 43) v)

/-- Each system read writes its value to g[GD] and nothing else: the die's timebase, the frame index, the issue cycle, the core index, the
status word, a counter without the increments of the issue cycle or later (Table 5.7). CLRST clears each of NV, OF and WR for which g[GA] holds a 1 and keeps the others (R178). -/
def Obligations.SystemRegisterAccess : Prop :=
  (∀ (c : Nat) (body : BitVec 48) (s : State), let u := fun fn => s.atIssue c (sysWord fn body); let k := fun fn => (u fn).core c
      let gd := fun fn => fld (sysWord fn body) 47 43
      (Issues c (sysWord 0 body) s → sysBad (sysWord 0 body) = false →
        ∃ k', exec (.rdtb c body) s = .next ((u 0).setCore c k') ∧
          WritesG (k 0) k' (gd 0) (BitVec.ofInt 64 (((u 0).now : Int) + ((u 0).dieClock ((u 0).siteOf (c / 16))).offsetAt (u 0).now))) ∧
      (Issues c (sysWord 1 body) s → sysBad (sysWord 1 body) = false →
        ∃ k', exec (.rdfi c body) s = .next ((u 1).setCore c k') ∧ WritesG (k 1) k' (gd 1) (BitVec.ofNat 64 (k 1).frame)) ∧
      (Issues c (sysWord 2 body) s → sysBad (sysWord 2 body) = false →
        ∃ k', exec (.rdcyc c body) s = .next ((u 2).setCore c k') ∧ WritesG (k 2) k' (gd 2) (BitVec.ofNat 64 k'.cycle) ∧ (k 2).cycle < k'.cycle) ∧
      (Issues c (sysWord 3 body) s → sysBad (sysWord 3 body) = false →
        ∃ k', exec (.rdid c body) s = .next ((u 3).setCore c k') ∧ WritesG (k 3) k' (gd 3) (BitVec.ofNat 64 c)) ∧
      (Issues c (sysWord 4 body) s → sysBad (sysWord 4 body) = false →
        ∃ k', exec (.rdst c body) s = .next ((u 4).setCore c k') ∧ WritesG (k 4) k' (gd 4) (k 4).statusWord ∧ (k 4).timing.convDone ≤ k'.cycle) ∧
      (Issues c (sysWord 6 body) s → sysBad (sysWord 6 body) = false →
        ∃ k', exec (.rdctr c body) s = .next ((u 6).setCore c k') ∧
          WritesG (k 6) k' (gd 6) (BitVec.ofNat 64 ((k 6).landedBy (fld (sysWord 6 body) 35 32) k'.cycle)))) ∧
  (∀ (c : Nat) (body : BitVec 48) (s : State), let w := sysWord 5 body; let u := s.atIssue c w; let k := u.core c; let a := k.greg (fld w 42 38)
      Issues c w s → sysBad w = false →
      ∃ k', exec (.clrst c body) s = .next (u.setCore c k') ∧
        k'.nv = (k.nv && !a.getLsbD 0) ∧ k'.of = (k.of && !a.getLsbD 1) ∧ k'.wr = (k.wr && !a.getLsbD 2) ∧
        Advanced k k' ∧ GKept k k' ∧ VKept k k' ∧ TensorKept k k' ∧ RestKept k k' ∧ k'.sl = k.sl ∧ k'.elem = k.elem)

/-! ### Tensor engine and output stage (04 R141 to R162; 05 R191 to R197) -/

/-- A TWLOAD whose word and rows are legal reads the rows it names one per cycle from its issue cycle on, values, then metadata, then scales, and
leaves every register and both buffers alone until then; the buffer is usable 4 cycles after the last (R141, R192). Its end fills the named buffer with
the rows as they were read, and leaves the other alone (R142, R191). -/
def Obligations.TwloadFillsBuffer : Prop :=
  (∀ (c : Nat) (body : BitVec 56) (s : State), let w := wordOf 0x20 body; let u := s.atIssue c w; let k := u.core c
    let sp := fld w 50 50 == 1; let sc := fld w 49 49 == 1; let cls := classOf (fld w 54 51)
    let nm := metaRowCount cls sp; let ns := scaleRowCount cls sp sc; let wb := fld w 48 36; let wm := fld w 35 23; let ws := fld w 22 10
    Issues c w s → twloadBad w = false → wb + 16 ≤ 8192 → (sp = true → wm + nm ≤ 8192) → (sc = true → ws + ns ≤ 8192) →
    ∃ k' j, exec (.twload c body) s = .next (u.setCore c k') ∧ OnlyAdvanced k k' ∧ k'.timing.jobs = k.timing.jobs ++ [j] ∧
      j.unit = 1 ∧ j.word = w ∧ j.acts.length = 16 + nm + ns ∧
      (∀ i a, j.acts[i]? = some a → a.cyc = k'.cycle + i ∧ a.write = false ∧ a.cluster = false ∧ a.key = i ∧
        a.row = if i < 16 then wb + i else if i < 16 + nm then wm + (i - 16) else ws + (i - 16 - nm)) ∧
      tget 0 k'.timing.bufUsable (fld w 55 55) = k'.cycle + (16 + nm + ns) + 4) ∧
  (∀ (k : Core) (j : Job) (x : Nat), let w := j.word; let sp := fld w 50 50 == 1; let sc := fld w 49 49 == 1; let cls := classOf (fld w 54 51)
    let nm := metaRowCount cls sp; let ns := scaleRowCount cls sp sc; let k' := k.jobDone j x
    j.unit = 1 →
    k'.wbuf (fld w 55 55 == 1) = WBuf.record { valid := true, fmt := fld w 54 51, sparse := sp, scaled := sc, values := (List.range 16).flatMap j.row, metaRows := (List.range nm).flatMap (fun i => j.row (16 + i)), scales := (List.range ns).flatMap (fun i => j.row (16 + nm + i)), bad := (List.range (16 + nm + ns)).any j.rowBad } ∧
      k'.wbuf (!(fld w 55 55 == 1)) = k.wbuf (!(fld w 55 55 == 1)) ∧ k'.acc = k.acc ∧ k'.accValid = k.accValid ∧ k'.pc = k.pc ∧
      GKept k k' ∧ VKept k k' ∧ FlagsKept k k' ∧ RestKept k k' ∧ k'.sl = k.sl ∧ k'.elem = k.elem)

/-- A TMAC whose word, pair and rows are legal reads its activation rows on the schedule of R228, row s of group q in cycle t + qP + s, and its half is
complete M + 11 cycles after its issue (R146). Its end writes M accumulator rows from ACC on, in order, each from its activation row and the buffer as it
was, and leaves every register, flag and buffer alone (R193, R194). -/
def Obligations.TmacAccumulates : Prop :=
  (∀ (c : Nat) (body : BitVec 56) (s : State) (isInt : Bool), let w := wordOf 0x21 body; let u := s.atIssue c w; let k := u.core c
    let o := tmacOp w (k.greg (fld w 11 7)); let own := k.wbuf o.buf
    let b := if own.valid then own else impliedWeights o.afmt o.asc
    let segs := logicalK (pairClass o.afmt b.fmt) b.sparse / 64
    Issues c w s → tmacBad w = false → pairAcc o.afmt o.asc b.fmt b.scaled = some isInt → o.m ≠ 0 → tmacRangeBad o segs = false →
    ∃ k' j, exec (.tmac c body) s = .next (u.setCore c k') ∧ OnlyAdvanced k k' ∧ k'.timing.jobs = k.timing.jobs ++ [j] ∧
      j.unit = 2 ∧ j.word = w ∧ j.g0 = k.greg (fld w 11 7) ∧ j.wbuf = b ∧ j.sl = k.sl.toNat ∧ j.acts = tmacActs k'.cycle o segs ∧
      k'.cycle + o.m + 11 ≤ tget 0 k'.timing.halfDone (o.acc / 1024)) ∧
  (∀ (x q sg : Nat) (o : TmacOp) (segs : Nat), q * segPerRow o.afmt < o.m → sg < segs →
    ({ cyc := x + q * segPerRow o.afmt + sg, write := false, cluster := false, row := o.a + sg * o.stride + q, key := segKey q sg } : Act)
      ∈ tmacActs x o segs) ∧
  (∀ (k : Core) (j : Job) (x : Nat) (isInt : Bool), let o := tmacOp j.word j.g0; let k' := k.jobDone j x
    j.unit = 2 → pairAcc o.afmt o.asc j.wbuf.fmt j.wbuf.scaled = some isInt →
    (∀ m, m < o.m → (∀ n, n < 64 → k'.accElem (o.acc + m) n = (j.tmacRow k isInt o m).getD n 0) ∧ k'.accValid.contains (o.acc + m) = true) ∧
      (∀ r n, (r < o.acc ∨ o.acc + o.m ≤ r) → n < 64 → k'.accElem r n = k.accElem r n) ∧
      k'.wbuf0 = k.wbuf0 ∧ k'.wbuf1 = k.wbuf1 ∧ k'.pc = k.pc ∧
      GKept k k' ∧ VKept k k' ∧ FlagsKept k k' ∧ RestKept k k' ∧ k'.sl = k.sl ∧ k'.elem = k.elem) ∧
  (∀ (c : Nat) (body : BitVec 56) (s : State) (isInt : Bool), let w := wordOf 0x21 body; let u := s.atIssue c w; let k := u.core c
    let o := tmacOp w (k.greg (fld w 11 7)); let own := k.wbuf o.buf
    let b := if own.valid then own else impliedWeights o.afmt o.asc
    Issues c w s → tmacBad w = false → pairAcc o.afmt o.asc b.fmt b.scaled = some isInt → o.m = 0 →
    ∃ k', exec (.tmac c body) s = .next (u.setCore c k') ∧ OnlyAdvanced k k' ∧ k'.timing.jobs = k.timing.jobs ∧ k'.unitAt 2 = k'.cycle + 1)

/-- A TDRAIN whose word and rows are legal and that meets no resident row reads its registers at issue and writes each row of its value and scale
ranges 8 cycles after the last accumulator row that it holds is read, one accumulator row per cycle; under SR it advances the element counter by 64 a
row (R157 to R161, R195 to R197). A value row holds its drained rows' elements in order, a scale row their scales, zero beyond the last; a value row
sets the sticky bits that its conversions set. -/
def Obligations.TdrainWrites : Prop :=
  (∀ (c : Nat) (body : BitVec 56) (s : State), let w := wordOf 0x22 body; let u := s.atIssue c w; let k := u.core c
    let gp := fld w 8 5; let o := drainOp w (k.greg (2 * gp)) (k.greg (2 * gp + 1))
    Issues c w s → tdrainBad w = false → o.rows ≠ 0 → drainRangeBad o = false →
    (drainTargets o).any (fun r => u.residentLocked c r) = false →
    ∃ k' j, exec (.tdrain c body) s = .next (u.setCore c k') ∧ k'.timing.jobs = k.timing.jobs ++ [j] ∧
      j.unit = 3 ∧ j.word = w ∧ j.g0 = k.greg (2 * gp) ∧ j.g1 = k.greg (2 * gp + 1) ∧ j.elem = k.elem ∧ (∀ v, o.bias = some v → j.bytes = k.vreg v) ∧
      (∀ q, q * segPerRow o.dfmt < o.rows → ({ cyc := k'.cycle + min (q * segPerRow o.dfmt + segPerRow o.dfmt - 1) (o.rows - 1) + 8, write := true, cluster := false, row := o.dst + q, key := valueKey q } : Act) ∈ j.acts) ∧
      (∀ q, o.dsc = true → q * 256 < o.rows → ({ cyc := k'.cycle + min (256 * q + 255) (o.rows - 1) + 8, write := true, cluster := false, row := o.ds + q, key := drainScaleKey q } : Act) ∈ j.acts) ∧
      (∀ a ∈ j.acts, a.write = true → a.row ∈ drainTargets o) ∧
      k'.elem = (if o.rm = 4 then (k.elem + 64 * o.rows) % 2 ^ 32 else k.elem) ∧
      Advanced k k' ∧ GKept k k' ∧ VKept k k' ∧ FlagsKept k k' ∧ TensorKept k k' ∧ RestKept k k' ∧ k'.sl = k.sl) ∧
  (∀ (s : State) (c q : Nat) (j : Job), let o := drainOp j.word j.g0 j.g1
    let rs := fun per => ((List.range per).map (q * per + ·)).filter (fun i => decide (i < o.rows)); q < 65536 →
    (s.drainWrite c j (valueKey q)).1 = packRow o.dfmt ((rs (segPerRow o.dfmt)).flatMap (fun i => (s.drainRow c j o i).1)) ∧
    (s.drainWrite c j (drainScaleKey q)).1 = fitBytes 512 ((rs 256).flatMap (fun i => (s.drainRow c j o i).2.1.flatMap (toLE 1)))) ∧
  (∀ (s : State) (c i : Nat) (a : Act) (j : Job), let k := s.core c; let t := s.writeAct c i a; let fl := (s.jobWrite c j a.key).2.2
    k.timing.jobs[i]? = some j →
    t.readRow (a.addr c) = fitBytes 512 (s.jobWrite c j a.key).1 ∧ (t.core c).nv = (k.nv || fl.nv) ∧ (t.core c).of = (k.of || fl.of) ∧
      (t.core c).wr = (k.wr || fl.wr))

/-- R162: a TDRAIN that would write a resident row while the step state is RUNNING raises the protection fault before it writes any row. -/
def Obligations.TdrainProtected : Prop :=
  ∀ (c : Nat) (body : BitVec 56) (s : State), let w := wordOf 0x22 body; let u := s.atIssue c w; let k := u.core c
    let gp := fld w 8 5; let o := drainOp w (k.greg (2 * gp)) (k.greg (2 * gp + 1))
    Issues c w s → tdrainBad w = false → o.rows ≠ 0 → drainRangeBad o = false → s.isRunning = true →
    (∃ r ∈ drainTargets o, r < s.residentRows c) →
    ∃ t, exec (.tdrain c body) s = .next t ∧ t.mem = u.mem ∧ (t.core c).timing = k.timing ∧
      ∃ f ∈ t.step.faults, f.status = 0x111 ∧ f.core = c ∧ f.frame = k.frame

/-! ### The vector unit (05 R198 to R203) -/

/-- The lane operations of Table 5.10 and the functions of R200 write every lane of v[VD], each from the same lane of its operands, and
nothing else. VRED puts the reduction of v[VA] in lane 0 of v[VD] and +0 in every other lane. -/
def Obligations.VectorLanesAndReduction : Prop :=
  (∀ (c : Nat) (body : BitVec 56) (s : State) (r : List Byte)
      (opc : Nat), let u := s.atIssue c (wordOf opc body); let k := u.core c
      let o := fun opc => vecOp (wordOf opc body)
      (opc = 0x30 → Issues c (wordOf 0x30 body) s → vecRsv (wordOf 0x30 body) = false → (o 0x30).sat = false →
        laneOp 4 (floatLane 0 (o 0x30).fn) (k.vreg (o 0x30).va) (k.vreg (o 0x30).vb) (k.vreg (o 0x30).vc) = some r →
        ∃ k', exec (.vectorFp32 c body) s = .next (u.setCore c k') ∧ WritesV k k' (o 0x30).vd r) ∧
      (opc = 0x31 → Issues c (wordOf 0x31 body) s → vecRsv (wordOf 0x31 body) = false → (o 0x31).sat = false →
        laneOp 2 (floatLane 1 (o 0x31).fn) (k.vreg (o 0x31).va) (k.vreg (o 0x31).vb) (k.vreg (o 0x31).vc) = some r →
        ∃ k', exec (.vectorBf16 c body) s = .next (u.setCore c k') ∧ WritesV k k' (o 0x31).vd r) ∧
      (opc = 0x32 → Issues c (wordOf 0x32 body) s → vecRsv (wordOf 0x32 body) = false → ((o 0x32).sat = true → (o 0x32).fn ≤ 1) →
        laneOp 4 (intLane (o 0x32).fn (o 0x32).sat) (k.vreg (o 0x32).va) (k.vreg (o 0x32).vb) (k.vreg (o 0x32).vc) = some r →
        ∃ k', exec (.vectorInt32 c body) s = .next (u.setCore c k') ∧ WritesV k k' (o 0x32).vd r) ∧
      (opc = 0x34 → Issues c (wordOf 0x34 body) s → vecRsv (wordOf 0x34 body) = false → (o 0x34).sat = false →
        laneOp 4 (fun a _ _ => fnLane (o 0x34).fn a) (k.vreg (o 0x34).va) vZero vZero = some r →
        ∃ k', exec (.vectorFp32Functions c body) s = .next (u.setCore c k') ∧ WritesV k k' (o 0x34).vd r)) ∧
  (∀ (c : Nat) (body : BitVec 56) (s : State) (n v : Nat), let w := wordOf 0x35 body; let u := s.atIssue c w; let k := u.core c
      Issues c w s → vecRsv w = false → (vecOp w).sat = false → reduceLanes (vecOp w).fn (k.vreg (vecOp w).va) = some (n, v) →
      ∃ k', exec (.vred c body) s = .next (u.setCore c k') ∧ WritesV k k' (vecOp w).vd (toLE n v))

/-- A legal VCVT converts 64 elements: a widening one fills v[VD] with them; a narrowing one puts them at position POS of the pair
v[VD], v[VD + 1] and keeps the pair's other bytes. Its flags are sticky, and under SR the element counter advances by 64 (R201, R202). -/
def Obligations.VcvtConverts : Prop :=
  ∀ (c : Nat) (body : BitVec 56) (s : State), let w := wordOf 0x33 body; let u := s.atIssue c w; let k := u.core c; let o := cvtOp w
    let es := u.cvtElems c k o; let fl := es.foldl (fun a e => orFlags a e.2) {}
    let row := patchBytes (posByte o.dfmt o.pos) (packElems o.dfmt (es.map (·.1))) (k.vpair o.vd)
    Issues c w s → vcvtBad w = false →
    ∃ k', exec (.vcvt c body) s = .next (u.setCore c k') ∧
      (o.narrowing = false → ∀ j, k'.vreg j = if j = o.vd then fitBytes 256 ((es.map (·.1)).flatMap (toLE 4)) else k.vreg j) ∧
      (o.narrowing = true → ∀ j, k'.vreg j = if j = o.vd then fitBytes 256 (row.take 256)
        else if j = o.vd + 1 then fitBytes 256 (row.drop 256) else k.vreg j) ∧
      k'.nv = (k.nv || fl.nv) ∧ k'.of = (k.of || fl.of) ∧ k'.wr = (k.wr || fl.wr) ∧
      k'.elem = (if o.rm = 4 then (k.elem + 64) % 2 ^ 32 else k.elem) ∧
      Advanced k k' ∧ GKept k k' ∧ TensorKept k k' ∧ RestKept k k' ∧ k'.sl = k.sl

/-- VLD reads row ROW in its issue cycle, for v(2 VP) and v(2 VP + 1); VST writes the pair as it was at issue to row ROW 2 cycles later, or raises the
protection fault on a resident row while RUNNING; GETL copies the eight bytes of v[VA] at LANE into g[GD]; PUTL puts g[GA] there in v[VD] and keeps the
other bytes (R203, Table 4.5). Where no other unit of the cluster has an access to come, the VLD's pair and the VST's row are then as R203 says. -/
def Obligations.VectorMemoryAccess : Prop :=
  (∀ (c : Nat) (body : BitVec 56) (s : State), let w := wordOf 0x38 body; let u := s.atIssue c w; let k := u.core c
    let v := 2 * fld w 55 53; let r := fld w 52 40; let row := u.readRow (memRowAddr c r)
    Issues c w s → fld w 39 0 = 0 →
    ∃ k' j, exec (.vld c body) s = .next (u.setCore c k') ∧ OnlyAdvanced k k' ∧ k'.timing.jobs = k.timing.jobs ++ [j] ∧
      j.acts = [{ cyc := k'.cycle, write := false, cluster := false, row := r, key := 0 }] ∧ k'.vAt v = k'.cycle + 3 ∧
      ((∀ d, d / 8 = c / 8 → (u.core d).timing.jobs = []) →
        ∀ i, (((u.setCore c k').runCore c).core c).vreg i =
          if i = v then fitBytes 256 (row.take 256) else if i = v + 1 then fitBytes 256 (row.drop 256) else k.vreg i)) ∧
  (∀ (c : Nat) (body : BitVec 56) (s : State), let w := wordOf 0x39 body; let u := s.atIssue c w; let k := u.core c; let r := fld w 52 40
    Issues c w s → fld w 39 0 = 0 → u.residentLocked c r = false →
    ∃ k' j, exec (.vst c body) s = .next (u.setCore c k') ∧ OnlyAdvanced k k' ∧ k'.timing.jobs = k.timing.jobs ++ [j] ∧
      j.bytes = k.vpair (2 * fld w 55 53) ∧ j.acts = [{ cyc := k'.cycle + 2, write := true, cluster := false, row := r, key := 0 }] ∧
      ((∀ d, d / 8 = c / 8 → (u.core d).timing.jobs = []) →
        ((u.setCore c k').runCore c).readRow (memRowAddr c r) = fitBytes 512 (k.vpair (2 * fld w 55 53)) ∧
        ∀ a, a < memRowAddr c r ∨ memRowAddr c r + 512 ≤ a → readByte ((u.setCore c k').runCore c).mem a = readByte u.mem a)) ∧
  (∀ (c : Nat) (body : BitVec 56) (s : State), let w := wordOf 0x39 body; let u := s.atIssue c w
    Issues c w s → fld w 39 0 = 0 → u.residentLocked c (fld w 52 40) = true →
    ∃ t, exec (.vst c body) s = .next t ∧ t.mem = u.mem ∧ (t.core c).mode = .faulted ∧ (t.core c).timing = (u.core c).timing) ∧
  (∀ (c : Nat) (body : BitVec 56) (s : State), let w := wordOf 0x3A body; let u := s.atIssue c w; let k := u.core c
    Issues c w s → fld w 41 0 = 0 →
    ∃ k', exec (.getl c body) s = .next (u.setCore c k') ∧
      WritesG k k' (fld w 55 51) (BitVec.ofNat 64 (laneOf 8 (k.vreg (fld w 50 47)) (fld w 46 42)))) ∧
  (∀ (c : Nat) (body : BitVec 56) (s : State), let w := wordOf 0x3B body; let u := s.atIssue c w; let k := u.core c
    Issues c w s → fld w 41 0 = 0 →
    ∃ k', exec (.putl c body) s = .next (u.setCore c k') ∧
      WritesV k k' (fld w 50 47) (patchBytes (8 * fld w 46 42) (toLE 8 (k.greg (fld w 55 51)).toNat) (k.vreg (fld w 50 47))))

/-! ### Row copies, remote access and fabric instructions (05 R204 to R210) -/

/-- A legal ROWCP reads row i of its source in cycle t + i and writes it to its destination L cycles later with its poison mark, L 2 within the
scratchpad and else 4, and changes no register (R204, R229, R230). In a cycle in which one of its accesses yields it makes none, and moves by one
cycle (R229); whoever else yields moves by one cycle too (R227). -/
def Obligations.RowcpCopies : Prop :=
  (∀ (c : Nat) (body : BitVec 56) (s : State), let w := wordOf 0x40 body; let u := s.atIssue c w; let k := u.core c
    let sm := fld w 55 55; let dm := fld w 54 54; let sr := fld w 53 39; let dr := fld w 38 24; let n := fld w 23 10
    let l := if sm = 0 ∧ dm = 0 then 2 else 4
    Issues c w s → fld w 9 0 = 0 → 0 < n → n ≤ 8192 → sr + n ≤ copyRows sm → dr + n ≤ copyRows dm →
    (sm = dm → dr + n ≤ sr ∨ sr + n ≤ dr) → (List.range n).any (fun i => u.residentLocked (copyMem c dm) (dr + i)) = false →
    ∃ k' j, exec (.rowcp c body) s = .next (u.setCore c k') ∧ OnlyAdvanced k k' ∧ k'.timing.jobs = k.timing.jobs ++ [j] ∧ j.unit = 5 ∧
      (∀ a, a ∈ j.acts ↔ ∃ i, i < n ∧
        (a = { cyc := k'.cycle + i, write := false, cluster := sm == 1, row := sr + i, key := i } ∨
         a = { cyc := k'.cycle + i + l, write := true, cluster := dm == 1, row := dr + i, key := i })) ∧
      k'.unitAt 5 = k'.cycle + n + l) ∧
  (∀ (taken : List Nat) (c i x : Nat) (j : Job), let cl := claimOf taken c i j x
    (j.unit = 5 → cl.wins = [] ∨ cl.yields = []) ∧ (∀ a, a ∈ cl.wins ∨ a ∈ cl.yields ↔ a ∈ j.dueAt x)) ∧
  (∀ (j : Job) (x : Nat) (ys : List Act), j.unit ≠ 3 → ys ≠ [] →
    j.later x ys = (ys ++ j.after x).map (fun a => { a with cyc := a.cyc + 1 })) ∧
  (∀ (s : State) (c i : Nat) (a : Act) (j : Job), (s.core c).timing.jobs[i]? = some j → j.unit = 5 →
    (s.writeAct c i a).readRow (a.addr c) = fitBytes 512 (j.row a.key) ∧ (s.writeAct c i a).isPoisoned (a.addr c) = j.rowBad a.key)

/-- A legal RGET or RPUT takes the lowest free reply slot; RGET sends its request on its route, RPUT reads its row in the issue cycle (the model's choice, log
entry 109) and sends it. With all 16 slots in use, and none that a reply which has arrived frees, neither issues (R167, R205). -/
def Obligations.RemoteRequests : Prop :=
  (∀ (c : Nat) (body : BitVec 56) (s : State) (slot : Nat) (r : Route), let w := wordOf 0x48 body; let v := s.untilSlot c; let u := v.atIssue c w; let k := u.core c
    let addr := (k.greg (fld w 55 51)).toNat; let row := fld w 50 38
    Issues c w v → fld w 17 0 = 0 → k.freeSlot = some slot → addr % 512 = 0 → u.residentLocked c row = false → u.requestRoute c (fld w 33 18) = some r →
    ∃ k' p, exec (.rget c body) s = .next ((u.setCore c k').inject [p]) ∧
      k'.slots = tinsert slot (some { isGet := true, addr := addr, lrow := row, ctr := fld w 37 34, route := fld w 33 18, pc := k.pc, word := w }) k.slots ∧
      p.typ = 2 ∧ p.addr = addr ∧ p.tag = slot ∧ p.routeId = fld w 33 18 ∧ p.cls = 4 ∧ p.src = r.src ∧ p.dst = r.dst ∧ p.payload = [] ∧
      k'.timing.jobs = k.timing.jobs ∧
      Advanced k k' ∧ GKept k k' ∧ VKept k k' ∧ FlagsKept k k' ∧ TensorKept k k' ∧ k'.ctr = k.ctr ∧ k'.mode = k.mode) ∧
  (∀ (c : Nat) (body : BitVec 56) (s : State) (slot : Nat) (r : Route), let w := wordOf 0x49 body; let v := s.untilSlot c; let u := v.atIssue c w; let k := u.core c
    let addr := (k.greg (fld w 55 51)).toNat; let row := fld w 50 38
    Issues c w v → fld w 17 0 = 0 → k.freeSlot = some slot → addr % 512 = 0 → u.requestRoute c (fld w 33 18) = some r →
    ∃ k' p j, exec (.rput c body) s = .next (u.setCore c k') ∧
      k'.slots = tinsert slot (some { isGet := false, addr := addr, lrow := row, ctr := fld w 37 34, route := fld w 33 18, pc := k.pc, word := w }) k.slots ∧
      p.typ = 3 ∧ p.addr = addr ∧ p.tag = slot ∧ p.routeId = fld w 33 18 ∧ p.cls = 4 ∧ p.src = r.src ∧ p.dst = r.dst ∧
      k'.timing.jobs = k.timing.jobs ++ [j] ∧ j.packets = [p] ∧ j.acts = [{ cyc := k'.cycle, write := false, cluster := false, row := row, key := 0 }] ∧
      Advanced k k' ∧ GKept k k' ∧ VKept k k' ∧ FlagsKept k k' ∧ TensorKept k k' ∧ k'.ctr = k.ctr ∧ k'.mode = k.mode) ∧
  (∀ (c : Nat) (body : BitVec 56) (s : State), let w := wordOf 0x48 body; let v := s.untilSlot c; let u := v.atIssue c w
    Issues c w v → fld w 17 0 = 0 → (u.core c).freeSlot = none → exec (.rget c body) s = .next u) ∧
  (∀ (c : Nat) (body : BitVec 56) (s : State), let w := wordOf 0x49 body; let v := s.untilSlot c; let u := v.atIssue c w
    Issues c w v → fld w 17 0 = 0 → (u.core c).freeSlot = none → exec (.rput c body) s = .next u) ∧
  (∀ (c : Nat) (s : State), (s.core c).freeSlot.isSome = true → s.untilSlot c = s)

/-- The instruction of a row-sending opcode: SEND 0x50, MCROW 0x51, MCCOL 0x52, by the KIND of its route. -/
def sender (kind c : Nat) (body : BitVec 56) : Instr :=
  match kind with
  | 0 => .send c body
  | 1 => .mcrow c body
  | _ => .mccol c body

/-- A SEND, MCROW or MCCOL of N rows on a route of its kind reads row i 5i cycles after its issue and hands the router N row packets in order, the last
alone with LAST, from consecutive rows to consecutive rows; with N = 0 it hands out nothing (R168, R207, R211). A packet carries its row as it was read,
with its poison mark. -/
def Obligations.SendersSendRows : Prop :=
  (∀ (kind c : Nat) (body : BitVec 56) (s : State), kind < 3 → let w := wordOf (0x50 + kind) body; let u := s.atIssue c w; let k := u.core c
    let n := fld w 2 0; let sr := fld w 39 27; let dr := fld w 26 12
    Issues c w s →
    (n = 0 → ∃ k', exec (sender kind c body) s = .next (u.setCore c k') ∧ OnlyAdvanced k k' ∧ k'.timing.jobs = k.timing.jobs) ∧
    (∀ r, 0 < n → sr + n ≤ 8192 → dr + n ≤ copyRows (fld w 7 7) → u.sendRoute c (fld w 55 40) (some kind) = some r →
      ∃ k' j, exec (sender kind c body) s = .next (u.setCore c k') ∧ OnlyAdvanced k k' ∧ k'.timing.jobs = k.timing.jobs ++ [j] ∧
        j.packets.length = n ∧ k'.unitAt 7 = k'.cycle + 5 * n ∧
        (∀ i, j.acts[i]? = if i < n then some { cyc := k'.cycle + 5 * i, write := false, cluster := false, row := sr + i, key := i } else none) ∧
        ∀ i p, j.packets[i]? = some p → p.typ = 0 ∧ p.kind = kind ∧ p.routeId = fld w 55 40 ∧ p.drow = dr + i ∧ p.dcore = fld w 11 8 ∧
          p.dctr = fld w 6 3 ∧ p.last = decide (i + 1 = n) ∧ p.src = r.src ∧ p.dst = r.dst)) ∧
  (∀ (s : State) (c i : Nat) (a : Act) (j : Job) (p : Packet), (s.core c).timing.jobs[i]? = some j → j.packets[a.key]? = some p →
    (s.readAct c i a).fabric.packets = s.fabric.packets ++
      s.entering s.fabric.nextUid [{ p with payload := s.readRow (a.addr c), poison := s.isPoisoned (a.addr c) }])

/-- R208: at issue, a SEND, MCROW or MCCOL with N above 0 raises the address fault when SROW + N − 1 is above 8,191, and when DROW + N − 1
is above 8,191 with DM = 0 or above 32,767 with DM = 1. A die that receives a row aimed at a resident row while the step state is RUNNING
discards it and raises the protection fault against the sending core, which stops at once (R212, R215; that it stops before its next issue, and that the receiving die's
agent latches the fault too, are the model's choices: log entries 106 and 49). -/
def Obligations.SendAddressFault : Prop :=
  (∀ (kind c : Nat) (body : BitVec 56) (s : State), kind < 3 → let w := wordOf (0x50 + kind) body; let u := s.atIssue c w; let n := fld w 2 0
    Issues c w s → 0 < n →
    (8191 < fld w 39 27 + n - 1 ∨ (fld w 7 7 = 0 ∧ 8191 < fld w 26 12 + n - 1) ∨ (fld w 7 7 = 1 ∧ 32767 < fld w 26 12 + n - 1)) →
    exec (sender kind c body) s = .next (u.raiseCore c .address w ((u.core c).issueAt w))) ∧
  (∀ (i cyc d : Nat) (s : State) (p : Packet), let m := if p.dm = 0 then d * 16 + p.dcore else clusterMem (2 * d + p.dcore / 8)
    s.packet i = some p → s.ready i p = true → p.typ = 0 → p.place < 0x100 → s.dieAt p.place = some d → s.dieGone p.place = false →
    p.drow < s.residentRows m → s.isRunning = true → p.core < 2304 →
    ∃ t, exec (.rowDelivery i cyc) s = .next t ∧ t.mem = s.mem ∧ (t.core p.core).mode = .faulted ∧
      t.fabric = { s.fabric with packets := s.fabric.packets.eraseIdx i, refused := s.fabric.refused ++ [p] } ∧
      (tget none t.agents p.place).isSome = true ∧ ∃ f ∈ t.step.faults, f.status = 0x111 ∧ f.core = p.core)

/-- A legal REDSEND reads its row in the issue cycle (the model's choice, log entry 109) and hands it to its own router as the local input of the reduction; a legal SIG hands it one increment
packet on its route (R209, R210). -/
def Obligations.RedsendAndSig : Prop :=
  (∀ (c : Nat) (body : BitVec 56) (s : State), let w := wordOf 0x53 body; let u := s.atIssue c w; let k := u.core c; let sr := fld w 36 24
    Issues c w s → fld w 2 0 = 0 → (u.treeOf (c / 16) (fld w 55 40) (fld w 39 37)).isSome = true →
    ∃ k' j p, exec (.redsend c body) s = .next (u.setCore c k') ∧ OnlyAdvanced k k' ∧ k'.timing.jobs = k.timing.jobs ++ [j] ∧
      j.packets = [p] ∧ j.acts = [{ cyc := k'.cycle, write := false, cluster := false, row := sr, key := 0 }] ∧ k'.unitAt 7 = k'.cycle + 5 ∧
      p.typ = 7 ∧ p.routeId = fld w 55 40 ∧ p.plane = fld w 39 37 ∧ p.src = c / 16 ∧ p.dst = c / 16 ∧ p.drow = fld w 23 11 ∧
      p.dcore = fld w 10 7 ∧ p.dctr = fld w 6 3) ∧
  (∀ (c : Nat) (body : BitVec 56) (s : State) (r : Route), let w := wordOf 0x54 body; let u := s.atIssue c w; let k := u.core c
    Issues c w s → fld w 31 0 = 0 → u.sendRoute c (fld w 55 40) none = some r →
    ∃ k' p, exec (.sig c body) s = .next ((u.setCore c k').inject [p]) ∧ OnlyAdvanced k k' ∧
      p.typ = 1 ∧ p.kind = r.kind ∧ p.routeId = fld w 55 40 ∧ p.dcore = fld w 39 36 ∧ p.dctr = fld w 35 32 ∧ p.last = true ∧ p.payload = [])

/-- A core that reaches its frame-table entry without retiring ENDF raises a cycle-limit overrun, once a frame: it is latched where the core has no fault
yet, recorded with code 0x0110, and fails a running step with 0x0110 at that core and frame (R59, R215, R361); that it then issues nothing more is the model's reading
(log entry 56). Registers, memory and every other core
stay. While the coolant-loss response holds its clock a core overruns nothing, retires nothing and completes no wait (R445). -/
def Obligations.CycleLimitFailsStep : Prop :=
  ∀ (c : Nat) (s : State), let k := s.core c
    c < 2304 →
    (s.clockHeld c = true → exec (.cycleLimitOverrun c) s = .next s ∧ exec (.endfRetire c) s = .next s ∧ exec (.waitComplete c) s = .next s) ∧
    (s.clockHeld c = false → k.live = true → k.limit ≠ 0 → k.overran = false →
    ∃ t, exec (.cycleLimitOverrun c) s = .next t ∧ (t.core c).overran = true ∧ (t.core c).latch.isSome = true ∧ (t.core c).mode = .faulted ∧
      (t.core c).pc = k.pc ∧ GKept k (t.core c) ∧ VKept k (t.core c) ∧ (∀ d, d ≠ c → t.core d = s.core d) ∧ t.mem = s.mem ∧
      t.step.faults = (if s.isRunning then s.step.faults ++ [{ frame := k.frame, status := 0x110, core := c, detail := k.frame + c * 2 ^ 32 }]
        else s.step.faults) ∧
      t.units.errors.getLast?.map (fun e => (e.code, e.cls, e.frame)) = some (0x110, 2, k.frame))

/-! ### The query lane (09 R348, R353; Table 9.10) -/

/-- A query accepted with an aligned HOST_ADDR writes its block there and is answered in the same step with success and its length: INFO,
HEALTH_CONGESTION, HEALTH_PORTS, HEALTH_UNITS and HEALTH_SENSORS. Nothing but the slot, the command in flight, host memory, the frames that carry the block (the
model's frames, log entry 111) and the log changes. -/
def Obligations.ReportsAnswerAtOnce : Prop :=
  ∀ (slot : Nat) (s : State), let c := theCmd s slot; let t := s.takeSlot slot; let a := c.arg 0 8
    a % 64 = 0 →
    (Accepts slot 0x001 s → exec (.info slot) s = .next (reported t c a t.infoBlock t.infoBlock.length)) ∧
    (Accepts slot 0x402 s → exec (.healthCongestion slot) s = .next (reported t c a t.congestionMap t.congestionMap.length)) ∧
    (Accepts slot 0x403 s → exec (.healthPorts slot) s = .next (reported t c a ((List.range 64).flatMap (fun p => toLE 8 (t.portWord p))) 512)) ∧
    (Accepts slot 0x404 s → exec (.healthUnits slot) s = .next (reported t c a t.unitsBlock t.unitsBlock.length)) ∧
    (Accepts slot 0x405 s → exec (.healthSensors slot) s = .next (reported t c a t.sensorBlock 4872))

/-- HEALTH_ERRORS gives up to MAX error records, oldest first, and with CONSUME removes them (R487); ENVELOPE_REPORT gives up to MAX energy
records, newest first (R433). Each is answered with the number it gave, and its block goes in frames (the model's, log entry 111). -/
def Obligations.RecordQueries : Prop :=
  ∀ (slot : Nat) (s : State), let c := theCmd s slot; let t := s.takeSlot slot; let a := c.arg 0 8; let n := c.arg 8 4
    a % 64 = 0 →
    (Accepts slot 0x401 s → bitsOf (c.arg 12 4) 31 1 = 0 → let es := s.units.errors.take n
      exec (.healthErrors slot) s = .next (reported { t with units := { t.units with
        raised := false, errors := if (c.arg 12 4).testBit 0 then s.units.errors.drop n else s.units.errors } } c a (es.flatMap errBytes) es.length).noteOverflow) ∧
    (Accepts slot 0x501 s → n ≤ 1440 → c.arg 12 4 = 0 → let rs := s.power.records.reverse.take n
      exec (.envelopeReport slot) s = .next (reported t c a (rs.flatMap energyBytes) rs.length))

/-- READ answers with the committed value of its key in DETAIL and RESULT 8 (R381); CERT_READ gives the panel's chain, its identity certificate, which names its
serial, and the device CA's, 10,912 B (R502, R537); ATTEST writes a report of body, nonce among it, and identity block over the body's digest, and counts (R515).
Blocks go in frames (the model's, log entry 111). -/
def Obligations.ReadCertReadAttest : Prop :=
  (∀ (slot : Nat) (s : State), let c := theCmd s slot; let t := s.takeSlot slot
    Accepts slot 0x104 s → c.arg 8 8 % 64 = 0 → c.arg 4 4 = 0 → keyDefined (c.arg 0 4) = true →
    exec (.read slot) s = .next (answered t c 0 (s.setting (c.arg 0 4)) 8)) ∧
  (∀ (slot : Nat) (s : State), let c := theCmd s slot; let t := s.takeSlot slot
    Accepts slot 0x602 s → c.arg 0 8 % 64 = 0 → c.arg 12 4 = 0 → 10912 ≤ c.arg 8 4 →
    exec (.certRead slot) s = .next (reported t c (c.arg 0 8) s.chain 10912) ∧ s.chain.take 5456 = s.identityCert ∧
      s.chain.drop 5456 = fitBytes 5456 s.fuses.deviceCaCert ∧ (s.identityCert.drop 0x70).take 16 = fitBytes 16 s.fuses.panelSerial) ∧
  (∀ (slot : Nat) (s : State), let c := theCmd s slot; let t := s.takeSlot slot
      Accepts slot 0x601 s → c.arg 32 8 % 64 = 0 →
      let body := t.attestBody (c.payload.take 32); let block := body ++ t.identityBlock (digest64 body)
      exec (.attest slot) s = .next { reported { t with security := { t.security with
        attestSeq := (s.security.attestSeq + 1) % 2 ^ 32 } } c (c.arg 32 8) block block.length with free := s.free + 1 })

/-- A slot that fails a check of Table 9.8 is answered with the status of the first that fails in the table's order, and the command does nothing else (R347). Every
query with a HOST_ADDR that is no multiple of 64 is answered with 0x010A and the address field's offset, and writes nothing (R353); that this comes before the
reserved fields' check is the model's choice (log entry 105). -/
def Obligations.CommandChecks : Prop :=
  (∀ (slot : Nat) (s : State) (f : Nat × Nat × Nat), let c := s.slotCmd slot; let t := s.takeSlot slot
      s.acceptFail c (s.slotBytes slot) = some f →
      s.acceptSlot slot = { t with log := { t.log with waiting := s.log.waiting ++ [{ recOf s c f.1 f.2.1 0 with flags := f.2.2 }] } }) ∧
  (∀ (c : Cmd) (b : List Byte) (s : State), let rsv := nonZero b 0x12 0x20
      let checks : List (Bool × Nat × Nat × Nat) :=
        [(!opcodeDefined c.opcode, 0x102, 0, 0), (bitsOf c.flags 7 3 != 0, 0x102, 3, 0), (rsv != [], 0x102, rsv.headD 0, 0),
         (s.cmds.inflight.any (fun d => d.tag == c.tag), 0x109, 2, 2), (!lengthOk c.opcode c.len || (!c.indirect && decide (224 < c.len)), 0x108, 4, 0),
         (c.indirect && c.len != 0 && c.payAddr % 64 != 0, 0x10A, 8, 0), (c.indirect && decide (2 ^ 20 < c.len), 0x10A, 4, 0),
         (!c.indirect && c.payAddr != 0, 0x10A, 8, 0), (c.dest != 0xFFFF && !(s.isManager && relayable c.opcode), 0x20B, 0, 0),
         (c.dest != 0xFFFF && decide (s.groupCount ≤ c.dest), 0x108, 0x10, 0)]
      s.acceptFail c b = (checks.find? (·.1)).map (·.2)) ∧
  (∀ (slot op : Nat) (s : State), let c := theCmd s slot; let at_ := if op = 0x104 then 8 else if op = 0x601 then 32 else 0
      op ∈ [0x001, 0x104, 0x401, 0x402, 0x403, 0x404, 0x405, 0x501, 0x601, 0x602] →
      Accepts slot op s → c.arg at_ 8 % 64 ≠ 0 → s.acceptSlot slot = answered (s.takeSlot slot) c 0x10A (c.at at_) 0)

/-! ### Settings (10 R367 to R378) -/

/-- STAGE adds the entries it reads to the staged set, or to an empty one with CLEAR; a set that stays as it was keeps its proof. PROOF marks a set that passes
every check as proofed (R372, R374, R377). PROOF and COMMIT of an empty set complete at once, with success, and change no setting (Table 10.7). -/
def Obligations.StageAndProof : Prop :=
  (∀ (slot : Nat) (s : State), let c := theCmd s slot; let t := inLane s slot
    Accepts slot 0x101 s → LaneFree slot s → c.arg 0 8 % 64 = 0 → bitsOf (c.arg 12 4) 31 1 = 0 →
    let es := (s.readEntries (c.arg 0 8) (c.arg 8 4)).foldl stageEntry (if (c.arg 12 4).testBit 0 then [] else s.settings.staged)
    es.length ≤ 4096 →
    exec (.stage slot) s = .next (lanesOn (answered { t with settings := { t.settings with
      staged := es, proofed := s.settings.proofed && es == s.settings.staged } } c 0 0 es.length))) ∧
  (∀ (slot : Nat) (s : State), let c := theCmd s slot; let t := inLane s slot
    Accepts slot 0x102 s → LaneFree slot s → s.settings.staged ≠ [] → t.proofFails s.settings.staged = none →
    exec (.proof slot) s = .next (lanesOn (answered { t with settings := { t.settings with proofed := true } } c 0 0 0))) ∧
  (∀ (slot : Nat) (s : State), let c := theCmd s slot; let t := inLane s slot
    LaneFree slot s → s.settings.staged = [] →
    (Accepts slot 0x102 s → exec (.proof slot) s = .next (lanesOn (answered t c 0 0 0))) ∧
    (Accepts slot 0x103 s → exec (.commit slot) s = .next (lanesOn (answered t c 0 0 0))))

/-- A COMMIT of a staged set that passes, for a time that is not too early, empties the staged set and fixes the first frame tick from then
on, at which the set takes effect; it is not answered before. Before the first tick the set takes effect at once (R377, R378, R539). -/
def Obligations.CommitFixesTick : Prop :=
  ∀ (slot : Nat) (s : State), let c := theCmd s slot; let t := inLane s slot; let es := s.settings.staged
    Accepts slot 0x103 s → LaneFree slot s → es ≠ [] → (s.settings.proofed = true ∨ t.proofFails es = none) →
    (s.boot.firstTick = true → (c.arg 0 8 = 0 ∨ t.earliestCommit es ≤ c.arg 0 8) →
      ∃ x, exec (.commit slot) s = .next (lanesOn x) ∧ x.settings.staged = [] ∧ x.settings.committed = s.settings.committed ∧
        x.settings.pendingCommit = some { entries := es, tick := max (c.arg 0 8) (t.earliestCommit es), tag := some c.tag } ∧
        x.log.waiting = s.log.waiting ∧ x.mem = s.mem ∧ x.step = s.step) ∧
    (s.boot.firstTick = false →
      exec (.commit slot) s = .next (lanesOn (answered
        (State.applySettings { t with settings := { t.settings with staged := [], proofed := false } } es) c 0 0 0)))

/-! ### Plans and steps (02 R64 to R71, R85) -/

/-- A PLAN_LOAD whose image passes every check of Table 2.11 puts the plan in force: the step is IDLE, each core that the image gives one
program holds it at word 0 with every register 0, and a core with none holds nothing (R85); it is answered at the next frame tick (the model's choice, log entry 122),
unless the coolant-loss response ends it before: then with 0x020C, no plan in force and the alias table kept (R450, Table 13.4). One that fails is answered with the status and
DETAIL of the first failing check, and changes nothing else but that a security refusal makes its error record (R482). The manager of a group whose slots have all
joined sends every other slot its image and awaits the outcomes (R332); how a group's images lie behind one another, and the slot that a record names where none is at
fault, are the model's choices (log entries 23 and 125). -/
def Obligations.PlanLoads : Prop :=
  (∀ (slot : Nat) (s : State), let c := theCmd s slot; let t := inLane s slot; let img := s.hostBytes (c.arg 0 8) (c.arg 8 8)
    Accepts slot 0x201 s → LaneFree slot s → t.loadGate = 0 → c.arg 0 8 % 64 = 0 → t.leads = false →
    ∃ x, exec (.planLoad slot) s = .next (lanesOn x) ∧
      (t.planChecks img = none → x.plan = some (planOf img) ∧ x.aliases = newAliases s.aliases (planOf img) ∧
        x.step.state = .idle ∧ x.step.faults = [] ∧
        (∀ p, (programsOf img).filter (fun q => q.1 == p.1) = [p] → x.core p.1 = { prog := p.2 }) ∧
        (∀ d, (∀ q ∈ programsOf img, q.1 ≠ d) → x.core d = {}) ∧ x.settings = s.settings ∧
        x.cmds.loading = some c.tag ∧ x.log.waiting = s.log.waiting) ∧
      (∀ f, t.planChecks img = some f → x = answered (t.noteRefusal f.1) c f.1 f.2 0)) ∧
  (∀ (slot : Nat) (s : State), let c := theCmd s slot; let t := inLane s slot
    let imgs := splitImages t.groupCount (s.hostBytes (c.arg 0 8) (c.arg 8 8)); let own := imgs.getD t.groupSlot []
    Accepts slot 0x201 s → LaneFree slot s → t.loadGate = 0 → c.arg 0 8 % 64 = 0 → t.leads = true → t.allJoined = true →
    ∃ x, exec (.planLoad slot) s = .next (lanesOn x) ∧
      (t.planChecks own = none → x.plan = some (planOf own) ∧ x.group.loadWait = some (c.tag, []) ∧
        (∀ g, g < t.groupCount → g ≠ t.groupSlot → ∃ slots, g ∈ slots ∧ GroupMsg.planImage slots (imgs.getD g []) ∈ x.group.sent)) ∧
      (∀ f, t.planChecks own = some f → let u := t.noteRefusal f.1
        x = { u with log := { u.log with waiting := u.log.waiting ++ [{ recOf u c f.1 f.2 0 with slot := t.groupSlot }] } })) ∧
  (∀ (tag : Nat) (c : Cmd) (s : State), s.cmds.loading = some tag → s.cmdOf tag = some c →
    s.finishLoad = answered { s with cmds := { s.cmds with loading := none } } c 0 0 0 ∧
    ∃ r, s.stopLoad.log.waiting = s.log.waiting ++ [r] ∧ r.tag = c.tag ∧ r.status = 0x20C ∧ s.stopLoad.cmds.loading = none ∧ s.stopLoad.plan = none ∧
      s.stopLoad.aliases = s.aliases) ∧
  (∀ s : State, s.cmds.loading = none → s.finishLoad = s)

/-- A STEP_START that passes every check of R65 makes the step RUNNING with the index, descriptors and FRAME_BASE = STEP_INDEX × FRAMES of
its command; STEP_REPLAY runs the same step again as a replay. The transfers of the step's inputs join those that run (R67). Neither command is answered before the run
ends, and no memory changes. -/
def Obligations.StepStartsAndReplays : Prop :=
  (∀ (slot : Nat) (s : State) (p : Plan), let c := theCmd s slot; let t := inLane s slot
    Accepts slot 0x202 s → LaneFree slot s → t.startFail c = none → s.plan = some p →
    ∃ x, exec (.stepStart slot) s = .next (lanesOn x) ∧ x.step.state = .running ∧ x.step.phase = .inputs ∧ x.step.stepIndex = c.arg 8 8 ∧
      x.step.frameBase = c.arg 8 8 * p.frames % 2 ^ 64 ∧ x.step.inputs = (descrs c).take (c.arg 0x14 2) ∧
      x.step.outputs = (descrs c).drop (c.arg 0x14 2) ∧ x.step.autoCommit = (c.arg 0x10 4).testBit 0 ∧ x.step.replay = false ∧
      x.step.faults = [] ∧ x.group.window = none ∧ x.mem = s.mem ∧ x.cores = s.cores ∧ x.log.waiting = s.log.waiting ∧
      x.cmds.xfers = s.cmds.xfers ++ ((List.range x.step.inputs.length).zip x.step.inputs).flatMap (fun d => x.stepXfer true d.1 d.2)) ∧
  (∀ (slot : Nat) (s : State) (p : Plan), let c := theCmd s slot; let t := inLane s slot
    Accepts slot 0x204 s → LaneFree slot s → t.gate false = 0 → (t.shownState = .awaitCommit ∨ t.shownState = .failed) → s.plan = some p →
    c.arg 0 8 = s.step.stepIndex → (t.runConditions p).1 = 0 → t.lastChecks p = 0 →
    ∃ x, exec (.stepReplay slot) s = .next (lanesOn x) ∧ x.step.state = .running ∧ x.step.replay = true ∧
      x.step.stepIndex = s.step.stepIndex ∧ x.step.frameBase = s.step.frameBase ∧ x.step.inputs = s.step.inputs ∧
      x.step.outputs = s.step.outputs ∧ x.step.faults = [] ∧ x.mem = s.mem ∧ x.cores = s.cores ∧ x.log.waiting = s.log.waiting ∧
      x.cmds.xfers = s.cmds.xfers ++ ((List.range s.step.inputs.length).zip s.step.inputs).flatMap (fun d => x.stepXfer true d.1 d.2))

/-- A STEP_COMMIT of the completed step, named by its index, fixes the tick of the flip and is not answered before it; any other index is
refused with 0x0107, and other step states with the status that Table 2.5 gives (R69). -/
def Obligations.StepCommitFixesFlip : Prop :=
  ∀ (slot : Nat) (s : State), let c := theCmd s slot; let t := inLane s slot
    Accepts slot 0x203 s → LaneFree slot s → t.gate true = 0 →
    (t.shownState = .awaitCommit → c.arg 0 8 = s.step.stepIndex →
      ∃ x, exec (.stepCommit slot) s = .next (lanesOn x) ∧ x.step = { s.step with flip := some t.flipBound, flipTag := some c.tag } ∧
        x.aliases = s.aliases ∧ x.mem = s.mem ∧ x.log.waiting = s.log.waiting) ∧
    (t.shownState = .awaitCommit → c.arg 0 8 ≠ s.step.stepIndex →
      exec (.stepCommit slot) s = .next (lanesOn (answered t c 0x107 (c.at 0) 0))) ∧
    (∀ st, t.shownState = st → st ≠ .awaitCommit →
      exec (.stepCommit slot) s = .next (lanesOn (answered t c
        (match st with | .noPlan => 0x204 | .running => 0x203 | _ => 0x209) 0 0)))

/-! ### Security commands (16 R505 to R514) -/

/-- KEY_ADD with no reserved encoding changes the policy, its counter 1 higher, only when the required signer signed it (R511), and the new policy is signed with the
identity key (R509). DEBUG_UNLOCK with
SCOPE 0 locks the port and ends a debug halt (the model's choice, log entry 115); with another scope it opens the port when the required signer signed it (R513, R514). Each
else is refused with 0x0503, and a security refusal makes an error record of CLASS 2 (R482). FW_UPDATE with an image that passes R506 copies A into B and puts the image in A,
whose writing is under way; any other image is refused with the status of the first check that fails (R507). That IMAGE_ADDR needs no alignment and stands in DETAIL of
0x0101 is the model's reading (log entry 59), and so is the form of a policy's signed bytes (log entry 52). -/
def Obligations.SignedCommands : Prop :=
  (∀ (slot : Nat) (s : State), let c := theCmd s slot; let t := inLane s slot; let p := s.security.policy.apply c.payload
      Accepts slot 0x603 s → LaneFree slot s → keyAddBad c.payload = none →
      ∃ x, exec (.keyAdd slot) s = .next (lanesOn x) ∧
        (t.keyAddSigned c.payload = true →
          x.security.policy = t.signPolicy { p with policyCounter := (p.policyCounter + 1) % 2 ^ 64 } ∧ x.security.shippedUsed = false ∧ x.fuses = s.fuses ∧
          x.log.waiting = s.log.waiting ++ [recOf t c 0 0 0]) ∧
        (t.keyAddSigned c.payload = false → x = answered (t.noteRefusal 0x503) c 0x503 0 0)) ∧
  (∀ (slot : Nat) (s : State), let c := theCmd s slot; let t := inLane s slot
      Accepts slot 0x604 s → LaneFree slot s → unlockBad c = none →
      ∃ x, exec (.debugUnlock slot) s = .next (lanesOn x) ∧
        (c.arg 0 1 = 0 → x = answered { t with security := { t.security with debugScope := 0, halted := false } } c 0 0 0) ∧
        (c.arg 0 1 ≠ 0 → t.unlockSigned c = true → x.security.debugScope = c.arg 0 1 ∧
          x.security.policy.debugCounter = (s.security.policy.debugCounter + 1) % 2 ^ 64 ∧
          x.security.policy.owner = s.security.policy.owner ∧ x.log.waiting = s.log.waiting ++ [recOf t c 0 0 0]) ∧
        (c.arg 0 1 ≠ 0 → t.unlockSigned c = false → x = answered (t.noteRefusal 0x503) c 0x503 0 0)) ∧
  (∀ (slot : Nat) (s : State), let c := theCmd s slot; let t := inLane s slot; let img := s.hostBytes (c.arg 0 8) (c.arg 8 8)
      Accepts slot 0x605 s → LaneFree slot s →
      exec (.fwUpdate slot) s = .next (lanesOn (match t.imageFail img with
        | none => answered { t with flash := { t.flash with tolniB := s.flash.tolniA, tolniA := img, writing := some (.tolniA, s.now) } } c 0 0 0
        | some f => answered (t.noteRefusal f) c f (if f = 0x101 then c.at 0 else 0) 0))) ∧
  (∀ (status : Nat) (s : State), (status / 256 ≠ 5 → s.noteRefusal status = s) ∧
    (status / 256 = 5 → (s.noteRefusal status).units.errors.getLast?.map (fun e => (e.code, e.cls)) = some (status, 2)))

/-! ### Resets, ports and the window (08 R307, R336; 09 R351; 14 R475) -/

/-- COMPUTE_RESET with no reserved bit set is in flight until its run ends: its first frame tick is the next one, and RETAIN is kept (R475).
PANEL_RESET first completes every other command in flight with 0x020F, a transfer with the merged word of the pieces that have run, then makes its own record (R351,
R355). -/
def Obligations.ResetsBegin : Prop :=
  ∀ (slot : Nat) (s : State), let c := theCmd s slot; let t := inLane s slot
    LaneFree slot s →
    (Accepts slot 0x701 s → bitsOf (c.arg 0 4) 31 1 = 0 →
      exec (.computeReset slot) s = .next (lanesOn { t with boot := { t.boot with
        resetTag := some (c.tag, (c.arg 0 4).testBit 0), resetAt := some (s.now + 1) } })) ∧
    (Accepts slot 0x702 s → s.cmds.xfers = [] →
      let others := t.cmds.inflight.filter (fun d => d.seq != c.seq && !(s.log.waiting.any (fun r => r.seq == d.seq)))
      exec (.panelReset slot) s = .next { t with
        cmds := { t.cmds with xferQueue := [] }
        log := { t.log with waiting := s.log.waiting ++ others.map (fun d => recOf t d 0x20F 0 0) ++ [recOf t c 0 0 0] } }) ∧
    (Accepts slot 0x702 s →
      ∃ u rs, exec (.panelReset slot) s = .next u ∧ u.log.waiting = s.log.waiting ++ rs ++ [recOf t c 0 0 0] ∧ (∀ r ∈ rs, r.status = 0x20F) ∧
        (∀ d ∈ t.cmds.inflight, d.seq ≠ c.seq → ∃ r ∈ s.log.waiting ++ rs, r.seq = d.seq) ∧
        (∀ x ∈ s.cmds.xfers, x.ofStep = false → ∃ r ∈ rs, r.seq = x.cmd.seq ∧ r.tag = x.cmd.tag ∧
          r.xferWord = mergeWords (x.words ++ (x.pieces.filter (·.running)).map (fun p => (p.first, p.word)))) ∧ u.mem = s.mem ∧ u.hostMem = s.hostMem)

/-- ZL_RETRAIN starts training on each named port that may train, and is answered once every named port is settled (R307). WINDOW_OPEN
replaces the window by the range and slots it names; WINDOW_CLOSE leaves none (R336). -/
def Obligations.RetrainAndWindow : Prop :=
  ∀ (slot : Nat) (s : State), let c := theCmd s slot; let t := inLane s slot
    LaneFree slot s →
    (Accepts slot 0x801 s →
      let ps := (maskPorts (c.arg 0 8)).filter t.mayTrain
      exec (.zlRetrain slot) s = .next (lanesOn (State.settleRetrains (forEach ps (fun p s => s.startTraining p)
        { t with cmds := { t.cmds with retrainTags := s.cmds.retrainTags ++ [(c.tag, c.arg 0 8)] } })))) ∧
    (Accepts slot 0x802 s → t.windowFail c = none →
      exec (.windowOpen slot) s = .next (lanesOn (answered { t with group := { t.group with window := some {
        base := bitsOf (c.arg 0 8) 43 0, len := c.arg 8 8, slots := (List.range (c.arg 16 2)).map (fun i => c.arg (24 + 2 * i) 2) } } } c 0 0 0))) ∧
    (Accepts slot 0x803 s →
      exec (.windowClose slot) s = .next (lanesOn (answered { t with group := { t.group with window := none } } c 0 0 0)))

/-! ### Transfers (09 R354 to R356) -/

/-- DMA_WRITE and DMA_READ that pass Table 9.13 start as a transfer of their pieces, answered when the last has moved; with COUNT 0 they are
answered at once, with a transfer word that shows DONE (R354, R355). No memory changes as they start. One whose stacks are not ready waits (R463). -/
def Obligations.TransfersStart : Prop :=
  (∀ (slot : Nat) (s : State), let c := theCmd s slot; let t := s.takeSlot slot; let pf := c.arg 0x14 1 / 16; let n := c.arg 0x10 4
    Accepts slot 0x301 s → TransferFree s → t.stacksWait c = false → t.dmaFail c true = none →
    (n = 0 → exec (.dmaWrite slot) s = .next { t with log := { t.log with
      waiting := t.log.waiting ++ [{ recOf t c 0 0 0 with xferWord := xferWord false false false 0 }] } }) ∧
    (n ≠ 0 → exec (.dmaWrite slot) s = .next { t with cmds := { t.cmds with xfers := s.cmds.xfers ++ [
      { cmd := c, write := true, hostAddr := c.arg 0 8, panelAddr := c.arg 8 8, count := n, hfmt := c.arg 0x14 1 % 16, pfmt := pf,
        rm := c.arg 0x15 1 % 8, sat := (c.arg 0x15 1).testBit 3, pieces := t.piecesOf (c.arg 8 8) (unitsFor pf n) pf n, words := [],
        status := 0, detail := 0 }] } })) ∧
  (∀ (slot : Nat) (s : State), let c := theCmd s slot; let t := s.takeSlot slot; let pf := c.arg 0x14 1 / 16; let n := c.arg 0x10 4
    Accepts slot 0x302 s → TransferFree s → t.stacksWait c = false → t.dmaFail c false = none →
    (n = 0 → exec (.dmaRead slot) s = .next { t with log := { t.log with
      waiting := t.log.waiting ++ [{ recOf t c 0 0 0 with xferWord := xferWord false false false 0 }] } }) ∧
    (n ≠ 0 → exec (.dmaRead slot) s = .next { t with cmds := { t.cmds with xfers := s.cmds.xfers ++ [
      { cmd := c, write := false, hostAddr := c.arg 0 8, panelAddr := c.arg 8 8, count := n, hfmt := c.arg 0x14 1 % 16, pfmt := pf,
        rm := c.arg 0x15 1 % 8, sat := (c.arg 0x15 1).testBit 3, pieces := t.piecesOf (c.arg 8 8) (unitsFor pf n) pf n, words := [],
        status := 0, detail := 0 }] } })) ∧
  (∀ (slot op : Nat) (s : State), let c := theCmd s slot; let t := s.takeSlot slot
    Accepts slot op s → TransferFree s → op ∈ [0x301, 0x302, 0x804] → t.stacksWait c = true →
    s.acceptSlot slot = { t with cmds := { t.cmds with xferQueue := [s.slotCmd slot] } })

/-- A GROUP_COPY that passes its checks opens a copy to its slot, of one transfer for each 63 units begun, and is answered when every transfer is
acknowledged; with LENGTH 0 it is answered at once (R356). -/
def Obligations.GroupCopyOpens : Prop :=
  ∀ (slot : Nat) (s : State), let c := theCmd s slot; let t := s.takeSlot slot; let u := c.arg 16 8 / 512
    Accepts slot 0x804 s → TransferFree s → t.stacksWait c = false → t.copyFail c = none →
    (u = 0 → exec (.groupCopy slot) s = .next (answered t c 0 0 0)) ∧
    (u ≠ 0 → ∃ x opened, exec (.groupCopy slot) s = .next x ∧
      x.group.copies = s.group.copies ++ [{ tag := c.tag, slot := c.arg 24 2, opened := opened, acked := 0, refused := false }] ∧
      opened.length = (u + 62) / 63 ∧ (∀ i o, opened[i]? = some o → o.first = 63 * i ∧ o.units = min 63 (u - 63 * i) ∧ o.resends = 0) ∧
      x.mem = s.mem ∧ x.log.waiting = s.log.waiting)

/-- A piece of a transfer that may start takes a host channel, asks for its units at each arbiter on its way, and sends the HOST packet of its first unit; a
read's reply at the hub writes its unit to host memory, and after the last one the piece has moved. A piece that completes, once all its units have moved and are
granted, leaves the transfer, and the last one makes the command's record with the merged word (R236, R245, R260, R270, R288, R355; that one unit is under way
at a time is the model's choice, log entry 50, and so are the arbiters and the channel that a piece takes, log entry 96). A transfer of the step's own makes no record;
one that names a retired stack fails the step with 0x0404 (the model's choice, log entry 119). -/
def Obligations.PiecesMoveAndComplete : Prop :=
  (∀ (tag ch : Nat) (s : State) (x : Xfer) (p : Piece), s.xferOf tag = some x → x.pieces.find? (fun p => !p.running) = some p →
    s.host.linkUp = true → s.pieceReady p = true → s.stepHeld x = false → (s.pieceTest x p).1 = 0 → s.hostChannel (s.pieceIo p) = some ch →
    let r := (s.pieceRequests x p ch).askUnit x { p with running := true, word := xferWord false false false 0, chan := ch }
    ∃ q, exec (.hostPieceStart tag) s = .next (r.2.setXfer (x.withPiece r.1)) ∧ r.1.running = true ∧ r.1.chan = ch ∧ r.1.first = p.first ∧
      r.1.done = p.done ∧ r.2.fabric.packets = s.fabric.packets ++ [q] ∧ q.typ = 0xA ∧ q.src = hubPlace ∧ q.dst = ioPlace (s.pieceIo p) ∧
      q.addr = p.addr + 512 * p.done ∧ q.tag = tag ∧ (x.write = false → q.payload = [] ∧ r.1.word = xferWord false false false 0) ∧
      r.2.mem = s.mem ∧ r.2.hostMem = s.hostMem) ∧
  (∀ (i x : Nat) (s : State) (p : Packet) (f : Xfer) (q : Piece), let u := f.nextUnit q
    s.packet i = some p → p.typ = 0xA → s.ready i p = true → p.cls = 1 → p.place = hubPlace → s.cmds.xfers = [f] → f.cmd.tag = p.tag → f.pieces = [q] →
    q.running = true → q.first = p.msg → q.done + 1 = f.unitsOf q → q.addr + 512 * q.done = p.addr → f.write = false → p.fault = none → p.poison = false →
    ∃ t y, exec (.replyArrival i x) s = .next t ∧ t.fabric.packets = s.fabric.packets.eraseIdx i ∧ t.mem = s.mem ∧
      t.hostMem = writeBytes s.hostMem u.2.1 (fitBytes u.2.2 (packElems f.hfmt (convElems f.conv [] (fun _ => 0) (getElems f.pfmt p.payload 0 u.1)).1)) ∧
      t.cmds.xfers = [{ f with moved := f.moved + u.2.2, pieces := [y] }] ∧ y.done = f.unitsOf q ∧ y.running = true) ∧
  (∀ (tag : Nat) (s : State) (x : Xfer) (p : Piece), s.xferOf tag = some x → x.pieces = [p] → p.running = true → s.host.linkUp = true →
    x.unitsOf p ≤ p.done → s.granted (pieceKey tag p.first) = true →
    let u := { s with cmds := { s.cmds with xfers := s.cmds.xfers.filter (fun y => y.cmd.tag != x.cmd.tag) } }
    (x.ofStep = false → exec (.hostPieceComplete tag 0) s = .next { u with
      log := { s.log with waiting := s.log.waiting ++ [{ recOf s x.cmd x.status x.detail x.moved with
        xferWord := mergeWords (x.words ++ [(p.first, p.word)]) }] } }) ∧
    (x.ofStep = true → x.status ≠ 0x404 → exec (.hostPieceComplete tag 0) s = .next u) ∧
    (x.ofStep = true → x.status = 0x404 → s.isRunning = true →
      ∃ t, exec (.hostPieceComplete tag 0) s = .next t ∧ t.cmds = u.cmds ∧ t.units.seq = s.units.seq + 1 ∧
        t.step.faults = s.step.faults ++ [{ frame := s.step.frame, status := 0x404, core := 0xFFFF, detail := x.detail }])) ∧
  (∀ (tag i : Nat) (s : State) (x : Xfer) (p : Piece), s.xferOf tag = some x → x.pieces[i]? = some p → p.running = true → s.host.linkUp = true →
    x.unitsOf p ≤ p.done → s.granted (pieceKey tag p.first) = true → x.pieces.eraseIdx i ≠ [] →
    ∃ t, exec (.hostPieceComplete tag i) s = .next t ∧ t.log = s.log ∧ t.mem = s.mem ∧
      ∃ y ∈ t.cmds.xfers, y.cmd = x.cmd ∧ y.pieces = x.pieces.eraseIdx i ∧ y.words = x.words ++ [(p.first, p.word)])

/-! ### Host window, log and interrupts (09 R343 to R364) -/

/-- With the link up: a write of ENABLE sets it, clears LOST when it is 1 and restarts the record count when it goes from 0 to 1; a write of CONS sets
CONS (R358, R359). A slot write while OWN is 0 writes its bytes, and joins the order of acceptance when OWN is then 1; while OWN is 1 it is
discarded and sets OWNED_WRITE, but that in recovery the starter takes a rewrite of slot 0's first bytes (R464). An access that R343 refuses sets BAD_ACCESS, writes nothing, and as a read returns zero (R343, R346, R347). What a read returns goes in frames (the model's, log entry 111). -/
def Obligations.HostWindow : Prop :=
  (∀ (s : State), s.host.linkUp = true →
      (∀ v : Bool, exec (.logEnableWrite v) s = .next { s with log := { s.log with
        enable := v, lost := if v then 0 else s.log.lost, count := if v && !s.log.enable then 0 else s.log.count } }) ∧
      (∀ v : BitVec 32, exec (.consWrite v) s = .next { s with log := { s.log with cons := v } })) ∧
  (∀ (off : Nat) (bs : List Byte) (s : State), s.host.linkUp = true → s.accessOk true off bs.length = true →
    inSlots off bs.length = true →
    let slot := (off - 0x1000) / 256; let slots := writeBytes s.host.slots (off - 0x1000) bs
    (s.ownBit slot = false → exec (.hostWindowWrite true off bs) s = .next { s with host := { s.host with
      slots := slots, acceptQ := if (tget 0 slots (slot * 256 + 3)).getLsbD 0 then s.host.acceptQ ++ [slot] else s.host.acceptQ } }) ∧
    (s.ownBit slot = true → ¬(slot = 0 ∧ off + bs.length ≤ 0x1004 ∧ s.boot.recovery = true ∧ s.boot.running.contains (3, 0) = true) →
      exec (.hostWindowWrite true off bs) s = .next { s with host := { s.host with ownedWrite := true } }) ∧
    (s.ownBit slot = true → slot = 0 → off + bs.length ≤ 0x1004 → s.boot.recovery = true → s.boot.running.contains (3, 0) = true →
      ∃ t, exec (.hostWindowWrite true off bs) s = .next t ∧ t.host.slots = slots ∧ t.host.ownedWrite = s.host.ownedWrite ∧ t.boot.reread = true)) ∧
  (∀ (wr : Bool) (off : Nat) (bs : List Byte) (s : State), s.host.linkUp = true → s.accessOk wr off bs.length = false →
    exec (.hostWindowWrite wr off bs) s = .next { s with host := { s.host with
      badAccess := true, readData := if wr then s.host.readData else List.replicate bs.length 0 } }) ∧
  (∀ (off : Nat) (bs : List Byte) (s : State), s.host.linkUp = true → s.accessOk false off bs.length = true →
    exec (.hostWindowWrite false off bs) s =
      .next (State.sendHost { s with host := { s.host with readData := s.windowRead off bs.length } } (s.windowRead off bs.length)))

/-- With the log enabled, the link up and fewer than 4,096 records unread, the first waiting record is written at LOG_BASE + 32 × (count mod
4,096), the count goes up by 1 and is written to PROD_ADDR, and a command's flight ends (R348, R357, R358). An interrupt that is due names VECTOR
and covers every record written before it (R364). PANEL_RESET's own record brings the panel reset, with straps whose levels are free (R351; log entry 61). What the
panel sends goes in frames, kept for replay until they are acknowledged (R311, R339, R341; the model's frames, log entry 111). -/
def Obligations.RecordsAndInterrupts : Prop :=
  (∀ (s : State) (r : Rec) (rest : List Rec), s.log.waiting = r :: rest → s.log.enable = true → s.host.linkUp = true →
    (s.log.count - s.log.cons).toNat < 4096 → (r.opcode ≠ 0x702 ∨ r.status ≠ 0) →
    (s.writeRecord r).hostMem = writeBytes (writeBytes s.hostMem (s.log.base + 32 * (s.log.count.toNat % 4096)) (recBytes r)) s.log.prodAddr
        (toLE 8 (s.log.count + 1).toNat) ∧
    exec .completionRecordWrite s = .next { s.writeRecord r with
      log := { s.log with count := s.log.count + 1, waiting := rest },
      cmds := { s.cmds with inflight := s.cmds.inflight.filter (fun c => c.seq != r.seq) },
      irq := { s.irq with pendingLog := true, pendingFault := s.irq.pendingFault || r.fault,
                          unsignalled := s.irq.unsignalled ++ [(s.now, r.noIrq)], faultDue := s.irq.faultDue || r.fault } }) ∧
  (∀ s : State, s.irqDue = true → s.host.linkUp = true →
    exec .interruptMessage s = .next (State.sendHost { s with irq := { s.irq with
      sent := s.irq.sent ++ [s.irq.vector], unsignalled := [], faultDue := false } } (toLE 2 s.irq.vector))) ∧
  (∀ (s : State) (r : Rec) (rest : List Rec), s.log.waiting = r :: rest → s.log.enable = true → s.host.linkUp = true →
    (s.log.count - s.log.cons).toNat < 4096 → r.opcode = 0x702 → r.status = 0 → s.pins.pwrOk = true → s.pins.resetN = true → s.pins.shdnN = true →
    ∃ t, exec .completionRecordWrite s = .next t ∧ t.hostMem = (s.writeRecord r).hostMem ∧ t.boot.running = [(1, 0)] ∧
      t.straps = Config.strapPins s.free ∧ t.mem = [] ∧ t.fuses = s.fuses ∧ t.flash = { s.flash with writing := none }) ∧
  (∀ (a : Nat) (bs : List Byte) (s : State), let t := s.writeHost a bs
    t.hostMem = writeBytes s.hostMem a bs ∧ (s.host.linkUp = false → t.host = { s.host with out := s.host.out ++ hostFrames bs }))

/-! ### The fabric (05 R206 to R210; 06 R226, R232; 07 R261 to R293) -/

/-- In a cycle in which every branch of the packet at the head of its partition is eligible, its next flit leaves by all of them: a head flit makes the
packet's entry at each branch's end, 10 or 5 cycles on or at the local output at once, and a later flit joins it; with a payload error every copy is
poisoned. A bad header discards the packet: the event is counted against the lane charged, and a planned packet is lost. A corrected lane error is counted
against its lane. Only a packet that came by a link meets these errors; one from the local input goes on as it is. What is bound for a unit that may not be used is poisoned and goes no further (R258, R261, R272, R279, R292, R293, R387). A packet in transit that
is whole at the hub's local output joins what the hub receives, and it or a management packet for another panel, whole at its I/O die, goes into the egress buffers
(R260, R320). Memories and cores stay. Which lane an error of a header is charged to where no symbol was corrected, and the number that stands for a whole plane,
are the model's choices (log entries 113 and 18). -/
def Obligations.PacketsForward : Prop :=
  ∀ (i x : Nat) (lane : Option Nat) (s : State) (p : Packet), let s0 := s.enterLocal p x; let q := (s0.packet i).getD p; let s1 := s0.laneError q lane
    s.packet i = some p → p.isLocal = false → s0.atHead i q x = true →
    (s1.wayUsable q = true → s1.eligible i q x = true →
      ∃ t, exec (.fabricPacketArrival i x true true lane) s = .next t ∧ t.mem = s.mem ∧ t.cores = s.cores ∧ t.units = s1.units ∧
        (q.gone = 0 → ∀ b ∈ s1.hops q, (b.1 ≠ 0 ∨ q.typ < 9 ∨ q.typ = 0xA ∨ 1 < q.flits) → s1.landing q x b ∈ t.fabric.packets) ∧
        (q.gone ≠ 0 → ∀ j e, ∀ b ∈ s1.hops q, j ≠ i → s1.packet j = some e → (e.isLocal = false ∨ e.typ < 9 ∨ e.typ = 0xA) → e.uid = q.uid → e.place = (s1.along q b).place →
          e.isLocal = (s1.along q b).isLocal →
          ∃ f ∈ t.fabric.packets, f.uid = e.uid ∧ f.place = e.place ∧ f.isLocal = e.isLocal ∧ f.wait.length = e.wait.length + 1) ∧
        (∀ l, lane = some l → q.fromPort ≠ 0 →
          ∃ e ∈ t.units.counts, e.unit = linkLane q.place q.fromPort q.plane (l % 0x7FF) ∧ e.code = 0x1010)) ∧
    (let s2 := s1.poisonPacket i q;
      q.fromPort ≠ 0 → s2.wayUsable q = true → s2.eligible i q x = true →
      ∃ t, exec (.fabricPacketArrival i x true false lane) s = .next t ∧ t.mem = s.mem ∧ t.cores = s.cores ∧
        (q.gone = 0 → ∀ b ∈ s2.hops q, (b.1 ≠ 0 ∨ q.typ < 9 ∨ q.typ = 0xA ∨ 1 < q.flits) →
          ∃ e ∈ t.fabric.packets, e.uid = q.uid ∧ e.place = (s2.along q b).place ∧ e.poison = true)) ∧
    (q.flits = 1 → q.gone = 0 → s1.hops q = [(0, q.place, false)] → (∀ e ∈ s0.fabric.packets, e.uid = q.uid → e.isLocal = false) →
      s1.wayUsable q = true → s1.eligible i q x = true →
      (q.typ = 0xB → q.place = hubPlace → ∃ t, exec (.fabricPacketArrival i x true true lane) s = .next t ∧
        t.group.hubRx = s.group.hubRx ++ [q.bare] ∧ t.fabric.packets = s0.fabric.packets.eraseIdx i ∧ t.mem = s.mem ∧ t.cores = s.cores) ∧
      ((q.typ = 0xB ∨ (q.typ = 9 ∧ q.src ≠ hubPlace ∧ 0x1000 ≤ q.dst)) → 0x100 ≤ q.place → q.place ≠ hubPlace →
        ∃ u : State, exec (.fabricPacketArrival i x true true lane) s = .next (u.queueTx (q.place - 0x100) q.vc q.bare) ∧
          u.fabric.packets = s0.fabric.packets.eraseIdx i ∧ u.ioDies = s1.ioDies ∧ u.mem = s.mem ∧ u.cores = s.cores)) ∧
    (q.gone = 0 → q.fromPort ≠ 0 → ∀ ok, ∃ t, exec (.fabricPacketArrival i x false ok lane) s = .next t ∧ t.fabric.packets = s0.fabric.packets.eraseIdx i ∧
      t.fabric.lost = (if q.planned then s.fabric.lost ++ [q] else s.fabric.lost) ∧ t.mem = s.mem ∧ t.cores = s.cores ∧
      ∃ e ∈ t.units.counts, e.unit = chargedLane q lane ∧ e.code = 0x1012) ∧
    (q.fromPort = 0 → ∀ headerOk payloadOk,
      exec (.fabricPacketArrival i x headerOk payloadOk lane) s = exec (.fabricPacketArrival i x true true lane) s) ∧
    (s1.wayUsable q = false →
      ∃ t, exec (.fabricPacketArrival i x true true lane) s = .next t ∧
        t.fabric.packets = s0.fabric.packets.set i { q with poison := true } ∧ t.mem = s.mem ∧ t.cores = s.cores)

/-- At a die that serves its address, a GET is answered with the row and its poison mark, a PUT to HBM is written and answered, a PUT to row
memory joins the memory's arrived rows with its acknowledgement, and a READ_REQ is answered with its row on the data route; a protected write is answered
with the protection fault, and at any other die the reply carries the route fault; a die that is used no further answers with POISON (R477; log entry 109). A
request whose stack has no grant for it waits (R206, R232, R243, R288). A GET's reply is a write of its core's remote-access agent: its row lands with its mark,
and then its slot is free and its counter counts; an acknowledgement frees the slot and counts at once; a fault reply frees the slot and stops the core with its
fault (R167, R222). A HOST request that carries a unit writes it to HBM, and one that carries none is answered with the unit and its mark (R245, R260; that form of it is
the model's, log entry 50). -/
def Obligations.RequestsAndReplies : Prop :=
  (∀ (i x : Nat) (s s1 : State) (p : Packet), let a := panelTarget s1.units.gridClass p.addr
    s.packet i = some p → s.mayServe i p = true → s.yieldsToGet p x = false → s.quota p = some s1 →
    (s1.answersPoison p.place = true → p.typ ≠ 0xA →
      ∃ t q, exec (.remoteRequestArrival i x) s = .next t ∧ t.mem = s.mem ∧ t.cores = s.cores ∧ t.fabric.packets = s.fabric.packets.eraseIdx i ++ [q] ∧
        q.poison = true ∧ q.tag = p.tag ∧ q.dst = p.src ∧ q.typ = (if p.typ = 8 then 0 else if p.typ = 2 then 4 else 5)) ∧
    (s1.answersPoison p.place = false →
    let served := s1.servesHere p.place a = true
    (p.typ = 2 → served → let u := (s1.dropPacket i).serviceAt a x
      ∃ t, exec (.remoteRequestArrival i x) s = .next t ∧ t.mem = u.mem ∧ t.poison = u.poison ∧
        ∃ q ∈ t.fabric.packets, q.typ = 4 ∧ q.payload = u.readRow (u.cellAddr a) ∧ q.poison = u.isPoisoned (u.cellAddr a) ∧ q.src = p.dst ∧
          q.dst = p.src ∧ q.tag = p.tag ∧ q.routeId = p.routeId + 0x8000) ∧
    (p.typ = 3 → served → s1.writeForbidden a = false → targetMem a = none →
      ∃ t, exec (.remoteRequestArrival i x) s = .next t ∧ t.mem = writeBytes s.mem (s1.cellAddr a) (fitBytes 512 p.payload) ∧
        t.isPoisoned (s1.cellAddr a) = p.poison ∧ ∃ q, t.fabric.packets = s.fabric.packets.eraseIdx i ++ [q] ∧ q.typ = 5 ∧ q.tag = p.tag ∧ q.dst = p.src) ∧
    (∀ m, p.typ = 3 → served → s1.writeForbidden a = false → targetMem a = some m →
      ∃ t, exec (.remoteRequestArrival i x) s = .next t ∧ t.mem = s.mem ∧ t.fabric.packets = s.fabric.packets.eraseIdx i ∧
        (tget [] t.fabric.arrived m).length = (tget [] s.fabric.arrived m).length + 1 ∧
        ∃ y ∈ tget [] t.fabric.arrived m, y.row = targetRow a ∧ y.bytes = p.payload ∧ y.poison = p.poison ∧ y.ack = some (replyTo p 5 [] false none)) ∧
    (p.typ = 3 → served → s1.writeForbidden a = true →
      ∃ t q, exec (.remoteRequestArrival i x) s = .next t ∧ t.mem = s.mem ∧ t.fabric.packets = s.fabric.packets.eraseIdx i ++ [q] ∧ q.typ = 6 ∧
        q.fault = some .protection ∧ q.tag = p.tag) ∧
    (∀ m, p.typ = 8 → served → targetMem a = some m →
      ∃ t, exec (.remoteRequestArrival i x) s = .next t ∧
        ∃ q ∈ t.fabric.packets, q.typ = 0 ∧ q.payload = t.readRow (s1.cellAddr a) ∧ q.dst = p.src ∧ q.tag = p.tag ∧ q.routeId = p.routeId - 0x8000) ∧
    (p.typ = 0xA → 0x100 ≤ p.place → served → targetMem a = none →
      ∃ t q, exec (.remoteRequestArrival i x) s = .next t ∧ t.fabric.packets = s.fabric.packets.eraseIdx i ++ [q] ∧ q.typ = 0xA ∧ q.cls = 1 ∧
        q.dst = p.src ∧ q.tag = p.tag ∧ q.msg = p.msg ∧ q.addr = p.addr ∧ q.fault = none ∧
        (p.payload ≠ [] → t.mem = writeBytes s.mem (s1.cellAddr a) (fitBytes 512 p.payload)) ∧
        (p.payload = [] → t.mem = s.mem ∧ q.payload = s.readRow (s1.cellAddr a) ∧ q.poison = s.isPoisoned (s1.cellAddr a))) ∧
    (p.typ ≠ 8 → p.typ ≠ 0xA → ¬served →
      ∃ t q, exec (.remoteRequestArrival i x) s = .next t ∧ t.mem = s.mem ∧ t.fabric.packets = s.fabric.packets.eraseIdx i ++ [q] ∧ q.typ = 6 ∧
        q.fault = some .route ∧ q.tag = p.tag))) ∧
  (∀ (i x : Nat) (s : State) (p : Packet), s.packet i = some p → s.mayServe i p = true → s.quota p = none →
    exec (.remoteRequestArrival i x) s = .next s) ∧
  (∀ (i x d : Nat) (s : State) (p : Packet) (e : ReplySlot), let c := d * 16 + p.dcore
    s.packet i = some p → s.ready i p = true → s.dieAt p.place = some d → tget none (s.core c).slots p.tag = some e → s.dieGone p.place = false →
    s.clockHeld c = false →
    (p.typ = 4 → exec (.replyArrival i x) s =
      .next (((s.dropPacket i).runTo (c / 8) x).modCore c (fun k => k.start (replyJob p e ((s.dropPacket i).readFrom c (e.lrow % memRows c) x))))) ∧
    (p.typ = 4 → c < 2304 → e.lrow < 8192 → (∀ j, j / 8 = c / 8 → (s.core j).timing.jobs = []) →
      ∃ t, exec (.replyArrival i x) s = .next t ∧ t.mem = s.mem ∧ let u := t.runCore c; let k := s.core c
        u.mem = writeBytes s.mem (memRowAddr c e.lrow) (fitBytes 512 p.payload) ∧ u.isPoisoned (memRowAddr c e.lrow) = p.poison ∧
        (u.core c).slots = terase p.tag k.slots ∧ (∀ j, (u.core c).creg j = if j = e.ctr then k.creg j + 1 else k.creg j) ∧
        GKept k (u.core c) ∧ VKept k (u.core c) ∧ ∀ j, j ≠ c → u.core j = s.core j) ∧
    (p.typ = 5 → let k := s.core c
      ∃ t, exec (.replyArrival i x) s = .next t ∧ t.fabric.packets = s.fabric.packets.eraseIdx i ∧ t.mem = s.mem ∧
        (t.core c).slots = terase p.tag k.slots ∧ (∀ j, (t.core c).creg j = if j = e.ctr then k.creg j + 1 else k.creg j) ∧
        GKept k (t.core c) ∧ VKept k (t.core c) ∧ ∀ d, d ≠ c → t.core d = s.core d) ∧
    (p.typ = 6 →
      ∃ t, exec (.replyArrival i x) s = .next t ∧ t.mem = s.mem ∧ (t.core c).mode = .faulted ∧
        (t.core c).slots = terase p.tag (s.core c).slots ∧ ∀ j, (t.core c).creg j = (s.core c).creg j))

/-- A row at its die joins its memory's arrived rows, with the increment that its last packet carries; an increment with no row of its sender and route
ahead of it counts at once; a data row at the I/O die that asked for it takes its place (R207, R208, R210, R226, R270). The one arrived row of a memory
whose cluster has no access to come lands whole in the first cycle in which its port is free: the row's 512 B and its mark are written and its
acknowledgement leaves (R225, R232). -/
def Obligations.RowsLand : Prop :=
  (∀ (i cyc d : Nat) (s : State) (p : Packet), s.packet i = some p → s.ready i p = true → p.place < 0x100 → s.dieAt p.place = some d →
    s.dieGone p.place = false →
    (p.typ = 0 → let m := if p.dm = 0 then d * 16 + p.dcore else clusterMem (2 * d + p.dcore / 8)
      let y : Arrived := { cycle := cyc, row := p.drow, bytes := p.payload, poison := p.poison, plane := p.plane, route := p.routeId, sender := p.core,
                           waiter := d * 16 + p.dcore, notify := if p.last then some (d * 16 + p.dcore, p.dctr) else none, ack := none, msg := p.msg }
      s.residentLocked m p.drow = false →
      exec (.rowDelivery i cyc) s = .next { s with fabric := { s.fabric with
        packets := s.fabric.packets.eraseIdx i
        arrived := tset [] s.fabric.arrived m (insertArrived y (tget [] s.fabric.arrived m)) } }) ∧
    (p.typ = 1 → let c := d * 16 + p.dcore
      s.fabric.incs = [] → s.rowsAhead { core := c, ctr := p.dctr, route := p.routeId, sender := p.core, hi := p.msg } = false →
      ∃ t, exec (.rowDelivery i cyc) s = .next t ∧ t.fabric.packets = s.fabric.packets.eraseIdx i ∧ t.fabric.incs = [] ∧ t.mem = s.mem ∧
        (∀ j, (t.core c).creg j = if j = p.dctr then (s.core c).creg j + 1 else (s.core c).creg j) ∧
        ∀ e, e ≠ c → t.core e = s.core e)) ∧
  (∀ (i cyc : Nat) (s : State) (p : Packet), let io := p.core % 0x10000 / 64; let ch := p.core % 64
    s.packet i = some p → s.ready i p = true → p.typ ≤ 1 → 0x100 ≤ p.place → p.place ≠ hubPlace →
    (∀ r, p.core / 0x10000 = 1 → (s.channel io ch).running = some r →
      ∃ t, exec (.rowDelivery i cyc) s = .next t ∧ t.fabric.packets = s.fabric.packets.eraseIdx i ∧ t.mem = s.mem ∧ t.cores = s.cores ∧
        (t.channel io ch).running = some { r with rows := tinsert p.tag (p.payload, p.poison) r.rows }) ∧
    (∀ e, p.core / 0x10000 ≠ 1 → ioEngine (p.place - 0x100) = some e → s.bundle e ≠ [] →
      ∃ t, exec (.rowDelivery i cyc) s = .next t ∧ t.fabric.packets = s.fabric.packets.eraseIdx i ∧ t.mem = s.mem ∧ t.cores = s.cores)) ∧
  (∀ (m cyc : Nat) (s : State) (a : Arrived), let x := max cyc (s.landStart m)
    (m < 2304 ∨ (0x80000000 ≤ m ∧ m < 0x80000000 + 288)) → (s.cluster (memCluster m)).held = false → tget [] s.fabric.arrived m = [a] →
    (∀ d, d / 8 = memCluster m → (s.core d).timing.jobs = []) → s.portFree m a.row .external x = true →
    ∃ t, exec (.externalWriteLand m cyc) s = .next t ∧ t.mem = writeBytes s.mem (memRowAddr m a.row) (fitBytes 512 a.bytes) ∧
      t.isPoisoned (memRowAddr m a.row) = a.poison ∧ tget [] t.fabric.arrived m = [] ∧
      (∀ q, a.ack = some q → ∃ f, t.fabric.packets = s.fabric.packets ++ [f] ∧ f.typ = q.typ ∧ f.tag = q.tag ∧ f.dst = q.dst) ∧
      (a.ack = none → t.fabric.packets = s.fabric.packets))

/-- A REDUCE input that its record names is held until FANIN inputs are present; the last frees the entry, and the node sends on what it
combined (R282). An input that the record does not name, or a second from one direction, is discarded with a route fault (R284). -/
def Obligations.ReductionsCombine : Prop :=
  ∀ (i d : Nat) (s : State) (p : Packet), let key := redKey d p.routeId p.plane; let held := tget [] s.fabric.reds key
    s.packet i = some p → s.ready i p = true → p.typ = 7 → s.dieAt p.place = some d → s.dieGone p.place = false →
    let discarded := ∃ u, exec (.reduceInputArrival i) s = .next u ∧ u.fabric.packets = s.fabric.packets.eraseIdx i ∧
      u.fabric.reds = s.fabric.reds ∧ u.mem = s.mem ∧ u.units.seq = s.units.seq + 1
    (∀ (t : RedTree) (dir : Nat), s.treeOf d p.routeId p.plane = some t → dirOf d p.src = some dir →
      (t.inMask.testBit dir = true → held.all (fun x => x.dir != dir) = true →
        let x : RedInput := { dir := dir, bytes := p.payload, drow := p.drow, dcore := p.dcore, dctr := p.dctr, poison := p.poison, core := p.core }
        (held.length + 1 ≠ t.fanin → exec (.reduceInputArrival i) s = .next { s with fabric := { s.fabric with
          packets := s.fabric.packets.eraseIdx i, reds := tset [] s.fabric.reds key (held ++ [x]) } }) ∧
        (held.length + 1 = t.fanin → ∃ u q, exec (.reduceInputArrival i) s = .next u ∧
          u.fabric.packets = s.fabric.packets.eraseIdx i ++ [q] ∧ tget [] u.fabric.reds key = [] ∧ q.payload = combineRows t (orderInputs (held ++ [x])) ∧
          q.typ = (if t.out = 0 then 0 else 7) ∧ q.src = d ∧ q.dst = dieToward d t.out ∧ q.poison = (held ++ [x]).any (·.poison) ∧
          u.mem = s.mem ∧ u.cores = s.cores)) ∧
      ((t.inMask.testBit dir = false ∨ held.all (fun x => x.dir != dir) = false) → discarded)) ∧
    ((s.treeOf d p.routeId p.plane = none ∨ dirOf d p.src = none) → discarded)

/-- A TC0 window restarts the TC0 caps (R274); an arbiter's window reloads every count from its weight, its quota and its 256 opportunities, and keeps the
freeze (R288, R289). A scrub finding, or the same met by a unit's read (log entry 110), is counted against its row; an uncorrectable one marks the row
(R230, R231). A word of an accumulator memory or instruction store counts against its row too (Table 15.1). -/
def Obligations.WindowsAndScrub : Prop :=
  (∀ s : State, exec .tc0WindowStart s = .next { s with fabric := { s.fabric with tc0Out := [], tc0Inject := [] } }) ∧
  (∀ (n : Nat) (s : State), arbiterOk n = true →
    ∃ t, exec (.arbiterWindowStart n) s = .next t ∧ (∀ m, m ≠ n → t.arbiter m = s.arbiter m) ∧ t.mem = s.mem ∧ t.cores = s.cores ∧
      (t.arbiter n).freeze = (s.arbiter n).freeze ∧
      (((s.arbiter n).reqs = [] ∨ s.frozen n = true) → (t.arbiter n).used = 0 ∧ (t.arbiter n).left = 256 ∧
        (t.arbiter n).reqs = (s.arbiter n).reqs ∧ ∀ j ∈ arbRequesters n, tget 0 (t.arbiter n).ctr j = (s.arbWeight n j : Int))) ∧
  (∀ (m row outcome word : Nat) (s : State), let a := memRowAddr m row; let bad := outcome = 2 ∨ outcome = 4
    (m < 2304 ∨ (0x80000000 ≤ m ∧ m < 0x80000000 + 288)) → row < memRows m → 1 ≤ outcome → outcome ≤ 4 →
    (outcome ≤ 2 → s.clusterGated (memCluster m) = false) →
    ∃ t, exec (.scrubRow m row outcome word) s = .next t ∧ t.mem = s.mem ∧ t.cores = s.cores ∧
      (bad → t.isPoisoned a = true) ∧ (¬bad → t.poison = s.poison) ∧
      ∃ e ∈ t.units.counts, e.unit = rowKey (s.memUnit m) (bit (decide (0x80000000 ≤ m))) row ∧ e.code = (if bad then 0x1002 else 0x1001)) ∧
  (∀ (m kind c row outcome word : Nat) (s : State), coreArray m = some (kind, c) → row < (if kind = 2 then 2048 else 8192) → 3 ≤ outcome → outcome ≤ 4 →
    ∃ t, exec (.scrubRow m row outcome word) s = .next t ∧ t.mem = s.mem ∧ t.poison = s.poison ∧ (∀ d, d ≠ c → t.core d = s.core d) ∧
      (kind = 2 → outcome = 4 → (t.core c).accBad.contains row = true) ∧
      ∃ e ∈ t.units.counts, e.unit = rowKey (s.coreUnit c) kind row ∧ e.code = (if outcome = 4 then 0x1002 else 0x1001))

/-! ### Planned transfers (06 R237 to R243) -/

/-- A launch row that passes R239 is queued whole at its channel and answered; one that fails is answered with its fault, and nothing is queued
(R237). A channel with no running transfer starts the first one queued: rows read from HBM leave on the data route, and rows of a row memory are asked
for (R240). A transfer that has moved everything writes what it has converted to HBM, unit i to the place of the i-th unit from DST on and block scales from SCALE on,
and sends its completion row and increment (R240, R241, R243). That an HBM source is read whole at the start and an HBM destination written whole at completion is the
model's choice (log entry 24). -/
def Obligations.PlannedTransfers : Prop :=
  (∀ (i : Nat) (s : State) (p : Packet), let io := p.place - 0x100; let ch := bitsOf p.addr 14 9
    s.packet i = some p → s.ready i p = true → p.typ = 3 → 0x100 ≤ p.place → p.place < 0x10C → bitsOf p.addr 47 44 = 3 →
    (s.ioUsable io = true ∨ s.retired (unitId 3 io 0) = true) →
    (s.launchFault io p = none →
      ∃ t q, exec (.dmaLaunch i) s = .next t ∧ (t.channel io ch).queue = (s.channel io ch).queue ++ launchSlots p.core p.payload ∧
        (t.channel io ch).running = (s.channel io ch).running ∧ t.mem = s.mem ∧ t.cores = s.cores ∧
        t.fabric.packets = s.fabric.packets.eraseIdx i ++ [q] ∧ q.typ = 5 ∧ q.tag = p.tag ∧ q.dst = p.src) ∧
    (∀ k, s.launchFault io p = some k →
      ∃ t q, exec (.dmaLaunch i) s = .next t ∧ t.ioDies = s.ioDies ∧ t.mem = s.mem ∧ (k ≠ .protection → t.cores = s.cores) ∧
        (k = .protection → p.core < 2304 → (t.core p.core).mode = .faulted) ∧
        t.fabric.packets = s.fabric.packets.eraseIdx i ++ [q] ∧ q.typ = 6 ∧ q.tag = p.tag ∧ q.dst = p.src ∧ q.fault = some k)) ∧
  (∀ (io ch : Nat) (s : State) (d : Desc) (rest : List Desc), io < 12 → ch < 64 → (s.channel io ch).running = none →
    (s.channel io ch).queue = d :: rest → s.thermal.active = false → s.ioUsable io = true →
    (s.descGone d = true ∨ s.targetUsable (s.unitTarget d.hbmSide 0) = true) →
    ∃ t r, exec (.dmaTransferStart io ch) s = .next t ∧ (t.channel io ch).running = some r ∧ r.desc = d ∧ r.elem = (s.channel io ch).elem ∧
      (t.channel io ch).queue = rest ∧ (t.channel io ch).elem = ((s.channel io ch).elem + d.count) % 2 ^ 32 ∧ t.mem = s.mem ∧ t.cores = s.cores ∧
      (s.descGone d = true → r.err = 4 ∧ t.fabric.packets = s.fabric.packets) ∧
      (s.descGone d = false → t.fabric.packets.length = s.fabric.packets.length +
        (if d.fromHbm then r.left else unitsFor d.sfmt d.count + (if d.ssc then scaleUnits d.count else 0)))) ∧
  (∀ (io ch : Nat) (s : State) (r : Running), io < 12 → ch < 64 → (s.channel io ch).running = some r → s.moved io ch r = true → s.thermal.active = false →
    s.ioUsable io = true → (s.descGone r.desc = true ∨ s.targetUsable (s.unitTarget r.desc.hbmSide 0) = true) →
    let d := r.desc; let row := fun i => tget ([], false) r.rows i
    let still : Prop := (d.fromHbm = true ∨ r.err = 3 ∨ r.err = 4)
    let n := unitsFor d.sfmt d.count
    let m := s.convertUnits (channelCode io ch) d r.elem ((List.range n).map row)
      (if d.ssc then (List.range (scaleUnits d.count)).map (fun i => row (n + i)) else [])
    let put := fun (a : Nat) (us : List (List Byte × Bool)) => ((List.range us.length).zip us).filterMap (fun u =>
      if s.targetUsable (s.unitTarget a u.1) then some (s.cellAddr (s.unitTarget a u.1), u.2.1) else none)
    ∃ t ps, exec (.dmaTransferComplete io ch) s = .next t ∧ (t.channel io ch).running = none ∧ (t.channel io ch).queue = (s.channel io ch).queue ∧
      (still → t.mem = s.mem) ∧
      (¬still → t.mem = (put d.dst m.units ++ put d.scale m.scales).foldl (fun b u => writeBytes b u.1 (fitBytes 512 u.2)) s.mem) ∧
      t.cores = s.cores ∧ t.fabric.packets = s.fabric.packets ++ ps ∧
      (still → r.desc.cw = true → ∃ p ∈ ps, p.typ = 0 ∧ p.payload = completionRow r) ∧
      (¬still → r.desc.cw = true → ∃ p ∈ ps, p.typ = 0 ∧ p.payload = completionRow (r.took m)) ∧
      (r.desc.notify = true → ∃ p ∈ ps, p.typ = 1 ∧ p.dctr = r.desc.ctr ∧ p.last = true) ∧ ps.length = bit r.desc.cw + bit r.desc.notify)

/-! ### Ticks and steps (02 R49, R60, R66 to R69; 05 R176; 07 R294, R295) -/

/-- A frame tick completes: it moves the time to its tick and counts it, the stall counters are read and cleared, the next tick is known, and the commands that
waited for a lane run last (R49, R294; the order within a tick, and when a lane is looked at, are the model's choices: log entries 90 and 63). At the tick of a flip every
alias entry swaps its views, the step becomes IDLE, or NO_PLAN where no plan is left, and STEP_COMMIT has its record (R69, R75). A pending commit's set is in force, or is
refused by a second proof, at the first tick from its time on at which R72 lets it (R379). A unit change that is due acts at the tick (R386). A run that has failed ends at
a tick: FAILED, or NO_PLAN or not replayable by R71 and R73, its cores held and its record made with the status and DETAIL of the fault that R491 chooses (R60, R68, R216).
A step that starts frame 0 at a tick gives every core its registers as R176 says. Inputs in place name the start (R67); a clean
run whose outputs reached the host ends in AWAIT_COMMIT and writes no panel memory (R68). Byte k of an input or output descriptor is the byte at its HOST_ADDR + k and the
byte of its region at OFFSET + k: an input's units go out as host memory holds them, and an output's reply writes its unit to host memory as it is (R64, R67, R68).
Once a second the stall counts become the map (R295). -/
def Obligations.TicksAndSteps : Prop :=
  (∀ (s : State) (n : Nat), s.clock.nextTick = some n →
    let a := s.timeAtTick n
    a.clock.lastTick = n ∧ a.clock.tickCount = s.clock.tickCount + 1 ∧ s.now ≤ a.now ∧ n ≤ a.now ∧ a.fabric.stalls = [] ∧ a.clock.nextTick.isSome = true ∧
    ∃ v u : State, exec .frameTick s = .next v.runLanes ∧ v.clock.lastTick = n ∧ v.clock.tickCount = s.clock.tickCount + 1 ∧ v.now = a.now ∧
      u.settings = s.settings ∧ u.now = a.now ∧ u.step.state = s.step.state ∧ v.settings = u.commitAtTick.settings ∧
      (∀ b, s.step.flip = some b → b ≤ n → s.step.state = .awaitCommit → s.boot.resetAt = none → s.boot.resetDrain = none →
        v.aliases = s.aliases.map (fun x => { x with swapped := !x.swapped }) ∧ v.step.flip = none ∧
        v.step.state = (if v.plan.isSome then .idle else .noPlan) ∧
        ∀ tag c, s.step.flipTag = some tag → s.cmdOf tag = some c →
          ∃ r ∈ v.log.waiting, r.seq = c.seq ∧ r.opcode = c.opcode ∧ r.tag = c.tag ∧ r.status = 0 ∧ r.timebase = v.now) ∧
      (∀ x src, s.units.due = [(x, 2, src)] → (s.unitEntry x).state ≠ 2 → (s.unitEntry x).state ≠ 3 → s.isRunning = false → s.boot.resetAt = none →
        s.boot.resetDrain = none → v.unitEntry x = { state := 2, source := src, since := v.now }) ∧
      (∀ c, s.isRunning = true → s.step.faults ≠ [] → s.leads = false → s.isWorker = false → s.step.flip = none → s.boot.resetAt = none →
        s.boot.resetDrain = none → s.cmdOf s.step.tag = some c →
        (v.step.state = .failed ∨ v.step.state = .failedFinal ∨ v.step.state = .noPlan) ∧
          ∃ r ∈ v.log.waiting, r.seq = c.seq ∧ r.opcode = c.opcode ∧ r.tag = c.tag)) ∧
  (∀ (s : State) (p : PendingCommit), let t := s.commitAtTick
    s.settings.pendingCommit = some p → s.settings.groupCommit = none → s.group.joining = false →
    ((s.now < p.tick ∨ s.deferCommit p = true) → t = s) ∧
    (∀ tag c, p.tick ≤ s.now → s.deferCommit p = false → p.tag = some tag → s.cmdOf tag = some c → t.settings.pendingCommit = none ∧
      (s.proofFails p.entries = none → (p.entries.map (·.key)).Nodup →
        (∀ e ∈ p.entries, t.setting e.key = s.entryValue e) ∧ (∀ k, (∀ e ∈ p.entries, e.key ≠ k) → t.setting k = s.setting k) ∧
        t.log.waiting = s.log.waiting ++ [recOf s c 0 0 0]) ∧
      (∀ f, s.proofFails p.entries = some f → t.settings.committed = s.settings.committed ∧
        t.log.waiting = s.log.waiting ++ [recOf s c f.1 f.2 0]))) ∧
  (∀ (s : State) (f : Nat × StepFault), let t := s.endFailed
    chooseFault s.allFaults = some f → s.isWorker = false →
    t.step.state = (match t.plan with
      | none => .noPlan
      | some p => if p.overBudget || s.allFaults.any (fun x => x.2.status == 0x111) then .failedFinal else .failed) ∧
    (∀ e ∈ t.cores, e.2.mode = .held ∧ e.2.latch = none) ∧ t.mem = s.mem ∧ t.hostMem = s.hostMem ∧ t.aliases = s.aliases ∧ t.stepMoving = false ∧
    ∀ c, s.cmdOf s.step.tag = some c →
      t.log.waiting = s.log.waiting ++ [{ recOf s c f.2.status f.2.detail 0 with slot := if s.leads then f.1 else 0xFFFF }]) ∧
  (∀ (s : State) (p : Plan) (c : Nat), let k := s.core c; let k' := (s.beginFrame p 0 true).core c
    tabWf {} s.cores = true → 0 < p.frames → c < (if p.gridClass = 144 then 2304 else 1920) →
    (∀ j, k'.greg j = 0) ∧ (∀ j, k'.vreg j = vZero) ∧ (∀ j, k'.creg j = 0) ∧ k'.pc = 0 ∧ k'.loops = [] ∧ k'.sl = 0xFFFF ∧
      k'.nv = false ∧ k'.of = false ∧ k'.wr = false ∧ k'.latch = none ∧ k'.accValid = [] ∧ k'.wbuf0.valid = false ∧ k'.wbuf1.valid = false ∧
      k'.prog = k.prog ∧ k'.acc = k.acc ∧ k'.limit = p.entry 0 c ∧ k'.frame = 0 ∧ k'.elem = 0 ∧ k'.slots = [] ∧ k'.overran = false ∧
      k'.mode = (if p.entry 0 c = 0 ∨ k.prog = [] then .gated else .running)) ∧
  (∀ s : State, s.isRunning = true → s.step.phase = .inputs → s.inputsBlocked = false → s.host.linkUp = true → s.step.faults = [] →
    (s.stepMoving = false →
      ∃ t, exec .stepInputsDone s = .next t ∧ t.step.phase = .wait ∧ t.step.startAt = some s.startBound ∧ t.step.state = .running ∧
        t.hostMem = s.hostMem ∧ t.cores = s.cores ∧ t.mem = s.mem) ∧
    (s.stepMoving = true → exec .stepInputsDone s = .next s)) ∧
  (∀ s : State, s.isRunning = true → s.step.phase = .outputs → s.host.linkUp = true → s.workersDone = true →
    (s.allFaults = [] → s.stepMoving = false →
      ∃ t, exec .stepOutputsDone s = .next t ∧ t.step.state = .awaitCommit ∧ t.mem = s.mem ∧ t.cores = s.cores ∧ t.hostMem = s.hostMem) ∧
    (s.allFaults = [] → s.stepMoving = true → exec .stepOutputsDone s = .next s) ∧
    (s.allFaults ≠ [] → exec .stepOutputsDone s = .next s.endFailed)) ∧
  (∀ (s : State) (wr : Bool) (i : Nat) (d : Descr) (r : Region), s.regionById d.region = some r → d.len ≠ 0 →
    ∃ x, s.stepXfer wr i d = [x] ∧ x.ofStep = true ∧ x.write = wr ∧
      x.pieces = s.piecesOf (hbmAddr (r.base + d.offset)) (d.len / 512) 8 d.len ∧
      ∀ (p : Piece), let k := p.first + 512 * p.done; let n := min 512 (p.count - p.done * 512)
        x.nextUnit p = (n, d.hostAddr + k, n) ∧
        (wr = true → n = 512 → ∃ q, (s.askUnit x p).2.fabric.packets = s.fabric.packets ++ [q] ∧ q.addr = p.addr + 512 * p.done ∧
          q.payload = s.hostBytes (d.hostAddr + k) 512) ∧
        (wr = false → n = 512 → p.running = true → p.done < x.unitsOf p →
          ∀ (y : State) (q : Packet), y.xferOf q.tag = some { x with pieces := [p] } → q.msg = p.first → q.addr = p.addr + 512 * p.done → q.fault = none →
            q.poison = false → (y.takeHostReply q).hostMem = writeBytes y.hostMem (d.hostAddr + k) (fitBytes 512 q.payload))) ∧
  (∀ s : State, s.clock.counting = true →
    ∃ t, exec .congestionMapAssemble s = .next t ∧ t.fabric.mapMax = s.byDie s.fabric.stallMax ∧ t.fabric.mapSum = s.byDie s.fabric.stallSum ∧
      t.fabric.stallMax = [] ∧ t.fabric.stallSum = [] ∧ t.fabric.mapFrames = s.clock.ticksThisSecond ∧
      t.fabric.mapGrid = s.units.gridClass ∧ s.now ≤ t.now ∧
      (s.fabric.mapTime ≤ s.now → s.now < (s.fabric.mapTime / 10 ^ 9 + 1) * 10 ^ 9 → t.fabric.mapTime = (s.fabric.mapTime / 10 ^ 9 + 1) * 10 ^ 9) ∧ t.mem = s.mem)

/-! ### Zhenlink (08 R301 to R327; 16 R504) -/

/-- Training with every lane good or retired and four left leads to VERIFYING with a fresh challenge; else the port is DOWN and tries again after
10 ms (R307, R309). A trained port's sequence numbers begin at 0, which is the model's choice (log entry 65). A peer that passes R308 makes the port ACTIVE, and any other
reply, or none in 10 ms, fails verification (R504). The hub answers a challenge with its chain and its signature over the challenge (R504). -/
def Obligations.PortsTrain : Prop :=
  (∀ (n trip : Nat) (good : BitVec 8) (s : State), let q := s.port n; n < 64 → s.mayTrain n = true → q.state = 2 →
    ((good ||| q.laneRetired) = 0xFF → 4 ≤ lanesOf (~~~q.laneRetired) →
      ∃ t, exec (.portTraining n good trip) s = .next t ∧ (t.port n).state = 3 ∧ (t.port n).width = lanesOf (~~~q.laneRetired) ∧
        (t.port n).delayNs = (trip + 1) / 2 ∧ (t.port n).challenge = some (s.freeBytes 32, s.now) ∧ (t.port n).rxNext = 0 ∧ (t.port n).txSeq = 0 ∧ t.free = s.free + 32) ∧
    (¬((good ||| q.laneRetired) = 0xFF ∧ 4 ≤ lanesOf (~~~q.laneRetired)) →
      ∃ t, exec (.portTraining n good trip) s = .next t ∧ (t.port n).state = 1 ∧ (t.port n).retryAt = some (s.now + 10 ^ 7))) ∧
  (∀ (n r : Nat) (s : State), n < 64 → (s.port n).state = 1 → (s.port n).retryAt = some r → s.mayTrain n = true →
    ∃ t, exec (.portRetryTimer n) s = .next t ∧ (t.port n).state = 2 ∧ (t.port n).retryAt = none ∧ r ≤ t.now) ∧
  (∀ (n sent : Nat) (ch : List Byte) (reply : PeerReply) (s : State), n < 64 → (s.port n).state = 3 → (s.port n).challenge = some (ch, sent) →
    s.thermal.active = false → (s.port n).challengeHeld = false →
    ∃ t, exec (.peerVerification n reply) s = .next t ∧ (t.port n).challenge = none ∧
      (if s.now ≤ sent + 10 ^ 7 ∧ s.peerOk n ch reply = true ∧ (s.port n).delayNs ≤ s.setting keyDelayMax then
        (t.port n).state = 4 ∧ (t.port n).peerPort = reply.port else (t.port n).state = 1)) ∧
  (∀ (n sent : Nat) (ch : List Byte) (s : State), n < 64 → (s.port n).state = 3 → (s.port n).challenge = some (ch, sent) →
    ((s.port n).challengeHeld = true → exec (.identityReplyTimeout n) s = .next s) ∧ ((s.port n).challengeHeld = false →
    ∃ t, exec (.identityReplyTimeout n) s = .next t ∧ (t.port n).state = 1 ∧ sent + 10 ^ 7 ≤ t.now ∧ t.units.seq = s.units.seq + 1)) ∧
  (∀ (n : Nat) (ch : List Byte) (s : State), n < 64 → s.thermal.active = false → ((s.port n).state = 3 ∨ (s.port n).state = 4) →
    ∃ t, exec (.identityRequest n ch) s = .next t ∧ (t.port n).reply = s.chain ++
      s.identityBlock (digest64 (identityMessage ch (s.setting keyGroupId) s.groupSlot n)) ∧ t.mem = s.mem ∧ t.units = s.units)

/-- Losing its signal takes an ACTIVE port to DOWN (R307). Retiring a lane leaves the port on the lanes that remain while four do, and else retires
it (R313); on a panel with no grid class, or with one and a link to its hub, it changes no memory. A bad link flit changes no packet and asks for a
resend; a good one out of sequence brings nothing but its acknowledgements (R311). The host link's frames are retried alike, and what an acknowledgement makes
room for leaves (R339); it loses lanes to four or goes down (R340). A port that may not be used takes nothing (R40). How long a NAK stands and what clears it, which control
word goes back, what a training or a retired lane has resent, and the host frames' form are the model's choices (log entries 65, 66, 67, 111 and 130). -/
def Obligations.LinksCarry : Prop :=
  (∀ (n : Nat) (s : State), n < 64 → (s.port n).state = 4 →
    ∃ t, exec (.portSignalLoss n) s = .next t ∧ (t.port n).state = 1 ∧ (t.port n).width = 0 ∧ t.mem = s.mem) ∧
  (∀ (n lane : Nat) (s : State), n < 64 → lane < 8 → (s.port n).state = 4 → (s.port n).laneRetired.getLsbD lane = false →
    let lr := (s.port n).laneRetired ||| BitVec.ofNat 8 (2 ^ lane)
    ∃ t, exec (.laneRetire n lane) s = .next t ∧ (t.port n).laneRetired = lr ∧
      ((s.units.gridClass = 0 ∨ (s.boot.noGrid = false ∧ s.hubCut = false)) → t.mem = s.mem) ∧
      (4 ≤ lanesOf (~~~lr) → (t.port n).width = lanesOf (~~~lr)) ∧ (lanesOf (~~~lr) < 4 → (t.port n).state = 5)) ∧
  (∀ (n : Nat) (ctl : BitVec 64) (payload : List Byte) (ok : Bool) (lane : Nat) (s : State), let io := engineIo (n / 8); n < 64 → lane < 8 → (s.port n).state = 4 →
    (s.portUsable n = false → exec (.linkFlitReceive n ctl payload ok lane) s = .next s) ∧ (s.portUsable n = true →
    (flitGood ctl payload ok = false →
      ((s.port n).laneRetired.getLsbD lane = true ∨ (tget [] (s.port n).charges lane).length < 15 ∧ (s.port n).failRun < 3) →
      ∃ t, exec (.linkFlitReceive n ctl payload ok lane) s = .next t ∧ (t.port n).nak = true ∧ (t.port n).rxNext = (s.port n).rxNext ∧
        (t.port n).rx = (s.port n).rx ∧ (t.port n).state = 4 ∧ t.fabric = s.fabric ∧ t.mem = s.mem ∧
        ((s.port n).nak = false → s.now ∈ tget [] (t.port n).charges lane)) ∧
    (flitGood ctl payload ok = true → (ctl.toNat.testBit 25 = true ∨ bitsOf ctl.toNat 11 0 ≠ (s.port n).rxNext) →
      exec (.linkFlitReceive n ctl payload ok lane) s =
        .next ((((s.setPort n ((s.port n).takeControl ctl)).drainRx io).transmit io).modPort n Port.sendControl)) ∧
    (flitGood ctl payload ok = true → ctl.toNat.testBit 25 = false → bitsOf ctl.toNat 11 0 = (s.port n).rxNext →
      exec (.linkFlitReceive n ctl payload ok lane) s = .next ((((State.takeFlit
        (s.setPort n { (s.port n).takeControl ctl with rxNext := ((s.port n).rxNext + 1) % 4096, nak := false, failRun := 0 })
        n (bitsOf ctl.toNat 29 26) lane payload).drainRx io).transmit io).modPort n Port.sendControl)))) ∧
  (∀ (ctl : BitVec 64) (payload : List Byte) (ok : Bool) (lane : Nat) (s : State), let q := s.host.link; let h : HostPort := { s.host with link := q.takeControl ctl }
    lane < 8 → s.host.linkUp = true →
    (frameGood ctl payload ok = true → ctl.toNat.testBit 25 = false → bitsOf ctl.toNat 11 0 = q.rxNext →
      exec (.linkFlitReceive 0x80 ctl payload ok lane) s = .next (State.modLink { s with host := h.pump } (fun q =>
        Port.sendControl { q with rxNext := (q.rxNext + 1) % 4096, nak := false, failRun := 0 }))) ∧
    (frameGood ctl payload ok = true → (ctl.toNat.testBit 25 = true ∨ bitsOf ctl.toNat 11 0 ≠ q.rxNext) →
      exec (.linkFlitReceive 0x80 ctl payload ok lane) s = .next (State.modLink { s with host := h.pump } Port.sendControl)) ∧
    (frameGood ctl payload ok = false → (tget [] q.charges lane).length < 15 → q.failRun < 3 →
      ∃ t, exec (.linkFlitReceive 0x80 ctl payload ok lane) s = .next t ∧ t.host.link.nak = true ∧ t.host.link.rxNext = q.rxNext ∧
        t.host.linkUp = true ∧ t.host.lanes = s.host.lanes ∧ t.mem = s.mem ∧ t.hostMem = s.hostMem)) ∧
  (∀ (lane : Nat) (s : State), let s0 := s.modLink (fun q => { q with laneRetired := q.laneRetired ||| BitVec.ofNat 8 (2 ^ lane) })
    lane < 8 → s.host.link.laneRetired.getLsbD lane = false →
    ∃ t, exec (.laneRetire 0x80 lane) s = .next t ∧ t.host.link.laneRetired = s0.host.link.laneRetired ∧
      (s.host.lanes.getLsbD lane = false → t.host = s0.host) ∧
      (∀ m, s.host.lanes.getLsbD lane = true → s0.linkLanes 0xFF = some m → t.host.linkUp = true ∧ t.host.lanes = m ∧
        t.host.width = lanesOf m ∧ (s.host.linkUp = true → t.host.link.resent = s.host.link.replayBuf)) ∧
      (s.host.lanes.getLsbD lane = true → s0.linkLanes 0xFF = none → t.host.linkUp = false))

/-- TC3 rows: a packet for this panel sets out for the hub, any other for the egress I/O die of its direction once that has room (R318, R320); the hub
holds the rows of a transfer and writes them only when it is whole, the next of its sender, and its stacks may be used (R40, R324, R326); one not whole at the second tick is dropped
with nothing written, and the sender's goes again. An outbound transfer that is whole and next on its route sends its
increment along the far route (R324), and an acknowledgement names its panel, the sender and the transfer (R356). That rows are held until their transfer is whole, how numbers
pass one another and go on after a timeout, and the plane of a crossing are the model's choices (log entries 85, 112 and 50). -/
def Obligations.CrossPanelTransfers : Prop :=
  (∀ (io : Nat) (s : State) (p : Packet) (rest : List Packet), let here := if io = 12 then hubPlace else ioPlace io
    io < 13 → (s.ioDie io).tc3In = p :: rest → s.thermal.active = false → s.crumbHeld = false → (io = 12 ∨ s.ioUsable io = true) →
    (s.dirTo (p.dst - 0x1000) = none →
      ∃ t q, exec (.tc3Ingress io) s = .next t ∧ t.fabric.packets = s.fabric.packets ++ [q] ∧ q.typ = 0xB ∧ q.cls = 3 ∧ q.place = here ∧
        q.to_ = hubPlace ∧ q.payload = p.payload ∧ (t.ioDie io).tc3In = rest ∧ t.mem = s.mem ∧ t.cores = s.cores) ∧
    (∀ dir e, s.dirTo (p.dst - 0x1000) = some dir → s.enginesToward dir = [e] →
      (s.ioUsable (engineIo e) = false → exec (.tc3Ingress io) s = .next s) ∧ (s.ioUsable (engineIo e) = true →
      let out := engineIo e; let vc := 6 + s.dateline (p.src - 0x1000) dir
      (s.txFlits out vc + p.flits ≤ 512 →
        ∃ t q, exec (.tc3Ingress io) s = .next t ∧ t.fabric.packets = s.fabric.packets ++ [q] ∧ q.typ = 0xB ∧ q.cls = 3 ∧ q.place = here ∧
          q.to_ = ioPlace out ∧ q.vc = vc ∧ q.payload = p.payload ∧ (t.ioDie io).tc3In = rest ∧ t.mem = s.mem ∧ t.cores = s.cores) ∧
      (512 < s.txFlits out vc + p.flits → exec (.tc3Ingress io) s = .next s)))) ∧
  (∀ (s : State) (p : Packet) (rest : List Packet), let slot := p.src - 0x1000; let key := xferKey slot p.xferId
    let x := (tget none s.group.tc3Rx key).getD { count := p.xferCount, got := 0, firstTick := s.clock.tickCount, rows := [] }
    let x1 : Tc3Rx := { x with
      got := x.got + 1, hasLast := x.hasLast || p.last, rows := if p.payload = [] then x.rows else x.rows ++ [(p.addr, p.payload, p.poison)] }
    let next := tget 0 s.group.rxNext slot; let after := xferKey slot ((next + 1) % 65536)
    s.group.hubRx = p :: rest → s.thermal.active = false → p.xferCount = x.count → x.got < x.count → p.xferCount ≤ 64 →
    ((tget none s.group.tc3Rx key).isSome = true ∨ s.group.tc3Rx.length < 1024) → p.xferId = next →
    ((x1.whole && s.rowsUsable slot x1) = false →
      exec .tc3RowWrite s = .next { s with group := { s.group with hubRx := rest, tc3Rx := tset none s.group.tc3Rx key (some x1) } }) ∧
    (x1.whole = true → s.rowsUsable slot x1 = true → tget none s.group.tc3Rx after = none →
      ∃ t, exec .tc3RowWrite s = .next t ∧ t.group.hubRx = rest ∧ tget none t.group.tc3Rx key = none ∧ tget 0 t.group.rxNext slot = (next + 1) % 65536 ∧
        t.group.sent = s.group.sent ++ [.copyAck s.groupSlot slot p.xferId (x1.rows.all (fun r => s.windowCovers slot r.1))] ∧
        (x1.rows.all (fun r => s.windowCovers slot r.1) = true → t.mem = x1.rows.foldl (fun m r =>
          writeBytes m (s.cellAddr (panelTarget s.units.gridClass r.1)) (fitBytes 512 r.2.1)) s.mem) ∧
        (x1.rows.any (fun r => s.windowCovers slot r.1) = false → t.mem = s.mem))) ∧
  (∀ (s : State) (p : Packet) (rest : List Packet), let slot := p.src - 0x1000
    s.group.hubRx = p :: rest → s.thermal.active = false → (passed (tget 0 s.group.rxNext slot) p.xferId = true ∨ 64 < p.xferCount) →
    ∃ t, exec .tc3RowWrite s = .next t ∧ t.group = { s.group with hubRx := rest } ∧ t.mem = s.mem ∧ t.units.seq = s.units.seq + 1 ∧
      (s.isRunning = true → t.step.faults ≠ [])) ∧
  (∀ (slot id : Nat) (s : State) (x : Tc3Rx), slot ≠ s.groupSlot → tget none s.group.tc3Rx (xferKey slot id) = some x →
    x.firstTick + 2 ≤ s.clock.tickCount →
    let rx := terase (xferKey slot id) s.group.tc3Rx
    let next := if passed (tget 0 s.group.rxNext slot) id then tget 0 s.group.rxNext slot else (id + 1) % 65536
    tget none rx (xferKey slot next) = none →
    ∃ t, exec (.tc3TransferTimeout slot id) s = .next t ∧ t.group.tc3Rx = rx ∧ tget 0 t.group.rxNext slot = next ∧ t.mem = s.mem ∧ t.cores = s.cores) ∧
  (∀ (id : Nat) (s : State) (c : Copy) (cmd : Cmd) (o : OpenXfer),
    s.group.copies = [c] → c.opened = [o] → o.id = id → s.cmdOf c.tag = some cmd →
    (s.clock.tickCount < o.sentTick + 2 → exec (.tc3TransferTimeout s.groupSlot id) s = .next s) ∧ (o.sentTick + 2 ≤ s.clock.tickCount →
    (o.resends < 4 → s.unitsUsable (cmd.arg 0 8 + 512 * o.first) o.units = true →
      let r := s.sendCopy c.slot (cmd.arg 0 8 + 512 * o.first) (cmd.arg 8 8 + 512 * o.first) o.units
      ∃ t, exec (.tc3TransferTimeout s.groupSlot id) s = .next t ∧ t.mem = s.mem ∧
        t.group.copies = [{ c with opened :=
          [{ id := r.1, first := o.first, units := o.units, resends := o.resends + 1, sentTick := s.clock.tickCount }] }] ∧ t.ioDies = r.2.ioDies) ∧
    (4 ≤ o.resends → ∃ t r, exec (.tc3TransferTimeout s.groupSlot id) s = .next t ∧ t.mem = s.mem ∧ t.group.copies = [] ∧
      t.log.waiting = s.log.waiting ++ [r] ∧ r.status = 0x405 ∧ r.tag = c.tag))) ∧
  (∀ (io route id : Nat) (s : State) (x : InXfer) (r : Route), io < 12 → tget none (s.ioDie io).ingress (xferKey route id) = some x →
    s.farRoute io route = some r → x.got = x.count → x.hasLast = true → id = tget 0 (s.ioDie io).ingressNext route →
    ∃ t q, exec (.outboundTransferComplete io route id) s = .next t ∧ t.fabric.packets = s.fabric.packets ++ [q] ∧ q.typ = 1 ∧ q.last = true ∧
      q.routeId = route ∧ q.dst = r.dst ∧ q.dcore = x.dcore ∧ q.dctr = x.dctr ∧ q.poison = x.poison ∧
      tget 0 (t.ioDie io).ingressNext route = (id + 1) % 65536 ∧ t.mem = s.mem)

/-! ### The group (08 R330 to R336; 09 R352) -/

/-- A manager notes who joined, gives a relayed command its record and sends its time beacon (R331, R352, R400); a worker whose profile carries its plan starts
the run of a STEP_START message at the first tick at or after the time it names, and else reports why it does not (R43, R67; log entry 104). Beacons count in a row
(R331): after the third in a row a worker steps its timebase once to the manager's time, and after that it slews, a count a µs (R400); a worker that meets R331 joins; a lost manager stops a worker's step with 0x0406 (R333), a
silent worker the group's with 0x0405 (R334); health goes up the tree (R330). When beacons come in a row, the slew's course, the rate's rounding and how a silent worker
leaves the joined ones are the model's choices (log entries 70, 71, 120 and 74). -/
def Obligations.GroupActs : Prop :=
  (∀ (slot : Nat) (s : State), s.isManager = true →
    exec (.groupMessageReceive (.joined slot)) s = .next { s with group := { s.group with
      joined := insertNat slot s.group.joined, healthAt := tset 0 s.group.healthAt slot s.now,
      images := s.group.images.filter (fun x => x.1 != slot) } }) ∧
  (∀ (idx tick : Nat) (s : State) (p : Plan), s.isWorker = true → s.group.managerLost = false → s.plan = some p → s.step.state = .idle →
    (s.hasBelow = true → s.relayRoom (.stepStart idx tick) = true) →
    (s.workerBars p ≠ 0 → ∃ t, exec (.groupMessageReceive (.stepStart idx tick)) s = .next t ∧ t.step = s.step ∧ t.cores = s.cores ∧
      .failure s.groupSlot 0 (s.workerBars p) 0xFFFF 0 ∈ t.group.sent) ∧
    (s.workerBars p = 0 →
    ∃ t, exec (.groupMessageReceive (.stepStart idx tick)) s = .next t ∧ t.step.state = .running ∧ t.step.phase = .wait ∧
      t.step.startAt = some tick ∧ t.step.stepIndex = idx ∧ t.step.frameBase = idx * p.frames % 2 ^ 64 ∧ t.group.window = none ∧
      t.mem = s.mem ∧ t.cores = s.cores)) ∧
  (∀ (slot seq status detail result : Nat) (s : State) (c : Cmd), s.isManager = true →
    s.cmds.inflight.find? (fun c => c.dest == slot && c.seq == seq && s.cmds.relayed.contains c.tag) = some c →
    exec (.commandRelay slot seq status detail result) s = .next { s with
      cmds := { s.cmds with relayed := s.cmds.relayed.filter (· != c.tag) },
      log := { s.log with waiting := s.log.waiting ++ [{ recOf s c status detail result with slot := slot, flags := 4 }] } }) ∧
  (∀ (stamp roundTrip received : Nat) (s : State), s.leads = true → exec (.timeBeacon stamp roundTrip received) s = .next (s.send s.beaconMsg)) ∧
  (∀ (stamp roundTrip received : Nat) (s : State), let row := s.group.lastBeacon.any (fun b => decide (s.now < b + 2000000))
    let time := beaconTime stamp roundTrip; let own : Int := 16 * ((received : Int) - s.clock.added)
    let rate := s.rateOf (if row then s.group.firstBeacon else none) time own; let d := (time + 8 - 16 * received) / 16
    s.isWorker = true → s.group.managerLost = false → -50000 ≤ rate → rate ≤ 50000 →
    (s.group.selfJoined = true →
      ∃ t, exec (.timeBeacon stamp roundTrip received) s = .next t ∧ t.clock.trim = rate ∧ t.clock.slew = d ∧ t.now = s.now ∧
        t.group.beacons = (if row then s.group.beacons + 1 else 1)) ∧
    (s.group.selfJoined = false → s.group.stepped = false → row = true → 2 ≤ s.group.beacons →
      ∃ t, exec (.timeBeacon stamp roundTrip received) s = .next t ∧ t.group.stepped = true ∧ t.clock.trim = rate ∧ t.clock.slew = 0 ∧
        t.now = ((s.now : Int) + d).toNat)) ∧
  (∀ s : State, s.isWorker = true → s.group.selfJoined = false → s.bundlesUp = true → 3 ≤ s.group.beacons → s.group.stepped = true →
    s.group.rateOk = true → s.group.managerLost = false → -20 ≤ s.clock.slew → s.clock.slew ≤ 20 → s.tickAligned = true →
    exec .workerJoin s = .next { s with group := { s.group with
      selfJoined := true, joining := true, sent := s.group.sent ++ [.joined s.groupSlot], sentAt := s.group.sentAt ++ [s.now] } }) ∧
  (∀ (s : State) (b : Nat), s.group.lastBeacon = some b → s.isWorker = true → s.group.managerLost = false →
    ∃ t, exec .managerLost s = .next t ∧ t.group.managerLost = true ∧ b + 8000000 ≤ t.now ∧ t.units.seq = s.units.seq + 1 ∧
      (s.isRunning = true → t.step.faults = s.step.faults ++ [{ frame := s.step.frame, status := 0x406, core := 0xFFFF, detail := 0 }])) ∧
  (∀ (slot : Nat) (s : State), s.leads = true → s.group.joined.contains slot = true → s.isRunning = true → s.step.stop = none →
    ∃ t n, exec (.workerSilent slot) s = .next t ∧ t.step.stop = some n ∧ t.group.sent = s.group.sent ++ [.stepStop slot 0x405 n] ∧
      t.group.joined = s.group.joined.filter (· != slot) ∧ t.step.reports = s.step.reports ++ [(slot, { frame := s.step.frame, status := 0x405, core := 0xFFFF, detail := 0 })]) ∧
  (∀ s : State, s.isWorker = true →
    exec .healthGather s = .next (s.send (.health s.groupSlot (stepCode s.shownState) ((List.range 64).map s.portWord)
      (s.units.counts.map (fun c => (c.unit, c.code, c.times.length)))))) ∧
  (∀ s : State, s.isWorker = false → s.leads = true →
    exec .healthGather s = .next { s with group := { s.group with
      gathered := s.group.joined.filter (fun g => decide (s.now ≤ tget 0 s.group.healthAt g + 10 ^ 9)) } })

/-! ### The host link, clocks and frequency (09 R342; 11 R390 to R409) -/

/-- The link trains at eight lanes or four and raises 0xE007; when it goes down no access reaches the panel (R340, R342). Losing the reference begins
holdover, its return ends it; after 100 ms a running step fails with 0x0408 (Table 11.2). A die switches its parent, and the dies deeper in the tree follow
(R392), or it stays in holdover with no reference; it measures its offset at a beacon, slews it away, a count a µs, and takes the beacon's trim, so that its count
never goes back (R397 to R399), and its crossing FIFOs stand where wander has moved them, an overflow charging their link's plane (R395; log
entry 114); a droop counts (R404). A step whose inputs or outputs the link's loss interrupts fails with 0x0407 (R342). 0xE007 and RETRAINED at every training, the slew's course and the
frames that wait are the model's choices (log entries 81, 71 and 111). -/
def Obligations.LinksAndClocks : Prop :=
  (∀ (good : BitVec 8) (s : State), (s.boot.done.contains (1, 0) || (s.boot.haltA && s.fuses.romOk)) = true → s.eventsWaiting < 64 →
    (∀ m, s.linkLanes good = some m →
      ∃ t r, exec (.hostLinkTraining good) s = .next t ∧ t.log.waiting = s.log.waiting ++ [r] ∧ r.opcode = 0xE007 ∧ r.detail = lanesOf m ∧
        r.flags = 1 ∧ r.fault = decide (lanesOf m < s.host.width) ∧
        t.host = HostPort.pump { s.host with linkUp := true, width := lanesOf m, lanes := m, retrained := true, link := s.host.trainedLink }) ∧
    (s.linkLanes good = none → s.host.linkUp = true → exec (.hostLinkTraining good) s = exec .hostLinkDown s) ∧
    (s.linkLanes good = none → s.host.linkUp = false → exec (.hostLinkTraining good) s = .next s)) ∧
  (∀ (good : BitVec 8) (s : State), s.host.link.laneRetired = 0 →
    s.linkLanes good = if good = 0xFF ∧ s.straps.hlw = false then some 0xFF else if good &&& 0x0F = 0x0F then some 0x0F
      else if good &&& 0xF0 = 0xF0 ∧ s.straps.hlw = false then some 0xF0 else none) ∧
  (∀ s : State, s.host.linkUp = true → s.cmds.xfers = [] →
    ∃ t, exec .hostLinkDown s = .next t ∧ t.host = { s.host with
        linkUp := false, lanes := 0, out := s.host.link.replayBuf.map (·.2) ++ s.host.out, link := { s.host.link with replayBuf := [], resent := [] } } ∧
      t.mem = s.mem ∧ t.hostMem = s.hostMem ∧ t.step = s.step) ∧
  (∀ s : State, s.host.linkUp = true → s.cmds.xfers ≠ [] → s.cmds.xfers.all Xfer.ofStep = true → s.cmds.xfers.any (fun x => x.pieces.any (fun p => p.running)) = false →
    s.isRunning = true → s.stepMoving = true →
    ∃ t, exec .hostLinkDown s = .next t ∧ t.host.linkUp = false ∧ t.mem = s.mem ∧ t.hostMem = s.hostMem ∧
      t.step.faults = (if (s.step.phase = .inputs ∧ s.inputsBlocked = false) ∨ (s.step.phase = .outputs ∧ s.workersDone = true)
        then s.step.faults ++ [{ frame := s.step.frame, status := 0x407, core := 0xFFFF, detail := 0 }] else s.step.faults) ∧
      (t.step.faults ≠ s.step.faults → ∃ e ∈ t.units.errors, e.unit = unitId 6 0x80 0 ∧ e.code = 0x407 ∧ e.cls = 1)) ∧
  (∀ s : State, s.clock.ref = .locked →
    ∃ t, exec .referenceLost s = .next t ∧ t.clock = { s.clock with ref := .holdover, refLostAt := s.now, refExpired := false } ∧
      t.units.seq = s.units.seq + 1 ∧ t.step = s.step) ∧
  (∀ s : State, s.clock.ref = .holdover → s.clock.refExpired = false →
    ∃ t, exec .referenceHoldoverExpire s = .next t ∧ t.clock.refExpired = true ∧ t.now = max s.now (s.clock.refLostAt + 100 * 10 ^ 6) ∧
      t.step.faults = (if s.isRunning then s.step.faults ++ [{ frame := s.step.frame, status := 0x408, core := 0xFFFF, detail := 0 }] else s.step.faults)) ∧
  (∀ s : State, s.clock.ref = .holdover →
    ∃ t, exec .referenceReturned s = .next t ∧ t.clock = { s.clock with ref := .locked, refExpired := false } ∧ t.units.seq = s.units.seq + 1) ∧
  (∀ (die : Nat) (b : Nat × Nat) (s : State), diePlace die = true →
    bestParent ((s.parentsLeft die).map (fun q => (q, s.clockDepth q))) = some b →
    ∃ t, exec (.clockParentSwitch die) s = .next t ∧
      t.dieClock die = { s.dieClock die with
        parent := b.1, depth := b.2 + 1, failed := insertNat (s.dieClock die).parent (s.dieClock die).failed, locked := true } ∧
      (∀ q ∈ s.diesBelow die, t.dieClock q = { s.dieClock q with depth := (s.dieClock q).depth + (b.2 + 1) - (s.dieClock die).depth }) ∧
      (∀ q, q ≠ die → q ∉ s.diesBelow die → t.dieClock q = s.dieClock q)) ∧
  (∀ (die : Nat) (s : State), diePlace die = true → s.parentsLeft die = [] →
    exec (.clockParentSwitch die) s = .next (s.setDieClock die { s.dieClock die with
      locked := false, failed := insertNat (s.dieClock die).parent (s.dieClock die).failed })) ∧
  (∀ (die : Nat) (beacon : Nat × Nat) (s : State), diePlace die = true → let c := s.dieClock die
    let c1 := { c with offset := c.offsetAt s.now, slew := s.dieOffset die beacon.1 beacon.2, slewFrom := s.now, trim := s.clock.beaconTrim }
    (∃ t, exec (.timingBeacon die beacon []) s = .next t ∧ t.dieClock die = c1 ∧ t.fabric = s.fabric ∧ t.units = s.units ∧
      ∀ q, q ≠ die → t.dieClock q = s.dieClock q) ∧
    (∀ k n, hasFifo die k = true → 1 ≤ n → n ≤ 7 →
      ∃ t, exec (.timingBeacon die beacon [(k, n)]) s = .next t ∧ t.dieClock die = { c1 with fifos := tset 4 c.fifos k n } ∧ t.fabric = s.fabric ∧
        t.units = s.units) ∧
    (∀ k n, hasFifo die k = true → k < 0x100 → (n = 0 ∨ 8 ≤ n) → s.fabric.packets = [] →
      ∃ t, exec (.timingBeacon die beacon [(k, n)]) s = .next t ∧ t.fabric = s.fabric ∧
        ∃ e ∈ t.units.counts, e.unit = linkLane die (k / 8) (k % 8) 0x7FF ∧ e.code = 0x1010)) ∧
  (∀ (c : DieClock) (n m : Nat), n ≤ m → (n : Int) + c.offsetAt n ≤ m + c.offsetAt m) ∧
  (∀ (ci mhz : Nat) (deep : Bool) (s : State), ci < 288 →
    ∃ t, exec (.droopEvent ci (mhz, deep) []) s = .next t ∧ (t.cluster ci).phaseFails = [] ∧ (t.cluster ci).droops = min 65535 ((s.cluster ci).droops + 1) ∧
      (t.cluster ci).holds = (if deep then min 255 ((s.cluster ci).holds + 1) else (s.cluster ci).holds) ∧
      (t.cluster ci).point = (s.cluster ci).point ∧ ∀ d, d ≠ ci → t.cluster d = s.cluster d)

/-! ### Power and temperature (12 R418 to R433; 13 R434 to R449) -/

/-- A zone's current warning drops each of its clusters to f_floor (R431). A cluster's first lost phase is noted and a second makes it dark, fails a
running step with 0x0409 and retires the die (R421); where the retirement changes the map, clusters move with their sites (R32). A die DERATED for
24 h is due to be retired (R423). A poll takes each converter's reading, and counts one that does not answer, or whose
STATUS_WORD reports a fault, as missing (R418, R419); a second ends with the averages of its polls, rounded up, and with the stretch demand that R426
computes from them (R418, R426); a minute makes its energy record (R433). The form of a reading, STATUS_WORD's fault bits and what a missed poll is are presumed from PMBus (log entry 26). -/
def Obligations.PowerDelivery : Prop :=
  (∀ (z : Nat) (s : State), z < 16 →
    ∃ t, exec (.zoneCurrentWarning z) s = .next t ∧ tget none t.power.zones z = some 0 ∧ t.mem = s.mem ∧
      ∀ ci, ci < 24 * gridRows s.units.gridClass → s.clusterZone ci = z → s.power.profile < 3 →
        t.pointOf ci = min (profileFloor s.power.profile) (s.pointOf ci)) ∧
  (∀ (ci ph : Nat) (s : State), ci < 288 → ph < 8 → ci < 24 * gridRows s.units.gridClass → (s.cluster ci).dark = false →
    ((s.cluster ci).lost = [] →
      ∃ t, exec (.phaseLost ci ph) s = .next t ∧ (t.cluster ci).lost = [ph] ∧ (t.cluster ci).dark = false ∧ t.step = s.step) ∧
    ((s.cluster ci).lost ≠ [] → (s.cluster ci).lost.contains ph = false →
      ∃ t, exec (.phaseLost ci ph) s = .next t ∧
        ((t.units.gridClass, t.units.mapCols, t.units.mapRows) = (s.units.gridClass, s.units.mapCols, s.units.mapRows) →
          (t.cluster ci).dark = true) ∧
        unitId 2 (s.clusterSite ci) 0 ∈ t.units.atOnce ∧
        (s.isRunning = true → ∃ f ∈ t.step.faults, f.status = 0x409))) ∧
  (∀ (site : Nat) (s : State), site < 156 → tget 0 s.units.deratedAt site ≠ 0 →
    ∃ t, exec (.deratedExpiry site) s = .next t ∧ site ∈ t.units.expired ∧ tget 0 t.units.deratedAt site = 0 ∧ t.mem = s.mem) ∧
  (∀ (rs : List PmbusAnswer) (s : State), ∃ t, exec (.pmbusPoll rs) s = .next t ∧ t.power.polls = s.power.polls + 1 ∧ t.mem = s.mem ∧
    (∀ key r, key ∈ pmb1Keys → rs.find? (fun r => r.key == key && r.pec) = some r →
      tget 0 t.power.power key = linear11 r.power ∧ tget 0 t.power.current key = linear11 r.current ∧ tget 0 t.power.missing key = 0) ∧
    (∀ key, s.power.intake = [key] → key < 128 →
      (rs.find? (fun r => r.key == key && r.pec) = none → tget 0 t.power.missing key = tget 0 s.power.missing key + 1) ∧
      (∀ r, rs.find? (fun r => r.key == key && r.pec) = some r →
        tget 0 t.power.missing key = (if statusFault r.status then tget 0 s.power.missing key + 1 else 0)))) ∧
  (∀ s : State, let f := s.frameTicks; let st := s.clock.stretch
    let mean := fun (sum : Nat) => (sum + s.power.polls * 65536 - 1) / (s.power.polls * 65536)
    let need := fun (p lim : Nat) => ((f + st) * p * 50 + lim * 49 - 1) / (lim * 49) - f
    0 < s.power.polls → ∃ t, exec .powerSecond s = .next t ∧ t.power.pin = mean s.power.sumPin ∧ t.power.rail = mean s.power.sumRail ∧
      (∀ cap, profileCap s.power.profile = some cap →
        (s.controlCeiling s.secondEnd = none → t.power.demand = min (2 ^ 32 - 1) (max (need t.power.rail cap) (st - f / 8))) ∧
        (∀ lim, s.controlCeiling s.secondEnd = some lim →
          t.power.demand = min (2 ^ 32 - 1) (max (max (need t.power.rail cap) (need t.power.pin lim)) (st - f / 8))))) ∧
  (∀ s : State, ∃ t, exec .powerSecond s = .next t ∧ t.power.polls = 0 ∧ t.power.sumPin = 0 ∧ t.power.lastSecond = s.secondEnd ∧
    t.power.pin = (if s.power.polls = 0 then s.power.pin else (s.power.sumPin + s.power.polls * 65536 - 1) / (s.power.polls * 65536)) ∧
    t.power.seconds = s.power.seconds + 1 ∧ t.power.energy = s.power.energy + t.power.pin ∧ t.mem = s.mem) ∧
  (∀ s : State, ∃ t r, exec .energyMinute s = .next t ∧ t.power.records = (s.power.records ++ [r]).drop ((s.power.records ++ [r]).length - 1440) ∧
    r.start = s.power.minuteStart ∧ r.energy = s.power.energy ∧ r.railEnergy = s.power.railEnergy ∧ r.peak = s.power.peak ∧
    t.power.energy = 0 ∧ t.power.seconds = 0 ∧ t.mem = s.mem)

/-- A valid sample becomes the governed reading of its pair, the higher of two (R434, R436); the sample that stands for the lid (log entry 28) gives
inlet and outlet. A stack above 85 °C refreshes at double rate until 82 °C (R251). Each flow pulse counts (R435) while AUX stands (R527). The thermal demand rises by F / 16 while a unit is hot throughout 100 ms (R439). A second's flow is 600 mL/min
a pulse (R435). Coolant loss holds every cluster and fails a running step with 0x040A (R444, R445); a hard limit in two samples drives PWR_SHDN_N low
and writes the shutdown record (R448, R449), once it is armed (Table 14.8). Which row an uncorrectable finding of a stack poisons is the model's choice (log entry 110). -/
def Obligations.ThermalControl : Prop :=
  (∀ (n : Nat) (a b : Int) (s : State), n < 301 → validIn (-20) 150 a = some a → validIn (-20) 150 b = some b → (s.pair n).fault = false →
    (s.pair n).substituted = false → (a - b ≤ deg 6 ∧ b - a ≤ deg 6) →
    ∃ t, exec (.sensorSample n a b) s = .next t ∧ (t.pair n).governed = max a b ∧ (t.pair n).fault = false ∧
      ∀ m, m ≠ n → t.pair m = s.pair m) ∧
  (∀ (a b : Int) (s : State), ∃ t, exec (.sensorSample 301 a b) s = .next t ∧ t.thermal.inlet = validIn (-10) 100 a ∧
    t.thermal.outlet = validIn (-10) 100 b ∧ t.thermal.pairs = s.thermal.pairs ∧ t.mem = s.mem) ∧
  (∀ (k : Nat) (r : Int) (es : List (Nat × Nat)) (s : State), (partStacks s.fuses.part).contains k = true → validIn (-20) 125 r = some r →
    ∃ t, exec (.hbmTemperatureRead k r es) s = .next t ∧ (t.stack k).temp = r ∧ (t.stack k).valid = true ∧ t.mem = s.mem ∧
      (t.stack k).doubled = (if r > deg 85 then true else if r ≤ deg 82 then false else (s.stack k).doubled) ∧
      (∀ e ∈ es, e.2 = 2 → (hbmPlace s.fuses.part e.1).map (·.1) = some k → t.isPoisoned (hbmAddr (e.1 / 512 * 512)) = true)) ∧
  (∀ s : State, s.pins.aux = false → exec .flowPulse s = .next s) ∧
  (∀ s : State, s.pins.aux = true → exec .flowPulse s = .next { s with thermal := { s.thermal with pulses := s.thermal.pulses + 1, lastPulse := s.now } }) ∧
  (∀ s : State, ∃ t, exec .thermalDemandUpdate s = .next t ∧ t.thermal.tdAt = s.tdTime ∧ t.mem = s.mem ∧
    (∀ ci ∈ s.clusters_, hotThroughout s.tdTime (s.pair ci).hotSince = true → t.thermal.td = min (2 ^ 32 - 1) (s.thermal.td + s.frameTicks / 16))) ∧
  (∀ s : State, ∃ t, exec .thermalSecond s = .next t ∧ t.thermal.flow = 600 * s.thermal.pulses ∧ t.thermal.pulses = 0 ∧
    t.thermal.lastSecond = s.thermalEnd ∧ t.mem = s.mem) ∧
  (∀ s : State, s.thermal.armed = true → s.thermal.active = false →
    ∃ t, exec (.coolantLossDetect 1) s = .next t ∧ t.thermal.active = true ∧ s.thermal.lastPulse + 5 * 10 ^ 8 ≤ t.now ∧
      (∀ ci ∈ s.clusters_, (t.cluster ci).held = true) ∧ (∀ k ∈ partStacks s.fuses.part, (t.stack k).selfRefresh = true) ∧
      (s.isRunning = true → ∃ f ∈ t.step.faults, f.status = 0x40A)) ∧
  (∀ (u run : Nat) (r : Int) (s : State), s.hardRunOf u = some (r, run) → 2 ≤ run → s.pins.shdnN = true → s.hardArmed u = true →
    ∃ t, exec (.hardLimit u r) s = .next t ∧ t.pins.shdnN = false ∧ t.pins.shutdown = some (u, r, s.now) ∧ t.thermal.active = true) ∧
  (∀ (u run : Nat) (r : Int) (s : State), s.hardRunOf u = some (r, run) → s.hardArmed u = false → exec (.hardLimit u r) s = .next s)

/-! ### Power pins and bring-up (14 R454 to R475) -/

/-- Losing PWR_OK leaves what lies outside the panel, the fuses, the flash and the AUX domain with its shutdown record; everything else is as at reset
(R458). PWR_OK with PANEL_RESET_N high begins stage 0x01 with the straps sampled (R454, R457); a reset pulse of 1 µs or more does so too and releases
PWR_SHDN_N (R449, R474), a shorter one is ignored (R474), and bring-up waits for the pin's release (R457). PWR_OK while PANEL_RESET_N or PWR_SHDN_N is low
begins nothing (Table 17.9); a copy of flash that is being written as PWR_OK or AUX falls is left in part (Table 17.9; log entry 83). Losing AUX clears the shutdown record (R527), and PWR_OK with it,
which is the model's choice (log entry 82). -/
def Obligations.PowerPins : Prop :=
  (∀ s : State, s.pins.pwrOk = true → ∃ t, exec .pwrOkFall s = .next t ∧ OnlyAuxLeft s.stopWrite t ∧ ((∀ w, s.flash.writing ≠ some w) → t.flash = s.flash) ∧ t.pins = { s.pins with pwrOk := false }) ∧
  (∀ (st : StrapPins) (s : State), s.pins.pwrOk = false → s.pins.aux = true → s.pins.resetN = true → s.pins.shdnN = true →
    ∃ t, exec (.pwrOkRise st) s = .next t ∧ t.boot.running = [(1, 0)] ∧ t.straps = st ∧ t.pins = { s.pins with pwrOk := true } ∧
      t.fuses = s.fuses ∧ t.flash = { s.flash with writing := none } ∧ t.hostMem = s.hostMem ∧ t.mem = [] ∧ t.power.profile = st.profile.toNat) ∧
  (∀ (st : StrapPins) (s : State), s.pins.pwrOk = false → s.pins.aux = true → (s.pins.resetN = false ∨ s.pins.shdnN = false) →
    ∃ t, exec (.pwrOkRise st) s = .next t ∧ OnlyAuxLeft s t ∧ t.pins = { s.pins with pwrOk := true }) ∧
  (∀ (n : Nat) (st : StrapPins) (s : State), (1000 ≤ n ∨ s.pins.resetN = false) → s.pins.aux = true →
    (s.pins.pwrOk = true →
      ∃ t, exec (.panelResetN n true st) s = .next t ∧ t.boot.running = [(1, 0)] ∧ t.straps = st ∧
        t.pins = { s.pins with shdnN := true, resetN := true } ∧ t.fuses = s.fuses ∧ t.flash = { s.flash with writing := none } ∧ t.hostMem = s.hostMem ∧ t.mem = []) ∧
    ∃ t, exec (.panelResetN n false st) s = .next t ∧ OnlyAuxLeft s t ∧ t.pins = { s.pins with shdnN := true, resetN := false }) ∧
  (∀ (n : Nat) (b : Bool) (st : StrapPins) (s : State), n < 1000 → s.pins.resetN = true → exec (.panelResetN n b st) s = .next s) ∧
  (∀ s : State, s.pins.aux = true →
    ∃ t, exec .auxFall s = .next t ∧ t.pins = { s.pins with aux := false, pwrOk := false, shdnN := true, shutdown := none } ∧
      t.fuses = s.fuses ∧ t.flash = { s.stopWrite.flash with writing := none } ∧ t.hostMem = s.hostMem ∧ t.mem = []) ∧
  (∀ s : State, s.pins.aux = false → exec .auxRise s = .next { s with pins := { s.pins with aux := true, shdnN := true } })

/-- A stage that passes ends and the next begins: after 0x01 the timebase counts from 0 and stage 0x02 runs, after 0x06 Tolni serves and stage
0x10 runs, after 0x36 the panel is READY (R459, R463); stage 0x06 passes only where every PMB1 converter has answered (R417). A stage over its limit fails with its record: 0x01 halts the panel (R459). While the
reference is lost a management stage does not pass, and at its limit the panel halts (Table 14.8). A good image in
recovery runs at once and stage 0x05 begins; a bad one is waited past until the slot's first bytes are rewritten (R464). A block that has come whole, is the
running image's section and matches its digest is kept for its die and ends the retries of its site; another is asked for again, up to four times (R465, R506; how its packets are cut and
what a request says are the model's choices, log entry 124). -/
def Obligations.BringUp : Prop :=
  (∀ s : State, s.boot.running = [(1, 0)] → s.boot.ready = false → s.boot.halt = none → s.clock.ref = .locked → s.fuses.romOk = true → s.hubCut = false →
    ∃ t, exec (.stageComplete 1 0 true []) s = .next t ∧ t.boot.running = [(2, 0)] ∧ t.clock.counting = true ∧ t.clock.timebase = 0 ∧
      t.boot.done = s.boot.done ++ [(1, 0)] ∧ t.boot.shown = (2, 4, 0, 0)) ∧
  (∀ (s : State) (found : List Nat), s.boot.running = [(6, 0)] → s.boot.ready = false → s.boot.halt = none → s.clock.ref = .locked → s.hubCut = false →
    (pmb1Keys.all found.contains = true →
      ∃ t, exec (.stageComplete 6 0 true found) s = .next t ∧ t.boot.running = [(0x10, 0)] ∧ t.boot.tolniReady = true ∧
        t.power.intake = found.filter (fun k => decide (k < 128)) ∧ t.power.warnAt = (List.range 16).map (fun z => (0xA0 + z, 1350))) ∧
    (pmb1Keys.all found.contains = false →
      ∃ t, exec (.stageComplete 6 0 true found) s = .next t ∧ t.boot.halt = some 6 ∧ t.boot.haltA = false ∧ t.boot.running = [] ∧ t.boot.shown = (6, 4, 0, 2))) ∧
  (∀ s : State, s.boot.running = [(0x36, 0)] → s.boot.resetTag = none → s.boot.halt = none → s.hubCut = false →
    ∃ t, exec (.stageComplete 0x36 0 true []) s = .next t ∧ t.boot.ready = true ∧ t.boot.shown = (0xFF, 4, 0, 3) ∧ t.clock.nextTick.isSome = true) ∧
  (∀ (code : Nat) (found : List Nat) (s : State), code ≤ 6 → s.clock.ref = .holdover →
    exec (.stageComplete code 0 true found) s = .next s) ∧
  (∀ s : State, s.boot.running = [(6, 0)] → s.clock.ref = .holdover →
    ∃ t, exec (.stageTimeout 6 []) s = .next t ∧ (∃ e ∈ t.units.errors, e.unit = hubUnit ∧ e.code = 6 ∧ e.cls = 1) ∧ t.units.seq = s.units.seq + 1 ∧ t.boot.halt = some 6 ∧ t.boot.haltA = false ∧ t.boot.running = [] ∧ t.boot.shown = (6, 4, 0, 2)) ∧
  (∀ s : State, s.boot.running = [(1, 0)] → s.clock.counting = false →
    ∃ t, exec (.stageTimeout 1 []) s = .next t ∧ (∃ e ∈ t.units.errors, e.unit = hubUnit ∧ e.code = 1 ∧ e.cls = 1) ∧ t.units.seq = s.units.seq + 1 ∧ t.boot.halt = some 1 ∧ t.boot.haltA = true ∧ t.boot.running = [] ∧ t.boot.shown = (1, 4, 0, 2)) ∧
  (∀ s : State, let c := s.slotCmd 0; let p := (s.started c).payload; let img := s.hostBytes (field p 0 8) (field p 8 8)
    s.boot.recovery = true → s.boot.running.contains (3, 0) = true → s.host.linkUp = true → s.ownBit 0 = true → c.opcode = 0x605 →
    s.clock.ref = .locked → (s.boot.reread = false → exec .recoveryBoot s = .next s) ∧ (s.boot.reread = true →
    ∃ t, exec .recoveryBoot s = .next t ∧ t.flash = s.flash ∧
      (s.imageFail img = none → t.boot.image = img ∧ (5, 0) ∈ t.boot.running ∧ t.boot.secVersion = field img 6 2) ∧
      (s.imageFail img ≠ none → t.boot.shown = (4, 4, 0, 2) ∧ t.boot.running = s.boot.running ∧ t.boot.reread = false))) ∧
  (∀ (site : Nat) (block digest : List Byte) (s : State), site < 156 → s.boot.running.contains (0x12, 0) = true →
    let good : Prop := digest = digest64 (s.block 0x12) ∧ digest64 block = digest
    (s.blockCame 0x12 site = false → exec (.firmwareBlockReceive site block digest) s = .next s) ∧ (s.blockCame 0x12 site = true →
    ∃ t, exec (.firmwareBlockReceive site block digest) s = .next t ∧ (good →
        tget 0 t.boot.blockTries site = 0 ∧ tget [] t.boot.agentFw site = tget [] s.boot.agentFw site ++ [block] ∧ t.units = s.units) ∧
      (¬good → tget 0 s.boot.blockTries site < 4 →
        tget 0 t.boot.blockTries site = tget 0 s.boot.blockTries site + 1 ∧ tget [] t.boot.agentFw site = tget [] s.boot.agentFw site ∧
        (s.units.counts = [] → ∃ q ∈ t.fabric.packets, q.typ = 9 ∧ q.src = s.reporterAt site ∧ q.dst = hubPlace ∧ q.msg = site + 1))))

/-! ### Units, ledger, firewall and debug port (10 R385, R387; 14 R468; 16 R513 to R517) -/

/-- A mark takes its unit out of use at once, SUSPECT with a DISAGREE record (R385, R387); a probe makes the retirement due. A new defect joins the
ledger of this start and the flash copy that holds it, signed with the identity key, and none is added twice (R467, R468, R501). The sideband admits an access in the allow-list within its
length and rate, the mailbox and the lane, equalisation and optical power registers among them, and counts any other, which reads zero and writes nothing (R516, R517). The debug port answers
IDCODE always while AUX stands, and reads only with a scope (R513, R527, R530). The numbers of the sideband's targets and of the debug port's operations, the addresses of its registers and the
form of the bytes that a ledger's signature covers are the model's choices (log entries 31, 32 and 52). -/
def Obligations.UnitsAndDebug : Prop :=
  (∀ (u code rep : Nat) (s : State), u < 2 ^ 32 → (s.unitEntry u).state ≤ 1 → unitKind u ≠ 4 → unitKind u ≠ 6 →
    ∃ t, exec (.dataPathMark u code rep) s = .next t ∧ (t.unitEntry u).state = 4 ∧ t.usable u = false ∧
      t.units.suspects = s.units.suspects ++ [(u, s.now, none)] ∧ t.units.seq = s.units.seq + 1) ∧
  (∀ (u found : Nat) (x : Nat × Nat × Option Nat) (s : State), u < 2 ^ 32 → s.units.suspects.find? (fun x => x.1 == u && x.2.2 == none) = some x →
    ∃ t, exec (.unitReprobe u found) s = .next t ∧ (u, 2, 3) ∈ t.units.due ∧
      ((enclosing u).contains found = true → (found, 2, 3) ∈ t.units.due) ∧ t.units.table = s.units.table) ∧
  (∀ (u action src detail : Nat) (s : State), u < 2 ^ 32 → action ≤ 5 → 2 ≤ src → src ≤ 4 → let es := s.units.ledger.entries
    let d := detail % 2 ^ 32; let have_ := es.any (fun e => e.unit == u && e.action == action && e.detail == d)
    (have_ = true → exec (.ledgerWrite u action src detail) s = .next s) ∧
    (have_ = false → s.units.ledger.held = true → es.length < 16384 →
      ∃ t, exec (.ledgerWrite u action src detail) s = .next t ∧ t.units.ledger.sequence = s.units.ledger.sequence ∧
        t.units.ledger.entries = es ++ [{ unit := u, action := action, source := src, detail := d, start := s.units.ledger.startCount }] ∧
        t.units.ledger = s.signLedger { s.units.ledger with entries := t.units.ledger.entries } ∧
        (s.flash.ledgerA = s.units.ledger → t.flash.ledgerA = t.units.ledger) ∧ (s.flash.ledgerA ≠ s.units.ledger → s.flash.ledgerB = s.units.ledger → t.flash.ledgerB = t.units.ledger)) ∧
    (s.units.ledger.held = false → exec (.ledgerWrite u action src detail) s = .next s) ∧
    (have_ = false → s.units.ledger.held = true → 16384 ≤ es.length →
      ∃ t, exec (.ledgerWrite u action src detail) s = .next t ∧ t.units.ledger = s.units.ledger ∧ t.units.seq = s.units.seq + 1)) ∧
  (∀ (e target off len : Nat) (wr : Bool) (data : List Byte) (s : State), e < 8 → let w := s.firewallWindows
    let n := tget 0 w.security.transactions e
    let admitted := w.security.closed.contains e = false ∧ allowed target off len wr = true ∧ len ≤ 256 ∧ n < 4096
    ∃ t, exec (.engineSidebandAccess e target off len wr data) s = .next t ∧ tget 0 t.security.transactions e = n + 1 ∧
      tget 0 t.security.refusals e = (if admitted then tget 0 s.security.refusals e else min (2 ^ 32 - 1) (tget 0 s.security.refusals e + 1)) ∧
      (¬admitted → t.security.mailbox = s.security.mailbox ∧ (wr = false → t.security.sideband = List.replicate len 0)) ∧
      (admitted → target = 1 → wr = true →
        ∀ i, tget 0 t.security.mailbox i = (if e * 4096 + off ≤ i ∧ i < e * 4096 + off + len then (fitBytes len data).getD (i - (e * 4096 + off)) 0
          else tget 0 s.security.mailbox i)) ∧
      (admitted → target = 1 → wr = false →
        t.security.sideband = (List.range len).map (fun i => tget 0 s.security.mailbox (e * 4096 + off + i))) ∧
      (admitted → target = 0 → wr = true → ∀ i, tget 0 t.security.laneRegs (i * 8 + e) =
        (if off ≤ i ∧ i < off + len then (fitBytes len data).getD (i - off) 0 else tget 0 s.security.laneRegs (i * 8 + e))) ∧
      (admitted → target = 0 → wr = false →
        t.security.sideband = (List.range len).map (fun i => tget 0 s.security.laneRegs ((off + i) * 8 + e)))) ∧
  (∀ (a : Nat) (data : List Byte) (s : State), let t := panelTarget s.units.gridClass a
    (s.pins.aux = false → ∀ op, exec (.debugPortAccess op a data) s = .next s) ∧ (s.pins.aux = true →
    exec (.debugPortAccess 1 a data) s = .next { s with security := { s.security with tdo := toLE 4 s.idcode } } ∧
    (s.security.debugScope = 0 → exec (.debugPortAccess 2 a data) s = .next s) ∧
    (1 ≤ s.security.debugScope → a < 2 ^ 48 → s.served t = true →
      exec (.debugPortAccess 2 a data) s = .next { s with security := { s.security with tdo := s.readRow (s.cellAddr t) } }) ∧
    (∀ c i, 1 ≤ s.security.debugScope → c < 2304 → i < 32 → exec (.debugPortAccess 2 (2 ^ 48 + c * 2 ^ 24 + i) data) s =
      .next { s with security := { s.security with tdo := toLE 8 ((s.core c).greg i).toNat } }) ∧
    (s.security.debugScope = 2 →
      exec (.debugPortAccess 4 a data) s = .next { s with security := { s.security with halted := true } })))

/-! ### Encoding (07 R258, R259, Table 7.2) -/

/-- Bytes of a packet that a bundle carries decode to that packet, every header field at every value its width admits; one with a reserved TYPE, KIND or
CLASS decodes to none and is discarded (R293). What the wire does not
carry, the local output, the place, plane, port and core, is as an arriving packet has it. -/
def Obligations.PacketRoundTrip : Prop :=
  ∀ p : Packet, p.routeId < 2 ^ 16 → p.typ < 16 → p.kind < 4 → p.cls < 8 → p.src < 2 ^ 16 → p.dst < 2 ^ 16 → p.addr < 2 ^ 64 → p.drow < 2 ^ 15 →
    p.dm < 2 → p.dcore < 16 → p.dctr < 16 → p.tag < 2 ^ 16 → p.xferCount < 2 ^ 32 → p.xferId < 2 ^ 16 → p.payload.length < 2 ^ 16 →
    ∀ pad : List Byte, decodePacket (p.encode ++ pad) =
      if 0xB < p.typ ∨ 2 < p.kind ∨ 4 < p.cls then none
      else some {
             routeId := p.routeId, typ := p.typ, kind := p.kind, cls := p.cls, planned := p.planned, poison := p.poison, last := p.last,
             src := p.src, dst := p.dst, addr := p.addr, drow := p.drow, dm := p.dm, dcore := p.dcore, dctr := p.dctr, tag := p.tag,
             xferCount := p.xferCount, xferId := p.xferId, payload := p.payload, core := 0x30000 }
end

