-- ==== Sys2Proof/Laws/Tables.lean ====
section
/-! SUPPORT. What the table operations do: a read after a write, and the canonical form kept. -/

namespace Sys2Proof.Machine

@[simp] theorem tget_nil (d : α) (i : Nat) : tget d [] i = d := rfl

theorem tget_tinsert (d : α) (t : Tab α) (k : Nat) (v : α) (i : Nat) :
    tget d (tinsert k v t) i = if i = k then v else tget d t i := by
  induction t with
  | nil => by_cases h : k = i <;> simp [tinsert, tget, h, eq_comm]
  | cons e t ih =>
    obtain ⟨j, w⟩ := e
    by_cases h1 : k < j
    · by_cases hi : i = k
      · simp [tinsert, tget, h1, hi]
      · simp [tinsert, tget, h1, hi, Ne.symm hi]
    · by_cases h2 : k = j
      · subst h2
        by_cases hi : i = k
        · simp [tinsert, tget, hi]
        · simp [tinsert, tget, hi, Ne.symm hi]
      · by_cases hi : i = k
        · subst hi; simp [tinsert, tget, h1, h2, ih, Ne.symm h2]
        · simp only [tinsert, if_neg h1, if_neg h2, tget, ih, if_neg hi]

theorem tget_terase (d : α) (t : Tab α) (k i : Nat) : tget d (terase k t) i = if i = k then d else tget d t i := by
  induction t with
  | nil => simp [terase, tget]
  | cons e t ih =>
    obtain ⟨j, w⟩ := e
    by_cases h : j = k
    · subst h
      by_cases hi : i = j
      · subst hi; simpa [terase] using ih
      · simp [terase, ih, hi, tget, Ne.symm hi]
    · by_cases hi : i = k
      · subst hi; simp [terase, h, tget, ih]
      · by_cases hj : j = i <;> simp [terase, h, tget, ih, hi, hj]

/-- A read after a write gives the value written at its key, and what was there at every other. -/
theorem tget_tset [DecidableEq α] (d : α) (t : Tab α) (k : Nat) (v : α) (i : Nat) :
    tget d (tset d t k v) i = if i = k then v else tget d t i := by
  unfold tset
  split
  · rw [tget_terase]; split <;> simp_all
  · exact tget_tinsert d t k v i

@[simp] theorem tget_tset_same [DecidableEq α] (d : α) (t : Tab α) (k : Nat) (v : α) : tget d (tset d t k v) k = v := by
  simp [tget_tset]

@[simp] theorem tget_tset_ne [DecidableEq α] (d : α) (t : Tab α) (k i : Nat) (v : α) (h : i ≠ k) :
    tget d (tset d t k v) i = tget d t i := by simp [tget_tset, h]

/-! ### The canonical form -/

theorem tabWfFrom_mono [DecidableEq α] {d : α} {t : Tab α} {a b : Nat} (h : b ≤ a) (hw : tabWfFrom d a t = true) :
    tabWfFrom d b t = true := by
  cases t with
  | nil => rfl
  | cons e t =>
    obtain ⟨j, w⟩ := e
    simp only [tabWfFrom, Bool.and_eq_true, decide_eq_true_eq] at hw ⊢
    exact ⟨⟨by omega, hw.1.2⟩, hw.2⟩

theorem tabWfFrom_terase [DecidableEq α] {d : α} {t : Tab α} {a : Nat} (k : Nat) (hw : tabWfFrom d a t = true) :
    tabWfFrom d a (terase k t) = true := by
  induction t generalizing a with
  | nil => rfl
  | cons e t ih =>
    obtain ⟨j, w⟩ := e
    simp only [tabWfFrom, Bool.and_eq_true, decide_eq_true_eq] at hw
    unfold terase
    split
    · exact tabWfFrom_mono (by omega) (ih hw.2)
    · simp only [tabWfFrom, Bool.and_eq_true, decide_eq_true_eq]
      exact ⟨hw.1, ih hw.2⟩

theorem tabWfFrom_tinsert [DecidableEq α] {d : α} {t : Tab α} {a : Nat} (k : Nat) (v : α) (hv : v ≠ d) (ha : a ≤ k)
    (hw : tabWfFrom d a t = true) : tabWfFrom d a (tinsert k v t) = true := by
  induction t generalizing a with
  | nil => simp [tinsert, tabWfFrom, ha, hv]
  | cons e t ih =>
    obtain ⟨j, w⟩ := e
    simp only [tabWfFrom, Bool.and_eq_true, decide_eq_true_eq] at hw
    unfold tinsert
    split
    · simp only [tabWfFrom, Bool.and_eq_true, decide_eq_true_eq]
      exact ⟨⟨ha, hv⟩, ⟨by omega, hw.1.2⟩, hw.2⟩
    · split
      · rename_i h; subst h
        simp only [tabWfFrom, Bool.and_eq_true, decide_eq_true_eq]
        exact ⟨⟨ha, hv⟩, hw.2⟩
      · simp only [tabWfFrom, Bool.and_eq_true, decide_eq_true_eq]
        exact ⟨hw.1, ih (by omega) hw.2⟩

/-- A write keeps a table's canonical form. -/
theorem tabWf_tset [DecidableEq α] {d : α} {t : Tab α} (k : Nat) (v : α) (hw : tabWf d t = true) : tabWf d (tset d t k v) = true := by
  unfold tset
  split
  · exact tabWfFrom_terase k hw
  · rename_i h; exact tabWfFrom_tinsert k v h (Nat.zero_le k) hw

/-- Dropping entries keeps a table's canonical form. -/
theorem tabWfFrom_filter [DecidableEq α] {d : α} {t : Tab α} {a : Nat} (p : Nat × α → Bool) (hw : tabWfFrom d a t = true) :
    tabWfFrom d a (t.filter p) = true := by
  induction t generalizing a with
  | nil => rfl
  | cons e t ih =>
    obtain ⟨j, w⟩ := e
    simp only [tabWfFrom, Bool.and_eq_true, decide_eq_true_eq] at hw
    rw [List.filter_cons]
    split
    · simp only [tabWfFrom, Bool.and_eq_true, decide_eq_true_eq]; exact ⟨hw.1, ih hw.2⟩
    · exact tabWfFrom_mono (by omega) (ih hw.2)

end Sys2Proof.Machine
end

