-- ==== Sys2Proof/Laws/Crypto.lean ====
section
/-! SUPPORT. SHAKE256: the state keeps its 25 lanes, and a digest is 64 bytes whatever the message. -/

namespace Sys2Proof.Machine

theorem toLE_length (n x : Nat) : (toLE n x).length = n := by
  induction n generalizing x with
  | zero => rfl
  | succ n ih => simp [toLE, ih]

@[simp] theorem keccakRound_length (a : List (BitVec 64)) (rc : BitVec 64) : (keccakRound a rc).length = 25 := by
  show (match (List.range 25).map _ with | x :: xs => (x ^^^ rc) :: xs | [] => []).length = 25
  generalize he : (List.range 25).map _ = e
  have hl : e.length = 25 := by rw [← he]; simp
  cases e with
  | nil => simp at hl
  | cons x xs => simpa using hl

@[simp] theorem keccakF_length (a : List (BitVec 64)) : (keccakF a).length = 25 := keccakRound_length _ _

theorem absorbed_length (rate : Nat) (bs : List (List Byte)) (a : List (BitVec 64)) (h : a.length = 25) :
    (bs.foldl (keccakAbsorb rate) a).length = 25 := by
  induction bs generalizing a with
  | nil => exact h
  | cons b bs ih => exact ih _ (keccakF_length _)

/-- A digest has 64 bytes. -/
theorem digest64_length (m : List Byte) : (digest64 m).length = 64 := by
  have h : ∀ ls : List (BitVec 64), (ls.flatMap (fun l => toLE 8 l.toNat)).length = 8 * ls.length := by
    intro ls
    induction ls with
    | nil => rfl
    | cons l ls ih => simp [toLE_length, ih]; omega
  show (List.take 64 (shakeSqueeze 136 1 (List.foldl (keccakAbsorb 136) (List.replicate 25 0) _))).length = 64
  generalize ha : List.foldl (keccakAbsorb 136) (List.replicate 25 0) _ = a
  have hl : a.length = 25 := by rw [← ha]; exact absorbed_length _ _ _ (by simp)
  simp [shakeSqueeze, h, hl]

end Sys2Proof.Machine
end

