-- ==== Sys2Proof/Laws/Memory.lean ====
section
/-! SUPPORT. Memory: a read after a write, every other byte left alone, and the canonical form kept by every memory operation. -/

namespace Sys2Proof.Machine

/-- The empty memory has the canonical form. -/
@[simp] theorem Memory.wf_nil : Memory.wf [] = true := rfl

/-- Writing bytes keeps the canonical form. -/
theorem Memory.wf_writeBytes {m : List Host.Cell} (a : Nat) (bs : List Byte) (h : Memory.wf m = true) :
    Memory.wf (writeBytes m a bs) = true := by
  induction bs generalizing m a with
  | nil => exact h
  | cons b bs ih => exact ih (a + 1) (tabWf_tset a b h)

/-- Dropping cells keeps the canonical form. -/
theorem Memory.wf_filter {m : List Host.Cell} (p : Host.Cell → Bool) (h : Memory.wf m = true) : Memory.wf (m.filter p) = true :=
  tabWfFrom_filter p h

/-- A byte outside the bytes written reads as before. -/
theorem readByte_writeBytes_outside (m : List Host.Cell) (a : Nat) (bs : List Byte) (i : Nat) (h : i < a ∨ a + bs.length ≤ i) :
    readByte (writeBytes m a bs) i = readByte m i := by
  induction bs generalizing m a with
  | nil => rfl
  | cons b bs ih =>
    simp only [writeBytes, List.length_cons] at h ⊢
    rw [ih _ _ (by omega)]
    exact tget_tset_ne 0 m a i b (by omega)

/-- A byte written reads as written. -/
theorem readByte_writeBytes_inside (m : List Host.Cell) (a : Nat) (bs : List Byte) (j : Nat) (h : j < bs.length) :
    readByte (writeBytes m a bs) (a + j) = bs[j] := by
  induction bs generalizing m a j with
  | nil => simp at h
  | cons b bs ih =>
    cases j with
    | zero =>
      simp only [writeBytes, Nat.add_zero, List.getElem_cons_zero]
      rw [readByte_writeBytes_outside _ _ _ _ (by omega)]
      exact tget_tset_same 0 m a b
    | succ j =>
      simp only [writeBytes, List.getElem_cons_succ]
      have := ih (tset 0 m a b) (a + 1) j (by simpa using h)
      rwa [show a + (j + 1) = a + 1 + j by omega]

theorem length_readBytes (m : List Host.Cell) (a n : Nat) : (readBytes m a n).length = n := by
  induction n generalizing a with
  | zero => rfl
  | succ n ih => simp [readBytes, ih]

theorem getElem_readBytes (m : List Host.Cell) (a n j : Nat) (h : j < (readBytes m a n).length) :
    (readBytes m a n)[j] = readByte m (a + j) := by
  induction n generalizing a j with
  | zero => simp [readBytes] at h
  | succ n ih =>
    cases j with
    | zero => simp [readBytes]
    | succ j => simp only [readBytes, List.getElem_cons_succ]; rw [ih]; congr 1; omega

/-- Bytes written read back. -/
theorem readBytes_writeBytes_same (m : List Host.Cell) (a : Nat) (bs : List Byte) :
    readBytes (writeBytes m a bs) a bs.length = bs := by
  apply List.ext_getElem
  · exact length_readBytes _ _ _
  · intro j h1 h2
    rw [getElem_readBytes, readByte_writeBytes_inside _ _ _ _ h2]

/-- Bytes apart from those written read as before. -/
theorem readBytes_writeBytes_outside (m : List Host.Cell) (a : Nat) (bs : List Byte) (i n : Nat) (h : i + n ≤ a ∨ a + bs.length ≤ i) :
    readBytes (writeBytes m a bs) i n = readBytes m i n := by
  apply List.ext_getElem
  · simp [length_readBytes]
  · intro j h1 h2
    rw [getElem_readBytes, getElem_readBytes]
    rw [length_readBytes] at h1
    exact readByte_writeBytes_outside _ _ _ _ (by omega)

end Sys2Proof.Machine
end

