-- ==== Sys2Proof/Laws/State.lean ====
section
/-! SUPPORT. The named updates of the state and of a core, field by field: what an update leaves alone, and what a read after it gives. -/

namespace Sys2Proof.Machine

/-! ### State.setCore -/

@[simp] theorem State.setCore_pending (s : State) (c : Nat) (k : Core) : (s.setCore c k).pending = s.pending := rfl
@[simp] theorem State.setCore_free (s : State) (c : Nat) (k : Core) : (s.setCore c k).free = s.free := rfl
@[simp] theorem State.setCore_mem (s : State) (c : Nat) (k : Core) : (s.setCore c k).mem = s.mem := rfl
@[simp] theorem State.setCore_poison (s : State) (c : Nat) (k : Core) : (s.setCore c k).poison = s.poison := rfl
@[simp] theorem State.setCore_hostMem (s : State) (c : Nat) (k : Core) : (s.setCore c k).hostMem = s.hostMem := rfl
@[simp] theorem State.setCore_fuses (s : State) (c : Nat) (k : Core) : (s.setCore c k).fuses = s.fuses := rfl
@[simp] theorem State.setCore_flash (s : State) (c : Nat) (k : Core) : (s.setCore c k).flash = s.flash := rfl
@[simp] theorem State.setCore_pins (s : State) (c : Nat) (k : Core) : (s.setCore c k).pins = s.pins := rfl
@[simp] theorem State.setCore_straps (s : State) (c : Nat) (k : Core) : (s.setCore c k).straps = s.straps := rfl
@[simp] theorem State.setCore_boot (s : State) (c : Nat) (k : Core) : (s.setCore c k).boot = s.boot := rfl
@[simp] theorem State.setCore_clock (s : State) (c : Nat) (k : Core) : (s.setCore c k).clock = s.clock := rfl
@[simp] theorem State.setCore_settings (s : State) (c : Nat) (k : Core) : (s.setCore c k).settings = s.settings := rfl
@[simp] theorem State.setCore_plan (s : State) (c : Nat) (k : Core) : (s.setCore c k).plan = s.plan := rfl
@[simp] theorem State.setCore_aliases (s : State) (c : Nat) (k : Core) : (s.setCore c k).aliases = s.aliases := rfl
@[simp] theorem State.setCore_step (s : State) (c : Nat) (k : Core) : (s.setCore c k).step = s.step := rfl
@[simp] theorem State.setCore_agents (s : State) (c : Nat) (k : Core) : (s.setCore c k).agents = s.agents := rfl
@[simp] theorem State.setCore_clusters (s : State) (c : Nat) (k : Core) : (s.setCore c k).clusters = s.clusters := rfl
@[simp] theorem State.setCore_fabric (s : State) (c : Nat) (k : Core) : (s.setCore c k).fabric = s.fabric := rfl
@[simp] theorem State.setCore_ioDies (s : State) (c : Nat) (k : Core) : (s.setCore c k).ioDies = s.ioDies := rfl
@[simp] theorem State.setCore_hbm (s : State) (c : Nat) (k : Core) : (s.setCore c k).hbm = s.hbm := rfl
@[simp] theorem State.setCore_ports (s : State) (c : Nat) (k : Core) : (s.setCore c k).ports = s.ports := rfl
@[simp] theorem State.setCore_host (s : State) (c : Nat) (k : Core) : (s.setCore c k).host = s.host := rfl
@[simp] theorem State.setCore_log (s : State) (c : Nat) (k : Core) : (s.setCore c k).log = s.log := rfl
@[simp] theorem State.setCore_irq (s : State) (c : Nat) (k : Core) : (s.setCore c k).irq = s.irq := rfl
@[simp] theorem State.setCore_cmds (s : State) (c : Nat) (k : Core) : (s.setCore c k).cmds = s.cmds := rfl
@[simp] theorem State.setCore_units (s : State) (c : Nat) (k : Core) : (s.setCore c k).units = s.units := rfl
@[simp] theorem State.setCore_power (s : State) (c : Nat) (k : Core) : (s.setCore c k).power = s.power := rfl
@[simp] theorem State.setCore_thermal (s : State) (c : Nat) (k : Core) : (s.setCore c k).thermal = s.thermal := rfl
@[simp] theorem State.setCore_security (s : State) (c : Nat) (k : Core) : (s.setCore c k).security = s.security := rfl
@[simp] theorem State.setCore_group (s : State) (c : Nat) (k : Core) : (s.setCore c k).group = s.group := rfl

/-! ### State.setCluster -/

@[simp] theorem State.setCluster_pending (s : State) (c : Nat) (k : Cluster) : (s.setCluster c k).pending = s.pending := rfl
@[simp] theorem State.setCluster_free (s : State) (c : Nat) (k : Cluster) : (s.setCluster c k).free = s.free := rfl
@[simp] theorem State.setCluster_mem (s : State) (c : Nat) (k : Cluster) : (s.setCluster c k).mem = s.mem := rfl
@[simp] theorem State.setCluster_poison (s : State) (c : Nat) (k : Cluster) : (s.setCluster c k).poison = s.poison := rfl
@[simp] theorem State.setCluster_hostMem (s : State) (c : Nat) (k : Cluster) : (s.setCluster c k).hostMem = s.hostMem := rfl
@[simp] theorem State.setCluster_fuses (s : State) (c : Nat) (k : Cluster) : (s.setCluster c k).fuses = s.fuses := rfl
@[simp] theorem State.setCluster_flash (s : State) (c : Nat) (k : Cluster) : (s.setCluster c k).flash = s.flash := rfl
@[simp] theorem State.setCluster_pins (s : State) (c : Nat) (k : Cluster) : (s.setCluster c k).pins = s.pins := rfl
@[simp] theorem State.setCluster_straps (s : State) (c : Nat) (k : Cluster) : (s.setCluster c k).straps = s.straps := rfl
@[simp] theorem State.setCluster_boot (s : State) (c : Nat) (k : Cluster) : (s.setCluster c k).boot = s.boot := rfl
@[simp] theorem State.setCluster_clock (s : State) (c : Nat) (k : Cluster) : (s.setCluster c k).clock = s.clock := rfl
@[simp] theorem State.setCluster_settings (s : State) (c : Nat) (k : Cluster) : (s.setCluster c k).settings = s.settings := rfl
@[simp] theorem State.setCluster_plan (s : State) (c : Nat) (k : Cluster) : (s.setCluster c k).plan = s.plan := rfl
@[simp] theorem State.setCluster_aliases (s : State) (c : Nat) (k : Cluster) : (s.setCluster c k).aliases = s.aliases := rfl
@[simp] theorem State.setCluster_step (s : State) (c : Nat) (k : Cluster) : (s.setCluster c k).step = s.step := rfl
@[simp] theorem State.setCluster_cores (s : State) (c : Nat) (k : Cluster) : (s.setCluster c k).cores = s.cores := rfl
@[simp] theorem State.setCluster_agents (s : State) (c : Nat) (k : Cluster) : (s.setCluster c k).agents = s.agents := rfl
@[simp] theorem State.setCluster_fabric (s : State) (c : Nat) (k : Cluster) : (s.setCluster c k).fabric = s.fabric := rfl
@[simp] theorem State.setCluster_ioDies (s : State) (c : Nat) (k : Cluster) : (s.setCluster c k).ioDies = s.ioDies := rfl
@[simp] theorem State.setCluster_hbm (s : State) (c : Nat) (k : Cluster) : (s.setCluster c k).hbm = s.hbm := rfl
@[simp] theorem State.setCluster_ports (s : State) (c : Nat) (k : Cluster) : (s.setCluster c k).ports = s.ports := rfl
@[simp] theorem State.setCluster_host (s : State) (c : Nat) (k : Cluster) : (s.setCluster c k).host = s.host := rfl
@[simp] theorem State.setCluster_log (s : State) (c : Nat) (k : Cluster) : (s.setCluster c k).log = s.log := rfl
@[simp] theorem State.setCluster_irq (s : State) (c : Nat) (k : Cluster) : (s.setCluster c k).irq = s.irq := rfl
@[simp] theorem State.setCluster_cmds (s : State) (c : Nat) (k : Cluster) : (s.setCluster c k).cmds = s.cmds := rfl
@[simp] theorem State.setCluster_units (s : State) (c : Nat) (k : Cluster) : (s.setCluster c k).units = s.units := rfl
@[simp] theorem State.setCluster_power (s : State) (c : Nat) (k : Cluster) : (s.setCluster c k).power = s.power := rfl
@[simp] theorem State.setCluster_thermal (s : State) (c : Nat) (k : Cluster) : (s.setCluster c k).thermal = s.thermal := rfl
@[simp] theorem State.setCluster_security (s : State) (c : Nat) (k : Cluster) : (s.setCluster c k).security = s.security := rfl
@[simp] theorem State.setCluster_group (s : State) (c : Nat) (k : Cluster) : (s.setCluster c k).group = s.group := rfl

/-! ### State.setIoDie -/

@[simp] theorem State.setIoDie_pending (s : State) (i : Nat) (d : IoDie) : (s.setIoDie i d).pending = s.pending := rfl
@[simp] theorem State.setIoDie_free (s : State) (i : Nat) (d : IoDie) : (s.setIoDie i d).free = s.free := rfl
@[simp] theorem State.setIoDie_mem (s : State) (i : Nat) (d : IoDie) : (s.setIoDie i d).mem = s.mem := rfl
@[simp] theorem State.setIoDie_poison (s : State) (i : Nat) (d : IoDie) : (s.setIoDie i d).poison = s.poison := rfl
@[simp] theorem State.setIoDie_hostMem (s : State) (i : Nat) (d : IoDie) : (s.setIoDie i d).hostMem = s.hostMem := rfl
@[simp] theorem State.setIoDie_fuses (s : State) (i : Nat) (d : IoDie) : (s.setIoDie i d).fuses = s.fuses := rfl
@[simp] theorem State.setIoDie_flash (s : State) (i : Nat) (d : IoDie) : (s.setIoDie i d).flash = s.flash := rfl
@[simp] theorem State.setIoDie_pins (s : State) (i : Nat) (d : IoDie) : (s.setIoDie i d).pins = s.pins := rfl
@[simp] theorem State.setIoDie_straps (s : State) (i : Nat) (d : IoDie) : (s.setIoDie i d).straps = s.straps := rfl
@[simp] theorem State.setIoDie_boot (s : State) (i : Nat) (d : IoDie) : (s.setIoDie i d).boot = s.boot := rfl
@[simp] theorem State.setIoDie_clock (s : State) (i : Nat) (d : IoDie) : (s.setIoDie i d).clock = s.clock := rfl
@[simp] theorem State.setIoDie_settings (s : State) (i : Nat) (d : IoDie) : (s.setIoDie i d).settings = s.settings := rfl
@[simp] theorem State.setIoDie_plan (s : State) (i : Nat) (d : IoDie) : (s.setIoDie i d).plan = s.plan := rfl
@[simp] theorem State.setIoDie_aliases (s : State) (i : Nat) (d : IoDie) : (s.setIoDie i d).aliases = s.aliases := rfl
@[simp] theorem State.setIoDie_step (s : State) (i : Nat) (d : IoDie) : (s.setIoDie i d).step = s.step := rfl
@[simp] theorem State.setIoDie_cores (s : State) (i : Nat) (d : IoDie) : (s.setIoDie i d).cores = s.cores := rfl
@[simp] theorem State.setIoDie_agents (s : State) (i : Nat) (d : IoDie) : (s.setIoDie i d).agents = s.agents := rfl
@[simp] theorem State.setIoDie_clusters (s : State) (i : Nat) (d : IoDie) : (s.setIoDie i d).clusters = s.clusters := rfl
@[simp] theorem State.setIoDie_fabric (s : State) (i : Nat) (d : IoDie) : (s.setIoDie i d).fabric = s.fabric := rfl
@[simp] theorem State.setIoDie_hbm (s : State) (i : Nat) (d : IoDie) : (s.setIoDie i d).hbm = s.hbm := rfl
@[simp] theorem State.setIoDie_ports (s : State) (i : Nat) (d : IoDie) : (s.setIoDie i d).ports = s.ports := rfl
@[simp] theorem State.setIoDie_host (s : State) (i : Nat) (d : IoDie) : (s.setIoDie i d).host = s.host := rfl
@[simp] theorem State.setIoDie_log (s : State) (i : Nat) (d : IoDie) : (s.setIoDie i d).log = s.log := rfl
@[simp] theorem State.setIoDie_irq (s : State) (i : Nat) (d : IoDie) : (s.setIoDie i d).irq = s.irq := rfl
@[simp] theorem State.setIoDie_cmds (s : State) (i : Nat) (d : IoDie) : (s.setIoDie i d).cmds = s.cmds := rfl
@[simp] theorem State.setIoDie_units (s : State) (i : Nat) (d : IoDie) : (s.setIoDie i d).units = s.units := rfl
@[simp] theorem State.setIoDie_power (s : State) (i : Nat) (d : IoDie) : (s.setIoDie i d).power = s.power := rfl
@[simp] theorem State.setIoDie_thermal (s : State) (i : Nat) (d : IoDie) : (s.setIoDie i d).thermal = s.thermal := rfl
@[simp] theorem State.setIoDie_security (s : State) (i : Nat) (d : IoDie) : (s.setIoDie i d).security = s.security := rfl
@[simp] theorem State.setIoDie_group (s : State) (i : Nat) (d : IoDie) : (s.setIoDie i d).group = s.group := rfl

/-! ### State.setStack -/

@[simp] theorem State.setStack_pending (s : State) (i : Nat) (d : Stack) : (s.setStack i d).pending = s.pending := rfl
@[simp] theorem State.setStack_free (s : State) (i : Nat) (d : Stack) : (s.setStack i d).free = s.free := rfl
@[simp] theorem State.setStack_mem (s : State) (i : Nat) (d : Stack) : (s.setStack i d).mem = s.mem := rfl
@[simp] theorem State.setStack_poison (s : State) (i : Nat) (d : Stack) : (s.setStack i d).poison = s.poison := rfl
@[simp] theorem State.setStack_hostMem (s : State) (i : Nat) (d : Stack) : (s.setStack i d).hostMem = s.hostMem := rfl
@[simp] theorem State.setStack_fuses (s : State) (i : Nat) (d : Stack) : (s.setStack i d).fuses = s.fuses := rfl
@[simp] theorem State.setStack_flash (s : State) (i : Nat) (d : Stack) : (s.setStack i d).flash = s.flash := rfl
@[simp] theorem State.setStack_pins (s : State) (i : Nat) (d : Stack) : (s.setStack i d).pins = s.pins := rfl
@[simp] theorem State.setStack_straps (s : State) (i : Nat) (d : Stack) : (s.setStack i d).straps = s.straps := rfl
@[simp] theorem State.setStack_boot (s : State) (i : Nat) (d : Stack) : (s.setStack i d).boot = s.boot := rfl
@[simp] theorem State.setStack_clock (s : State) (i : Nat) (d : Stack) : (s.setStack i d).clock = s.clock := rfl
@[simp] theorem State.setStack_settings (s : State) (i : Nat) (d : Stack) : (s.setStack i d).settings = s.settings := rfl
@[simp] theorem State.setStack_plan (s : State) (i : Nat) (d : Stack) : (s.setStack i d).plan = s.plan := rfl
@[simp] theorem State.setStack_aliases (s : State) (i : Nat) (d : Stack) : (s.setStack i d).aliases = s.aliases := rfl
@[simp] theorem State.setStack_step (s : State) (i : Nat) (d : Stack) : (s.setStack i d).step = s.step := rfl
@[simp] theorem State.setStack_cores (s : State) (i : Nat) (d : Stack) : (s.setStack i d).cores = s.cores := rfl
@[simp] theorem State.setStack_agents (s : State) (i : Nat) (d : Stack) : (s.setStack i d).agents = s.agents := rfl
@[simp] theorem State.setStack_clusters (s : State) (i : Nat) (d : Stack) : (s.setStack i d).clusters = s.clusters := rfl
@[simp] theorem State.setStack_fabric (s : State) (i : Nat) (d : Stack) : (s.setStack i d).fabric = s.fabric := rfl
@[simp] theorem State.setStack_ioDies (s : State) (i : Nat) (d : Stack) : (s.setStack i d).ioDies = s.ioDies := rfl
@[simp] theorem State.setStack_ports (s : State) (i : Nat) (d : Stack) : (s.setStack i d).ports = s.ports := rfl
@[simp] theorem State.setStack_host (s : State) (i : Nat) (d : Stack) : (s.setStack i d).host = s.host := rfl
@[simp] theorem State.setStack_log (s : State) (i : Nat) (d : Stack) : (s.setStack i d).log = s.log := rfl
@[simp] theorem State.setStack_irq (s : State) (i : Nat) (d : Stack) : (s.setStack i d).irq = s.irq := rfl
@[simp] theorem State.setStack_cmds (s : State) (i : Nat) (d : Stack) : (s.setStack i d).cmds = s.cmds := rfl
@[simp] theorem State.setStack_units (s : State) (i : Nat) (d : Stack) : (s.setStack i d).units = s.units := rfl
@[simp] theorem State.setStack_power (s : State) (i : Nat) (d : Stack) : (s.setStack i d).power = s.power := rfl
@[simp] theorem State.setStack_thermal (s : State) (i : Nat) (d : Stack) : (s.setStack i d).thermal = s.thermal := rfl
@[simp] theorem State.setStack_security (s : State) (i : Nat) (d : Stack) : (s.setStack i d).security = s.security := rfl
@[simp] theorem State.setStack_group (s : State) (i : Nat) (d : Stack) : (s.setStack i d).group = s.group := rfl

/-! ### State.setPort -/

@[simp] theorem State.setPort_pending (s : State) (i : Nat) (d : Port) : (s.setPort i d).pending = s.pending := rfl
@[simp] theorem State.setPort_free (s : State) (i : Nat) (d : Port) : (s.setPort i d).free = s.free := rfl
@[simp] theorem State.setPort_mem (s : State) (i : Nat) (d : Port) : (s.setPort i d).mem = s.mem := rfl
@[simp] theorem State.setPort_poison (s : State) (i : Nat) (d : Port) : (s.setPort i d).poison = s.poison := rfl
@[simp] theorem State.setPort_hostMem (s : State) (i : Nat) (d : Port) : (s.setPort i d).hostMem = s.hostMem := rfl
@[simp] theorem State.setPort_fuses (s : State) (i : Nat) (d : Port) : (s.setPort i d).fuses = s.fuses := rfl
@[simp] theorem State.setPort_flash (s : State) (i : Nat) (d : Port) : (s.setPort i d).flash = s.flash := rfl
@[simp] theorem State.setPort_pins (s : State) (i : Nat) (d : Port) : (s.setPort i d).pins = s.pins := rfl
@[simp] theorem State.setPort_straps (s : State) (i : Nat) (d : Port) : (s.setPort i d).straps = s.straps := rfl
@[simp] theorem State.setPort_boot (s : State) (i : Nat) (d : Port) : (s.setPort i d).boot = s.boot := rfl
@[simp] theorem State.setPort_clock (s : State) (i : Nat) (d : Port) : (s.setPort i d).clock = s.clock := rfl
@[simp] theorem State.setPort_settings (s : State) (i : Nat) (d : Port) : (s.setPort i d).settings = s.settings := rfl
@[simp] theorem State.setPort_plan (s : State) (i : Nat) (d : Port) : (s.setPort i d).plan = s.plan := rfl
@[simp] theorem State.setPort_aliases (s : State) (i : Nat) (d : Port) : (s.setPort i d).aliases = s.aliases := rfl
@[simp] theorem State.setPort_step (s : State) (i : Nat) (d : Port) : (s.setPort i d).step = s.step := rfl
@[simp] theorem State.setPort_cores (s : State) (i : Nat) (d : Port) : (s.setPort i d).cores = s.cores := rfl
@[simp] theorem State.setPort_agents (s : State) (i : Nat) (d : Port) : (s.setPort i d).agents = s.agents := rfl
@[simp] theorem State.setPort_clusters (s : State) (i : Nat) (d : Port) : (s.setPort i d).clusters = s.clusters := rfl
@[simp] theorem State.setPort_fabric (s : State) (i : Nat) (d : Port) : (s.setPort i d).fabric = s.fabric := rfl
@[simp] theorem State.setPort_ioDies (s : State) (i : Nat) (d : Port) : (s.setPort i d).ioDies = s.ioDies := rfl
@[simp] theorem State.setPort_hbm (s : State) (i : Nat) (d : Port) : (s.setPort i d).hbm = s.hbm := rfl
@[simp] theorem State.setPort_host (s : State) (i : Nat) (d : Port) : (s.setPort i d).host = s.host := rfl
@[simp] theorem State.setPort_log (s : State) (i : Nat) (d : Port) : (s.setPort i d).log = s.log := rfl
@[simp] theorem State.setPort_irq (s : State) (i : Nat) (d : Port) : (s.setPort i d).irq = s.irq := rfl
@[simp] theorem State.setPort_cmds (s : State) (i : Nat) (d : Port) : (s.setPort i d).cmds = s.cmds := rfl
@[simp] theorem State.setPort_units (s : State) (i : Nat) (d : Port) : (s.setPort i d).units = s.units := rfl
@[simp] theorem State.setPort_power (s : State) (i : Nat) (d : Port) : (s.setPort i d).power = s.power := rfl
@[simp] theorem State.setPort_thermal (s : State) (i : Nat) (d : Port) : (s.setPort i d).thermal = s.thermal := rfl
@[simp] theorem State.setPort_security (s : State) (i : Nat) (d : Port) : (s.setPort i d).security = s.security := rfl
@[simp] theorem State.setPort_group (s : State) (i : Nat) (d : Port) : (s.setPort i d).group = s.group := rfl

/-! ### State.setPair -/

@[simp] theorem State.setPair_pending (s : State) (i : Nat) (d : Pair) : (s.setPair i d).pending = s.pending := rfl
@[simp] theorem State.setPair_free (s : State) (i : Nat) (d : Pair) : (s.setPair i d).free = s.free := rfl
@[simp] theorem State.setPair_mem (s : State) (i : Nat) (d : Pair) : (s.setPair i d).mem = s.mem := rfl
@[simp] theorem State.setPair_poison (s : State) (i : Nat) (d : Pair) : (s.setPair i d).poison = s.poison := rfl
@[simp] theorem State.setPair_hostMem (s : State) (i : Nat) (d : Pair) : (s.setPair i d).hostMem = s.hostMem := rfl
@[simp] theorem State.setPair_fuses (s : State) (i : Nat) (d : Pair) : (s.setPair i d).fuses = s.fuses := rfl
@[simp] theorem State.setPair_flash (s : State) (i : Nat) (d : Pair) : (s.setPair i d).flash = s.flash := rfl
@[simp] theorem State.setPair_pins (s : State) (i : Nat) (d : Pair) : (s.setPair i d).pins = s.pins := rfl
@[simp] theorem State.setPair_straps (s : State) (i : Nat) (d : Pair) : (s.setPair i d).straps = s.straps := rfl
@[simp] theorem State.setPair_boot (s : State) (i : Nat) (d : Pair) : (s.setPair i d).boot = s.boot := rfl
@[simp] theorem State.setPair_clock (s : State) (i : Nat) (d : Pair) : (s.setPair i d).clock = s.clock := rfl
@[simp] theorem State.setPair_settings (s : State) (i : Nat) (d : Pair) : (s.setPair i d).settings = s.settings := rfl
@[simp] theorem State.setPair_plan (s : State) (i : Nat) (d : Pair) : (s.setPair i d).plan = s.plan := rfl
@[simp] theorem State.setPair_aliases (s : State) (i : Nat) (d : Pair) : (s.setPair i d).aliases = s.aliases := rfl
@[simp] theorem State.setPair_step (s : State) (i : Nat) (d : Pair) : (s.setPair i d).step = s.step := rfl
@[simp] theorem State.setPair_cores (s : State) (i : Nat) (d : Pair) : (s.setPair i d).cores = s.cores := rfl
@[simp] theorem State.setPair_agents (s : State) (i : Nat) (d : Pair) : (s.setPair i d).agents = s.agents := rfl
@[simp] theorem State.setPair_clusters (s : State) (i : Nat) (d : Pair) : (s.setPair i d).clusters = s.clusters := rfl
@[simp] theorem State.setPair_fabric (s : State) (i : Nat) (d : Pair) : (s.setPair i d).fabric = s.fabric := rfl
@[simp] theorem State.setPair_ioDies (s : State) (i : Nat) (d : Pair) : (s.setPair i d).ioDies = s.ioDies := rfl
@[simp] theorem State.setPair_hbm (s : State) (i : Nat) (d : Pair) : (s.setPair i d).hbm = s.hbm := rfl
@[simp] theorem State.setPair_ports (s : State) (i : Nat) (d : Pair) : (s.setPair i d).ports = s.ports := rfl
@[simp] theorem State.setPair_host (s : State) (i : Nat) (d : Pair) : (s.setPair i d).host = s.host := rfl
@[simp] theorem State.setPair_log (s : State) (i : Nat) (d : Pair) : (s.setPair i d).log = s.log := rfl
@[simp] theorem State.setPair_irq (s : State) (i : Nat) (d : Pair) : (s.setPair i d).irq = s.irq := rfl
@[simp] theorem State.setPair_cmds (s : State) (i : Nat) (d : Pair) : (s.setPair i d).cmds = s.cmds := rfl
@[simp] theorem State.setPair_units (s : State) (i : Nat) (d : Pair) : (s.setPair i d).units = s.units := rfl
@[simp] theorem State.setPair_power (s : State) (i : Nat) (d : Pair) : (s.setPair i d).power = s.power := rfl
@[simp] theorem State.setPair_security (s : State) (i : Nat) (d : Pair) : (s.setPair i d).security = s.security := rfl
@[simp] theorem State.setPair_group (s : State) (i : Nat) (d : Pair) : (s.setPair i d).group = s.group := rfl

/-! ### State.setDieClock -/

@[simp] theorem State.setDieClock_pending (s : State) (i : Nat) (d : DieClock) : (s.setDieClock i d).pending = s.pending := rfl
@[simp] theorem State.setDieClock_free (s : State) (i : Nat) (d : DieClock) : (s.setDieClock i d).free = s.free := rfl
@[simp] theorem State.setDieClock_mem (s : State) (i : Nat) (d : DieClock) : (s.setDieClock i d).mem = s.mem := rfl
@[simp] theorem State.setDieClock_poison (s : State) (i : Nat) (d : DieClock) : (s.setDieClock i d).poison = s.poison := rfl
@[simp] theorem State.setDieClock_hostMem (s : State) (i : Nat) (d : DieClock) : (s.setDieClock i d).hostMem = s.hostMem := rfl
@[simp] theorem State.setDieClock_fuses (s : State) (i : Nat) (d : DieClock) : (s.setDieClock i d).fuses = s.fuses := rfl
@[simp] theorem State.setDieClock_flash (s : State) (i : Nat) (d : DieClock) : (s.setDieClock i d).flash = s.flash := rfl
@[simp] theorem State.setDieClock_pins (s : State) (i : Nat) (d : DieClock) : (s.setDieClock i d).pins = s.pins := rfl
@[simp] theorem State.setDieClock_straps (s : State) (i : Nat) (d : DieClock) : (s.setDieClock i d).straps = s.straps := rfl
@[simp] theorem State.setDieClock_boot (s : State) (i : Nat) (d : DieClock) : (s.setDieClock i d).boot = s.boot := rfl
@[simp] theorem State.setDieClock_settings (s : State) (i : Nat) (d : DieClock) : (s.setDieClock i d).settings = s.settings := rfl
@[simp] theorem State.setDieClock_plan (s : State) (i : Nat) (d : DieClock) : (s.setDieClock i d).plan = s.plan := rfl
@[simp] theorem State.setDieClock_aliases (s : State) (i : Nat) (d : DieClock) : (s.setDieClock i d).aliases = s.aliases := rfl
@[simp] theorem State.setDieClock_step (s : State) (i : Nat) (d : DieClock) : (s.setDieClock i d).step = s.step := rfl
@[simp] theorem State.setDieClock_cores (s : State) (i : Nat) (d : DieClock) : (s.setDieClock i d).cores = s.cores := rfl
@[simp] theorem State.setDieClock_agents (s : State) (i : Nat) (d : DieClock) : (s.setDieClock i d).agents = s.agents := rfl
@[simp] theorem State.setDieClock_clusters (s : State) (i : Nat) (d : DieClock) : (s.setDieClock i d).clusters = s.clusters := rfl
@[simp] theorem State.setDieClock_fabric (s : State) (i : Nat) (d : DieClock) : (s.setDieClock i d).fabric = s.fabric := rfl
@[simp] theorem State.setDieClock_ioDies (s : State) (i : Nat) (d : DieClock) : (s.setDieClock i d).ioDies = s.ioDies := rfl
@[simp] theorem State.setDieClock_hbm (s : State) (i : Nat) (d : DieClock) : (s.setDieClock i d).hbm = s.hbm := rfl
@[simp] theorem State.setDieClock_ports (s : State) (i : Nat) (d : DieClock) : (s.setDieClock i d).ports = s.ports := rfl
@[simp] theorem State.setDieClock_host (s : State) (i : Nat) (d : DieClock) : (s.setDieClock i d).host = s.host := rfl
@[simp] theorem State.setDieClock_log (s : State) (i : Nat) (d : DieClock) : (s.setDieClock i d).log = s.log := rfl
@[simp] theorem State.setDieClock_irq (s : State) (i : Nat) (d : DieClock) : (s.setDieClock i d).irq = s.irq := rfl
@[simp] theorem State.setDieClock_cmds (s : State) (i : Nat) (d : DieClock) : (s.setDieClock i d).cmds = s.cmds := rfl
@[simp] theorem State.setDieClock_units (s : State) (i : Nat) (d : DieClock) : (s.setDieClock i d).units = s.units := rfl
@[simp] theorem State.setDieClock_power (s : State) (i : Nat) (d : DieClock) : (s.setDieClock i d).power = s.power := rfl
@[simp] theorem State.setDieClock_thermal (s : State) (i : Nat) (d : DieClock) : (s.setDieClock i d).thermal = s.thermal := rfl
@[simp] theorem State.setDieClock_security (s : State) (i : Nat) (d : DieClock) : (s.setDieClock i d).security = s.security := rfl
@[simp] theorem State.setDieClock_group (s : State) (i : Nat) (d : DieClock) : (s.setDieClock i d).group = s.group := rfl

/-! ### State.markPoison -/

@[simp] theorem State.markPoison_pending (s : State) (a : Nat) (p : Bool) : (s.markPoison a p).pending = s.pending := rfl
@[simp] theorem State.markPoison_free (s : State) (a : Nat) (p : Bool) : (s.markPoison a p).free = s.free := rfl
@[simp] theorem State.markPoison_mem (s : State) (a : Nat) (p : Bool) : (s.markPoison a p).mem = s.mem := rfl
@[simp] theorem State.markPoison_hostMem (s : State) (a : Nat) (p : Bool) : (s.markPoison a p).hostMem = s.hostMem := rfl
@[simp] theorem State.markPoison_fuses (s : State) (a : Nat) (p : Bool) : (s.markPoison a p).fuses = s.fuses := rfl
@[simp] theorem State.markPoison_flash (s : State) (a : Nat) (p : Bool) : (s.markPoison a p).flash = s.flash := rfl
@[simp] theorem State.markPoison_pins (s : State) (a : Nat) (p : Bool) : (s.markPoison a p).pins = s.pins := rfl
@[simp] theorem State.markPoison_straps (s : State) (a : Nat) (p : Bool) : (s.markPoison a p).straps = s.straps := rfl
@[simp] theorem State.markPoison_boot (s : State) (a : Nat) (p : Bool) : (s.markPoison a p).boot = s.boot := rfl
@[simp] theorem State.markPoison_clock (s : State) (a : Nat) (p : Bool) : (s.markPoison a p).clock = s.clock := rfl
@[simp] theorem State.markPoison_settings (s : State) (a : Nat) (p : Bool) : (s.markPoison a p).settings = s.settings := rfl
@[simp] theorem State.markPoison_plan (s : State) (a : Nat) (p : Bool) : (s.markPoison a p).plan = s.plan := rfl
@[simp] theorem State.markPoison_aliases (s : State) (a : Nat) (p : Bool) : (s.markPoison a p).aliases = s.aliases := rfl
@[simp] theorem State.markPoison_step (s : State) (a : Nat) (p : Bool) : (s.markPoison a p).step = s.step := rfl
@[simp] theorem State.markPoison_cores (s : State) (a : Nat) (p : Bool) : (s.markPoison a p).cores = s.cores := rfl
@[simp] theorem State.markPoison_agents (s : State) (a : Nat) (p : Bool) : (s.markPoison a p).agents = s.agents := rfl
@[simp] theorem State.markPoison_clusters (s : State) (a : Nat) (p : Bool) : (s.markPoison a p).clusters = s.clusters := rfl
@[simp] theorem State.markPoison_fabric (s : State) (a : Nat) (p : Bool) : (s.markPoison a p).fabric = s.fabric := rfl
@[simp] theorem State.markPoison_ioDies (s : State) (a : Nat) (p : Bool) : (s.markPoison a p).ioDies = s.ioDies := rfl
@[simp] theorem State.markPoison_hbm (s : State) (a : Nat) (p : Bool) : (s.markPoison a p).hbm = s.hbm := rfl
@[simp] theorem State.markPoison_ports (s : State) (a : Nat) (p : Bool) : (s.markPoison a p).ports = s.ports := rfl
@[simp] theorem State.markPoison_host (s : State) (a : Nat) (p : Bool) : (s.markPoison a p).host = s.host := rfl
@[simp] theorem State.markPoison_log (s : State) (a : Nat) (p : Bool) : (s.markPoison a p).log = s.log := rfl
@[simp] theorem State.markPoison_irq (s : State) (a : Nat) (p : Bool) : (s.markPoison a p).irq = s.irq := rfl
@[simp] theorem State.markPoison_cmds (s : State) (a : Nat) (p : Bool) : (s.markPoison a p).cmds = s.cmds := rfl
@[simp] theorem State.markPoison_units (s : State) (a : Nat) (p : Bool) : (s.markPoison a p).units = s.units := rfl
@[simp] theorem State.markPoison_power (s : State) (a : Nat) (p : Bool) : (s.markPoison a p).power = s.power := rfl
@[simp] theorem State.markPoison_thermal (s : State) (a : Nat) (p : Bool) : (s.markPoison a p).thermal = s.thermal := rfl
@[simp] theorem State.markPoison_security (s : State) (a : Nat) (p : Bool) : (s.markPoison a p).security = s.security := rfl
@[simp] theorem State.markPoison_group (s : State) (a : Nat) (p : Bool) : (s.markPoison a p).group = s.group := rfl

/-! ### State.writeRow -/

@[simp] theorem State.writeRow_pending (s : State) (a : Nat) (bs : List Byte) (p : Bool) : (s.writeRow a bs p).pending = s.pending := rfl
@[simp] theorem State.writeRow_free (s : State) (a : Nat) (bs : List Byte) (p : Bool) : (s.writeRow a bs p).free = s.free := rfl
@[simp] theorem State.writeRow_hostMem (s : State) (a : Nat) (bs : List Byte) (p : Bool) : (s.writeRow a bs p).hostMem = s.hostMem := rfl
@[simp] theorem State.writeRow_fuses (s : State) (a : Nat) (bs : List Byte) (p : Bool) : (s.writeRow a bs p).fuses = s.fuses := rfl
@[simp] theorem State.writeRow_flash (s : State) (a : Nat) (bs : List Byte) (p : Bool) : (s.writeRow a bs p).flash = s.flash := rfl
@[simp] theorem State.writeRow_pins (s : State) (a : Nat) (bs : List Byte) (p : Bool) : (s.writeRow a bs p).pins = s.pins := rfl
@[simp] theorem State.writeRow_straps (s : State) (a : Nat) (bs : List Byte) (p : Bool) : (s.writeRow a bs p).straps = s.straps := rfl
@[simp] theorem State.writeRow_boot (s : State) (a : Nat) (bs : List Byte) (p : Bool) : (s.writeRow a bs p).boot = s.boot := rfl
@[simp] theorem State.writeRow_clock (s : State) (a : Nat) (bs : List Byte) (p : Bool) : (s.writeRow a bs p).clock = s.clock := rfl
@[simp] theorem State.writeRow_settings (s : State) (a : Nat) (bs : List Byte) (p : Bool) : (s.writeRow a bs p).settings = s.settings := rfl
@[simp] theorem State.writeRow_plan (s : State) (a : Nat) (bs : List Byte) (p : Bool) : (s.writeRow a bs p).plan = s.plan := rfl
@[simp] theorem State.writeRow_aliases (s : State) (a : Nat) (bs : List Byte) (p : Bool) : (s.writeRow a bs p).aliases = s.aliases := rfl
@[simp] theorem State.writeRow_step (s : State) (a : Nat) (bs : List Byte) (p : Bool) : (s.writeRow a bs p).step = s.step := rfl
@[simp] theorem State.writeRow_cores (s : State) (a : Nat) (bs : List Byte) (p : Bool) : (s.writeRow a bs p).cores = s.cores := rfl
@[simp] theorem State.writeRow_agents (s : State) (a : Nat) (bs : List Byte) (p : Bool) : (s.writeRow a bs p).agents = s.agents := rfl
@[simp] theorem State.writeRow_clusters (s : State) (a : Nat) (bs : List Byte) (p : Bool) : (s.writeRow a bs p).clusters = s.clusters := rfl
@[simp] theorem State.writeRow_fabric (s : State) (a : Nat) (bs : List Byte) (p : Bool) : (s.writeRow a bs p).fabric = s.fabric := rfl
@[simp] theorem State.writeRow_ioDies (s : State) (a : Nat) (bs : List Byte) (p : Bool) : (s.writeRow a bs p).ioDies = s.ioDies := rfl
@[simp] theorem State.writeRow_hbm (s : State) (a : Nat) (bs : List Byte) (p : Bool) : (s.writeRow a bs p).hbm = s.hbm := rfl
@[simp] theorem State.writeRow_ports (s : State) (a : Nat) (bs : List Byte) (p : Bool) : (s.writeRow a bs p).ports = s.ports := rfl
@[simp] theorem State.writeRow_host (s : State) (a : Nat) (bs : List Byte) (p : Bool) : (s.writeRow a bs p).host = s.host := rfl
@[simp] theorem State.writeRow_log (s : State) (a : Nat) (bs : List Byte) (p : Bool) : (s.writeRow a bs p).log = s.log := rfl
@[simp] theorem State.writeRow_irq (s : State) (a : Nat) (bs : List Byte) (p : Bool) : (s.writeRow a bs p).irq = s.irq := rfl
@[simp] theorem State.writeRow_cmds (s : State) (a : Nat) (bs : List Byte) (p : Bool) : (s.writeRow a bs p).cmds = s.cmds := rfl
@[simp] theorem State.writeRow_units (s : State) (a : Nat) (bs : List Byte) (p : Bool) : (s.writeRow a bs p).units = s.units := rfl
@[simp] theorem State.writeRow_power (s : State) (a : Nat) (bs : List Byte) (p : Bool) : (s.writeRow a bs p).power = s.power := rfl
@[simp] theorem State.writeRow_thermal (s : State) (a : Nat) (bs : List Byte) (p : Bool) : (s.writeRow a bs p).thermal = s.thermal := rfl
@[simp] theorem State.writeRow_security (s : State) (a : Nat) (bs : List Byte) (p : Bool) : (s.writeRow a bs p).security = s.security := rfl
@[simp] theorem State.writeRow_group (s : State) (a : Nat) (bs : List Byte) (p : Bool) : (s.writeRow a bs p).group = s.group := rfl

/-! ### State.writeHost -/

@[simp] theorem State.writeHost_pending (s : State) (a : Nat) (bs : List Byte) : (s.writeHost a bs).pending = s.pending := rfl
@[simp] theorem State.writeHost_free (s : State) (a : Nat) (bs : List Byte) : (s.writeHost a bs).free = s.free := rfl
@[simp] theorem State.writeHost_mem (s : State) (a : Nat) (bs : List Byte) : (s.writeHost a bs).mem = s.mem := rfl
@[simp] theorem State.writeHost_poison (s : State) (a : Nat) (bs : List Byte) : (s.writeHost a bs).poison = s.poison := rfl
@[simp] theorem State.writeHost_fuses (s : State) (a : Nat) (bs : List Byte) : (s.writeHost a bs).fuses = s.fuses := rfl
@[simp] theorem State.writeHost_flash (s : State) (a : Nat) (bs : List Byte) : (s.writeHost a bs).flash = s.flash := rfl
@[simp] theorem State.writeHost_pins (s : State) (a : Nat) (bs : List Byte) : (s.writeHost a bs).pins = s.pins := rfl
@[simp] theorem State.writeHost_straps (s : State) (a : Nat) (bs : List Byte) : (s.writeHost a bs).straps = s.straps := rfl
@[simp] theorem State.writeHost_boot (s : State) (a : Nat) (bs : List Byte) : (s.writeHost a bs).boot = s.boot := rfl
@[simp] theorem State.writeHost_clock (s : State) (a : Nat) (bs : List Byte) : (s.writeHost a bs).clock = s.clock := rfl
@[simp] theorem State.writeHost_settings (s : State) (a : Nat) (bs : List Byte) : (s.writeHost a bs).settings = s.settings := rfl
@[simp] theorem State.writeHost_plan (s : State) (a : Nat) (bs : List Byte) : (s.writeHost a bs).plan = s.plan := rfl
@[simp] theorem State.writeHost_aliases (s : State) (a : Nat) (bs : List Byte) : (s.writeHost a bs).aliases = s.aliases := rfl
@[simp] theorem State.writeHost_step (s : State) (a : Nat) (bs : List Byte) : (s.writeHost a bs).step = s.step := rfl
@[simp] theorem State.writeHost_cores (s : State) (a : Nat) (bs : List Byte) : (s.writeHost a bs).cores = s.cores := rfl
@[simp] theorem State.writeHost_agents (s : State) (a : Nat) (bs : List Byte) : (s.writeHost a bs).agents = s.agents := rfl
@[simp] theorem State.writeHost_clusters (s : State) (a : Nat) (bs : List Byte) : (s.writeHost a bs).clusters = s.clusters := rfl
@[simp] theorem State.writeHost_fabric (s : State) (a : Nat) (bs : List Byte) : (s.writeHost a bs).fabric = s.fabric := rfl
@[simp] theorem State.writeHost_ioDies (s : State) (a : Nat) (bs : List Byte) : (s.writeHost a bs).ioDies = s.ioDies := rfl
@[simp] theorem State.writeHost_hbm (s : State) (a : Nat) (bs : List Byte) : (s.writeHost a bs).hbm = s.hbm := rfl
@[simp] theorem State.writeHost_ports (s : State) (a : Nat) (bs : List Byte) : (s.writeHost a bs).ports = s.ports := rfl
@[simp] theorem State.writeHost_log (s : State) (a : Nat) (bs : List Byte) : (s.writeHost a bs).log = s.log := rfl
@[simp] theorem State.writeHost_irq (s : State) (a : Nat) (bs : List Byte) : (s.writeHost a bs).irq = s.irq := rfl
@[simp] theorem State.writeHost_cmds (s : State) (a : Nat) (bs : List Byte) : (s.writeHost a bs).cmds = s.cmds := rfl
@[simp] theorem State.writeHost_units (s : State) (a : Nat) (bs : List Byte) : (s.writeHost a bs).units = s.units := rfl
@[simp] theorem State.writeHost_power (s : State) (a : Nat) (bs : List Byte) : (s.writeHost a bs).power = s.power := rfl
@[simp] theorem State.writeHost_thermal (s : State) (a : Nat) (bs : List Byte) : (s.writeHost a bs).thermal = s.thermal := rfl
@[simp] theorem State.writeHost_security (s : State) (a : Nat) (bs : List Byte) : (s.writeHost a bs).security = s.security := rfl
@[simp] theorem State.writeHost_group (s : State) (a : Nat) (bs : List Byte) : (s.writeHost a bs).group = s.group := rfl

/-! ### State.takeFree -/

@[simp] theorem State.takeFree_pending (s : State) (n : Nat) : (s.takeFree n).pending = s.pending := rfl
@[simp] theorem State.takeFree_mem (s : State) (n : Nat) : (s.takeFree n).mem = s.mem := rfl
@[simp] theorem State.takeFree_poison (s : State) (n : Nat) : (s.takeFree n).poison = s.poison := rfl
@[simp] theorem State.takeFree_hostMem (s : State) (n : Nat) : (s.takeFree n).hostMem = s.hostMem := rfl
@[simp] theorem State.takeFree_fuses (s : State) (n : Nat) : (s.takeFree n).fuses = s.fuses := rfl
@[simp] theorem State.takeFree_flash (s : State) (n : Nat) : (s.takeFree n).flash = s.flash := rfl
@[simp] theorem State.takeFree_pins (s : State) (n : Nat) : (s.takeFree n).pins = s.pins := rfl
@[simp] theorem State.takeFree_straps (s : State) (n : Nat) : (s.takeFree n).straps = s.straps := rfl
@[simp] theorem State.takeFree_boot (s : State) (n : Nat) : (s.takeFree n).boot = s.boot := rfl
@[simp] theorem State.takeFree_clock (s : State) (n : Nat) : (s.takeFree n).clock = s.clock := rfl
@[simp] theorem State.takeFree_settings (s : State) (n : Nat) : (s.takeFree n).settings = s.settings := rfl
@[simp] theorem State.takeFree_plan (s : State) (n : Nat) : (s.takeFree n).plan = s.plan := rfl
@[simp] theorem State.takeFree_aliases (s : State) (n : Nat) : (s.takeFree n).aliases = s.aliases := rfl
@[simp] theorem State.takeFree_step (s : State) (n : Nat) : (s.takeFree n).step = s.step := rfl
@[simp] theorem State.takeFree_cores (s : State) (n : Nat) : (s.takeFree n).cores = s.cores := rfl
@[simp] theorem State.takeFree_agents (s : State) (n : Nat) : (s.takeFree n).agents = s.agents := rfl
@[simp] theorem State.takeFree_clusters (s : State) (n : Nat) : (s.takeFree n).clusters = s.clusters := rfl
@[simp] theorem State.takeFree_fabric (s : State) (n : Nat) : (s.takeFree n).fabric = s.fabric := rfl
@[simp] theorem State.takeFree_ioDies (s : State) (n : Nat) : (s.takeFree n).ioDies = s.ioDies := rfl
@[simp] theorem State.takeFree_hbm (s : State) (n : Nat) : (s.takeFree n).hbm = s.hbm := rfl
@[simp] theorem State.takeFree_ports (s : State) (n : Nat) : (s.takeFree n).ports = s.ports := rfl
@[simp] theorem State.takeFree_host (s : State) (n : Nat) : (s.takeFree n).host = s.host := rfl
@[simp] theorem State.takeFree_log (s : State) (n : Nat) : (s.takeFree n).log = s.log := rfl
@[simp] theorem State.takeFree_irq (s : State) (n : Nat) : (s.takeFree n).irq = s.irq := rfl
@[simp] theorem State.takeFree_cmds (s : State) (n : Nat) : (s.takeFree n).cmds = s.cmds := rfl
@[simp] theorem State.takeFree_units (s : State) (n : Nat) : (s.takeFree n).units = s.units := rfl
@[simp] theorem State.takeFree_power (s : State) (n : Nat) : (s.takeFree n).power = s.power := rfl
@[simp] theorem State.takeFree_thermal (s : State) (n : Nat) : (s.takeFree n).thermal = s.thermal := rfl
@[simp] theorem State.takeFree_security (s : State) (n : Nat) : (s.takeFree n).security = s.security := rfl
@[simp] theorem State.takeFree_group (s : State) (n : Nat) : (s.takeFree n).group = s.group := rfl

/-! ### State.advanceTo -/

@[simp] theorem State.advanceTo_pending (s : State) (t : Nat) : (s.advanceTo t).pending = s.pending := rfl
@[simp] theorem State.advanceTo_free (s : State) (t : Nat) : (s.advanceTo t).free = s.free := rfl
@[simp] theorem State.advanceTo_mem (s : State) (t : Nat) : (s.advanceTo t).mem = s.mem := rfl
@[simp] theorem State.advanceTo_poison (s : State) (t : Nat) : (s.advanceTo t).poison = s.poison := rfl
@[simp] theorem State.advanceTo_hostMem (s : State) (t : Nat) : (s.advanceTo t).hostMem = s.hostMem := rfl
@[simp] theorem State.advanceTo_fuses (s : State) (t : Nat) : (s.advanceTo t).fuses = s.fuses := rfl
@[simp] theorem State.advanceTo_flash (s : State) (t : Nat) : (s.advanceTo t).flash = s.flash := rfl
@[simp] theorem State.advanceTo_pins (s : State) (t : Nat) : (s.advanceTo t).pins = s.pins := rfl
@[simp] theorem State.advanceTo_straps (s : State) (t : Nat) : (s.advanceTo t).straps = s.straps := rfl
@[simp] theorem State.advanceTo_boot (s : State) (t : Nat) : (s.advanceTo t).boot = s.boot := rfl
@[simp] theorem State.advanceTo_settings (s : State) (t : Nat) : (s.advanceTo t).settings = s.settings := rfl
@[simp] theorem State.advanceTo_plan (s : State) (t : Nat) : (s.advanceTo t).plan = s.plan := rfl
@[simp] theorem State.advanceTo_aliases (s : State) (t : Nat) : (s.advanceTo t).aliases = s.aliases := rfl
@[simp] theorem State.advanceTo_step (s : State) (t : Nat) : (s.advanceTo t).step = s.step := rfl
@[simp] theorem State.advanceTo_cores (s : State) (t : Nat) : (s.advanceTo t).cores = s.cores := rfl
@[simp] theorem State.advanceTo_agents (s : State) (t : Nat) : (s.advanceTo t).agents = s.agents := rfl
@[simp] theorem State.advanceTo_clusters (s : State) (t : Nat) : (s.advanceTo t).clusters = s.clusters := rfl
@[simp] theorem State.advanceTo_fabric (s : State) (t : Nat) : (s.advanceTo t).fabric = s.fabric := rfl
@[simp] theorem State.advanceTo_ioDies (s : State) (t : Nat) : (s.advanceTo t).ioDies = s.ioDies := rfl
@[simp] theorem State.advanceTo_hbm (s : State) (t : Nat) : (s.advanceTo t).hbm = s.hbm := rfl
@[simp] theorem State.advanceTo_ports (s : State) (t : Nat) : (s.advanceTo t).ports = s.ports := rfl
@[simp] theorem State.advanceTo_host (s : State) (t : Nat) : (s.advanceTo t).host = s.host := rfl
@[simp] theorem State.advanceTo_log (s : State) (t : Nat) : (s.advanceTo t).log = s.log := rfl
@[simp] theorem State.advanceTo_irq (s : State) (t : Nat) : (s.advanceTo t).irq = s.irq := rfl
@[simp] theorem State.advanceTo_cmds (s : State) (t : Nat) : (s.advanceTo t).cmds = s.cmds := rfl
@[simp] theorem State.advanceTo_units (s : State) (t : Nat) : (s.advanceTo t).units = s.units := rfl
@[simp] theorem State.advanceTo_power (s : State) (t : Nat) : (s.advanceTo t).power = s.power := rfl
@[simp] theorem State.advanceTo_thermal (s : State) (t : Nat) : (s.advanceTo t).thermal = s.thermal := rfl
@[simp] theorem State.advanceTo_security (s : State) (t : Nat) : (s.advanceTo t).security = s.security := rfl
@[simp] theorem State.advanceTo_group (s : State) (t : Nat) : (s.advanceTo t).group = s.group := rfl

/-! ### State.pushRec -/

@[simp] theorem State.pushRec_pending (s : State) (r : Rec) : (s.pushRec r).pending = s.pending := rfl
@[simp] theorem State.pushRec_free (s : State) (r : Rec) : (s.pushRec r).free = s.free := rfl
@[simp] theorem State.pushRec_mem (s : State) (r : Rec) : (s.pushRec r).mem = s.mem := rfl
@[simp] theorem State.pushRec_poison (s : State) (r : Rec) : (s.pushRec r).poison = s.poison := rfl
@[simp] theorem State.pushRec_hostMem (s : State) (r : Rec) : (s.pushRec r).hostMem = s.hostMem := rfl
@[simp] theorem State.pushRec_fuses (s : State) (r : Rec) : (s.pushRec r).fuses = s.fuses := rfl
@[simp] theorem State.pushRec_flash (s : State) (r : Rec) : (s.pushRec r).flash = s.flash := rfl
@[simp] theorem State.pushRec_pins (s : State) (r : Rec) : (s.pushRec r).pins = s.pins := rfl
@[simp] theorem State.pushRec_straps (s : State) (r : Rec) : (s.pushRec r).straps = s.straps := rfl
@[simp] theorem State.pushRec_boot (s : State) (r : Rec) : (s.pushRec r).boot = s.boot := rfl
@[simp] theorem State.pushRec_clock (s : State) (r : Rec) : (s.pushRec r).clock = s.clock := rfl
@[simp] theorem State.pushRec_settings (s : State) (r : Rec) : (s.pushRec r).settings = s.settings := rfl
@[simp] theorem State.pushRec_plan (s : State) (r : Rec) : (s.pushRec r).plan = s.plan := rfl
@[simp] theorem State.pushRec_aliases (s : State) (r : Rec) : (s.pushRec r).aliases = s.aliases := rfl
@[simp] theorem State.pushRec_step (s : State) (r : Rec) : (s.pushRec r).step = s.step := rfl
@[simp] theorem State.pushRec_cores (s : State) (r : Rec) : (s.pushRec r).cores = s.cores := rfl
@[simp] theorem State.pushRec_agents (s : State) (r : Rec) : (s.pushRec r).agents = s.agents := rfl
@[simp] theorem State.pushRec_clusters (s : State) (r : Rec) : (s.pushRec r).clusters = s.clusters := rfl
@[simp] theorem State.pushRec_fabric (s : State) (r : Rec) : (s.pushRec r).fabric = s.fabric := rfl
@[simp] theorem State.pushRec_ioDies (s : State) (r : Rec) : (s.pushRec r).ioDies = s.ioDies := rfl
@[simp] theorem State.pushRec_hbm (s : State) (r : Rec) : (s.pushRec r).hbm = s.hbm := rfl
@[simp] theorem State.pushRec_ports (s : State) (r : Rec) : (s.pushRec r).ports = s.ports := rfl
@[simp] theorem State.pushRec_host (s : State) (r : Rec) : (s.pushRec r).host = s.host := rfl
@[simp] theorem State.pushRec_irq (s : State) (r : Rec) : (s.pushRec r).irq = s.irq := rfl
@[simp] theorem State.pushRec_cmds (s : State) (r : Rec) : (s.pushRec r).cmds = s.cmds := rfl
@[simp] theorem State.pushRec_units (s : State) (r : Rec) : (s.pushRec r).units = s.units := rfl
@[simp] theorem State.pushRec_power (s : State) (r : Rec) : (s.pushRec r).power = s.power := rfl
@[simp] theorem State.pushRec_thermal (s : State) (r : Rec) : (s.pushRec r).thermal = s.thermal := rfl
@[simp] theorem State.pushRec_security (s : State) (r : Rec) : (s.pushRec r).security = s.security := rfl
@[simp] theorem State.pushRec_group (s : State) (r : Rec) : (s.pushRec r).group = s.group := rfl

/-! ### State.inject -/

@[simp] theorem State.inject_pending (s : State) (ps : List Packet) : (s.inject ps).pending = s.pending := rfl
@[simp] theorem State.inject_free (s : State) (ps : List Packet) : (s.inject ps).free = s.free := rfl
@[simp] theorem State.inject_mem (s : State) (ps : List Packet) : (s.inject ps).mem = s.mem := rfl
@[simp] theorem State.inject_poison (s : State) (ps : List Packet) : (s.inject ps).poison = s.poison := rfl
@[simp] theorem State.inject_hostMem (s : State) (ps : List Packet) : (s.inject ps).hostMem = s.hostMem := rfl
@[simp] theorem State.inject_fuses (s : State) (ps : List Packet) : (s.inject ps).fuses = s.fuses := rfl
@[simp] theorem State.inject_flash (s : State) (ps : List Packet) : (s.inject ps).flash = s.flash := rfl
@[simp] theorem State.inject_pins (s : State) (ps : List Packet) : (s.inject ps).pins = s.pins := rfl
@[simp] theorem State.inject_straps (s : State) (ps : List Packet) : (s.inject ps).straps = s.straps := rfl
@[simp] theorem State.inject_boot (s : State) (ps : List Packet) : (s.inject ps).boot = s.boot := rfl
@[simp] theorem State.inject_clock (s : State) (ps : List Packet) : (s.inject ps).clock = s.clock := rfl
@[simp] theorem State.inject_settings (s : State) (ps : List Packet) : (s.inject ps).settings = s.settings := rfl
@[simp] theorem State.inject_plan (s : State) (ps : List Packet) : (s.inject ps).plan = s.plan := rfl
@[simp] theorem State.inject_aliases (s : State) (ps : List Packet) : (s.inject ps).aliases = s.aliases := rfl
@[simp] theorem State.inject_step (s : State) (ps : List Packet) : (s.inject ps).step = s.step := rfl
@[simp] theorem State.inject_cores (s : State) (ps : List Packet) : (s.inject ps).cores = s.cores := rfl
@[simp] theorem State.inject_agents (s : State) (ps : List Packet) : (s.inject ps).agents = s.agents := rfl
@[simp] theorem State.inject_clusters (s : State) (ps : List Packet) : (s.inject ps).clusters = s.clusters := rfl
@[simp] theorem State.inject_ioDies (s : State) (ps : List Packet) : (s.inject ps).ioDies = s.ioDies := rfl
@[simp] theorem State.inject_hbm (s : State) (ps : List Packet) : (s.inject ps).hbm = s.hbm := rfl
@[simp] theorem State.inject_ports (s : State) (ps : List Packet) : (s.inject ps).ports = s.ports := rfl
@[simp] theorem State.inject_host (s : State) (ps : List Packet) : (s.inject ps).host = s.host := rfl
@[simp] theorem State.inject_log (s : State) (ps : List Packet) : (s.inject ps).log = s.log := rfl
@[simp] theorem State.inject_irq (s : State) (ps : List Packet) : (s.inject ps).irq = s.irq := rfl
@[simp] theorem State.inject_cmds (s : State) (ps : List Packet) : (s.inject ps).cmds = s.cmds := rfl
@[simp] theorem State.inject_units (s : State) (ps : List Packet) : (s.inject ps).units = s.units := rfl
@[simp] theorem State.inject_power (s : State) (ps : List Packet) : (s.inject ps).power = s.power := rfl
@[simp] theorem State.inject_thermal (s : State) (ps : List Packet) : (s.inject ps).thermal = s.thermal := rfl
@[simp] theorem State.inject_security (s : State) (ps : List Packet) : (s.inject ps).security = s.security := rfl
@[simp] theorem State.inject_group (s : State) (ps : List Packet) : (s.inject ps).group = s.group := rfl

/-! ### State.setPackets -/

@[simp] theorem State.setPackets_pending (s : State) (ps : List Packet) : (s.setPackets ps).pending = s.pending := rfl
@[simp] theorem State.setPackets_free (s : State) (ps : List Packet) : (s.setPackets ps).free = s.free := rfl
@[simp] theorem State.setPackets_mem (s : State) (ps : List Packet) : (s.setPackets ps).mem = s.mem := rfl
@[simp] theorem State.setPackets_poison (s : State) (ps : List Packet) : (s.setPackets ps).poison = s.poison := rfl
@[simp] theorem State.setPackets_hostMem (s : State) (ps : List Packet) : (s.setPackets ps).hostMem = s.hostMem := rfl
@[simp] theorem State.setPackets_fuses (s : State) (ps : List Packet) : (s.setPackets ps).fuses = s.fuses := rfl
@[simp] theorem State.setPackets_flash (s : State) (ps : List Packet) : (s.setPackets ps).flash = s.flash := rfl
@[simp] theorem State.setPackets_pins (s : State) (ps : List Packet) : (s.setPackets ps).pins = s.pins := rfl
@[simp] theorem State.setPackets_straps (s : State) (ps : List Packet) : (s.setPackets ps).straps = s.straps := rfl
@[simp] theorem State.setPackets_boot (s : State) (ps : List Packet) : (s.setPackets ps).boot = s.boot := rfl
@[simp] theorem State.setPackets_clock (s : State) (ps : List Packet) : (s.setPackets ps).clock = s.clock := rfl
@[simp] theorem State.setPackets_settings (s : State) (ps : List Packet) : (s.setPackets ps).settings = s.settings := rfl
@[simp] theorem State.setPackets_plan (s : State) (ps : List Packet) : (s.setPackets ps).plan = s.plan := rfl
@[simp] theorem State.setPackets_aliases (s : State) (ps : List Packet) : (s.setPackets ps).aliases = s.aliases := rfl
@[simp] theorem State.setPackets_step (s : State) (ps : List Packet) : (s.setPackets ps).step = s.step := rfl
@[simp] theorem State.setPackets_cores (s : State) (ps : List Packet) : (s.setPackets ps).cores = s.cores := rfl
@[simp] theorem State.setPackets_agents (s : State) (ps : List Packet) : (s.setPackets ps).agents = s.agents := rfl
@[simp] theorem State.setPackets_clusters (s : State) (ps : List Packet) : (s.setPackets ps).clusters = s.clusters := rfl
@[simp] theorem State.setPackets_ioDies (s : State) (ps : List Packet) : (s.setPackets ps).ioDies = s.ioDies := rfl
@[simp] theorem State.setPackets_hbm (s : State) (ps : List Packet) : (s.setPackets ps).hbm = s.hbm := rfl
@[simp] theorem State.setPackets_ports (s : State) (ps : List Packet) : (s.setPackets ps).ports = s.ports := rfl
@[simp] theorem State.setPackets_host (s : State) (ps : List Packet) : (s.setPackets ps).host = s.host := rfl
@[simp] theorem State.setPackets_log (s : State) (ps : List Packet) : (s.setPackets ps).log = s.log := rfl
@[simp] theorem State.setPackets_irq (s : State) (ps : List Packet) : (s.setPackets ps).irq = s.irq := rfl
@[simp] theorem State.setPackets_cmds (s : State) (ps : List Packet) : (s.setPackets ps).cmds = s.cmds := rfl
@[simp] theorem State.setPackets_units (s : State) (ps : List Packet) : (s.setPackets ps).units = s.units := rfl
@[simp] theorem State.setPackets_power (s : State) (ps : List Packet) : (s.setPackets ps).power = s.power := rfl
@[simp] theorem State.setPackets_thermal (s : State) (ps : List Packet) : (s.setPackets ps).thermal = s.thermal := rfl
@[simp] theorem State.setPackets_security (s : State) (ps : List Packet) : (s.setPackets ps).security = s.security := rfl
@[simp] theorem State.setPackets_group (s : State) (ps : List Packet) : (s.setPackets ps).group = s.group := rfl

/-! ### State.send -/

@[simp] theorem State.send_pending (s : State) (m : GroupMsg) : (s.send m).pending = s.pending := rfl
@[simp] theorem State.send_free (s : State) (m : GroupMsg) : (s.send m).free = s.free := rfl
@[simp] theorem State.send_mem (s : State) (m : GroupMsg) : (s.send m).mem = s.mem := rfl
@[simp] theorem State.send_poison (s : State) (m : GroupMsg) : (s.send m).poison = s.poison := rfl
@[simp] theorem State.send_hostMem (s : State) (m : GroupMsg) : (s.send m).hostMem = s.hostMem := rfl
@[simp] theorem State.send_fuses (s : State) (m : GroupMsg) : (s.send m).fuses = s.fuses := rfl
@[simp] theorem State.send_flash (s : State) (m : GroupMsg) : (s.send m).flash = s.flash := rfl
@[simp] theorem State.send_pins (s : State) (m : GroupMsg) : (s.send m).pins = s.pins := rfl
@[simp] theorem State.send_straps (s : State) (m : GroupMsg) : (s.send m).straps = s.straps := rfl
@[simp] theorem State.send_boot (s : State) (m : GroupMsg) : (s.send m).boot = s.boot := rfl
@[simp] theorem State.send_clock (s : State) (m : GroupMsg) : (s.send m).clock = s.clock := rfl
@[simp] theorem State.send_settings (s : State) (m : GroupMsg) : (s.send m).settings = s.settings := rfl
@[simp] theorem State.send_plan (s : State) (m : GroupMsg) : (s.send m).plan = s.plan := rfl
@[simp] theorem State.send_aliases (s : State) (m : GroupMsg) : (s.send m).aliases = s.aliases := rfl
@[simp] theorem State.send_step (s : State) (m : GroupMsg) : (s.send m).step = s.step := rfl
@[simp] theorem State.send_cores (s : State) (m : GroupMsg) : (s.send m).cores = s.cores := rfl
@[simp] theorem State.send_agents (s : State) (m : GroupMsg) : (s.send m).agents = s.agents := rfl
@[simp] theorem State.send_clusters (s : State) (m : GroupMsg) : (s.send m).clusters = s.clusters := rfl
@[simp] theorem State.send_fabric (s : State) (m : GroupMsg) : (s.send m).fabric = s.fabric := rfl
@[simp] theorem State.send_ioDies (s : State) (m : GroupMsg) : (s.send m).ioDies = s.ioDies := rfl
@[simp] theorem State.send_hbm (s : State) (m : GroupMsg) : (s.send m).hbm = s.hbm := rfl
@[simp] theorem State.send_ports (s : State) (m : GroupMsg) : (s.send m).ports = s.ports := rfl
@[simp] theorem State.send_host (s : State) (m : GroupMsg) : (s.send m).host = s.host := rfl
@[simp] theorem State.send_log (s : State) (m : GroupMsg) : (s.send m).log = s.log := rfl
@[simp] theorem State.send_irq (s : State) (m : GroupMsg) : (s.send m).irq = s.irq := rfl
@[simp] theorem State.send_cmds (s : State) (m : GroupMsg) : (s.send m).cmds = s.cmds := rfl
@[simp] theorem State.send_units (s : State) (m : GroupMsg) : (s.send m).units = s.units := rfl
@[simp] theorem State.send_power (s : State) (m : GroupMsg) : (s.send m).power = s.power := rfl
@[simp] theorem State.send_thermal (s : State) (m : GroupMsg) : (s.send m).thermal = s.thermal := rfl
@[simp] theorem State.send_security (s : State) (m : GroupMsg) : (s.send m).security = s.security := rfl

/-! ### State.setArbiter -/

@[simp] theorem State.setArbiter_pending (s : State) (n : Nat) (a : Arbiter) : (s.setArbiter n a).pending = s.pending := rfl
@[simp] theorem State.setArbiter_free (s : State) (n : Nat) (a : Arbiter) : (s.setArbiter n a).free = s.free := rfl
@[simp] theorem State.setArbiter_mem (s : State) (n : Nat) (a : Arbiter) : (s.setArbiter n a).mem = s.mem := rfl
@[simp] theorem State.setArbiter_poison (s : State) (n : Nat) (a : Arbiter) : (s.setArbiter n a).poison = s.poison := rfl
@[simp] theorem State.setArbiter_hostMem (s : State) (n : Nat) (a : Arbiter) : (s.setArbiter n a).hostMem = s.hostMem := rfl
@[simp] theorem State.setArbiter_fuses (s : State) (n : Nat) (a : Arbiter) : (s.setArbiter n a).fuses = s.fuses := rfl
@[simp] theorem State.setArbiter_flash (s : State) (n : Nat) (a : Arbiter) : (s.setArbiter n a).flash = s.flash := rfl
@[simp] theorem State.setArbiter_pins (s : State) (n : Nat) (a : Arbiter) : (s.setArbiter n a).pins = s.pins := rfl
@[simp] theorem State.setArbiter_straps (s : State) (n : Nat) (a : Arbiter) : (s.setArbiter n a).straps = s.straps := rfl
@[simp] theorem State.setArbiter_boot (s : State) (n : Nat) (a : Arbiter) : (s.setArbiter n a).boot = s.boot := rfl
@[simp] theorem State.setArbiter_clock (s : State) (n : Nat) (a : Arbiter) : (s.setArbiter n a).clock = s.clock := rfl
@[simp] theorem State.setArbiter_settings (s : State) (n : Nat) (a : Arbiter) : (s.setArbiter n a).settings = s.settings := rfl
@[simp] theorem State.setArbiter_plan (s : State) (n : Nat) (a : Arbiter) : (s.setArbiter n a).plan = s.plan := rfl
@[simp] theorem State.setArbiter_aliases (s : State) (n : Nat) (a : Arbiter) : (s.setArbiter n a).aliases = s.aliases := rfl
@[simp] theorem State.setArbiter_step (s : State) (n : Nat) (a : Arbiter) : (s.setArbiter n a).step = s.step := rfl
@[simp] theorem State.setArbiter_cores (s : State) (n : Nat) (a : Arbiter) : (s.setArbiter n a).cores = s.cores := rfl
@[simp] theorem State.setArbiter_agents (s : State) (n : Nat) (a : Arbiter) : (s.setArbiter n a).agents = s.agents := rfl
@[simp] theorem State.setArbiter_clusters (s : State) (n : Nat) (a : Arbiter) : (s.setArbiter n a).clusters = s.clusters := rfl
@[simp] theorem State.setArbiter_ioDies (s : State) (n : Nat) (a : Arbiter) : (s.setArbiter n a).ioDies = s.ioDies := rfl
@[simp] theorem State.setArbiter_hbm (s : State) (n : Nat) (a : Arbiter) : (s.setArbiter n a).hbm = s.hbm := rfl
@[simp] theorem State.setArbiter_ports (s : State) (n : Nat) (a : Arbiter) : (s.setArbiter n a).ports = s.ports := rfl
@[simp] theorem State.setArbiter_host (s : State) (n : Nat) (a : Arbiter) : (s.setArbiter n a).host = s.host := rfl
@[simp] theorem State.setArbiter_log (s : State) (n : Nat) (a : Arbiter) : (s.setArbiter n a).log = s.log := rfl
@[simp] theorem State.setArbiter_irq (s : State) (n : Nat) (a : Arbiter) : (s.setArbiter n a).irq = s.irq := rfl
@[simp] theorem State.setArbiter_cmds (s : State) (n : Nat) (a : Arbiter) : (s.setArbiter n a).cmds = s.cmds := rfl
@[simp] theorem State.setArbiter_units (s : State) (n : Nat) (a : Arbiter) : (s.setArbiter n a).units = s.units := rfl
@[simp] theorem State.setArbiter_power (s : State) (n : Nat) (a : Arbiter) : (s.setArbiter n a).power = s.power := rfl
@[simp] theorem State.setArbiter_thermal (s : State) (n : Nat) (a : Arbiter) : (s.setArbiter n a).thermal = s.thermal := rfl
@[simp] theorem State.setArbiter_security (s : State) (n : Nat) (a : Arbiter) : (s.setArbiter n a).security = s.security := rfl
@[simp] theorem State.setArbiter_group (s : State) (n : Nat) (a : Arbiter) : (s.setArbiter n a).group = s.group := rfl

/-! ### State.modLink -/

@[simp] theorem State.modLink_pending (s : State) (f : Port → Port) : (s.modLink f).pending = s.pending := rfl
@[simp] theorem State.modLink_free (s : State) (f : Port → Port) : (s.modLink f).free = s.free := rfl
@[simp] theorem State.modLink_mem (s : State) (f : Port → Port) : (s.modLink f).mem = s.mem := rfl
@[simp] theorem State.modLink_poison (s : State) (f : Port → Port) : (s.modLink f).poison = s.poison := rfl
@[simp] theorem State.modLink_hostMem (s : State) (f : Port → Port) : (s.modLink f).hostMem = s.hostMem := rfl
@[simp] theorem State.modLink_fuses (s : State) (f : Port → Port) : (s.modLink f).fuses = s.fuses := rfl
@[simp] theorem State.modLink_flash (s : State) (f : Port → Port) : (s.modLink f).flash = s.flash := rfl
@[simp] theorem State.modLink_pins (s : State) (f : Port → Port) : (s.modLink f).pins = s.pins := rfl
@[simp] theorem State.modLink_straps (s : State) (f : Port → Port) : (s.modLink f).straps = s.straps := rfl
@[simp] theorem State.modLink_boot (s : State) (f : Port → Port) : (s.modLink f).boot = s.boot := rfl
@[simp] theorem State.modLink_clock (s : State) (f : Port → Port) : (s.modLink f).clock = s.clock := rfl
@[simp] theorem State.modLink_settings (s : State) (f : Port → Port) : (s.modLink f).settings = s.settings := rfl
@[simp] theorem State.modLink_plan (s : State) (f : Port → Port) : (s.modLink f).plan = s.plan := rfl
@[simp] theorem State.modLink_aliases (s : State) (f : Port → Port) : (s.modLink f).aliases = s.aliases := rfl
@[simp] theorem State.modLink_step (s : State) (f : Port → Port) : (s.modLink f).step = s.step := rfl
@[simp] theorem State.modLink_cores (s : State) (f : Port → Port) : (s.modLink f).cores = s.cores := rfl
@[simp] theorem State.modLink_agents (s : State) (f : Port → Port) : (s.modLink f).agents = s.agents := rfl
@[simp] theorem State.modLink_clusters (s : State) (f : Port → Port) : (s.modLink f).clusters = s.clusters := rfl
@[simp] theorem State.modLink_fabric (s : State) (f : Port → Port) : (s.modLink f).fabric = s.fabric := rfl
@[simp] theorem State.modLink_ioDies (s : State) (f : Port → Port) : (s.modLink f).ioDies = s.ioDies := rfl
@[simp] theorem State.modLink_hbm (s : State) (f : Port → Port) : (s.modLink f).hbm = s.hbm := rfl
@[simp] theorem State.modLink_ports (s : State) (f : Port → Port) : (s.modLink f).ports = s.ports := rfl
@[simp] theorem State.modLink_log (s : State) (f : Port → Port) : (s.modLink f).log = s.log := rfl
@[simp] theorem State.modLink_irq (s : State) (f : Port → Port) : (s.modLink f).irq = s.irq := rfl
@[simp] theorem State.modLink_cmds (s : State) (f : Port → Port) : (s.modLink f).cmds = s.cmds := rfl
@[simp] theorem State.modLink_units (s : State) (f : Port → Port) : (s.modLink f).units = s.units := rfl
@[simp] theorem State.modLink_power (s : State) (f : Port → Port) : (s.modLink f).power = s.power := rfl
@[simp] theorem State.modLink_thermal (s : State) (f : Port → Port) : (s.modLink f).thermal = s.thermal := rfl
@[simp] theorem State.modLink_security (s : State) (f : Port → Port) : (s.modLink f).security = s.security := rfl
@[simp] theorem State.modLink_group (s : State) (f : Port → Port) : (s.modLink f).group = s.group := rfl

/-! ### State.latchAgent -/

@[simp] theorem State.latchAgent_pending (s : State) (p : Nat) (l : AgentLatch) : (s.latchAgent p l).pending = s.pending := rfl
@[simp] theorem State.latchAgent_free (s : State) (p : Nat) (l : AgentLatch) : (s.latchAgent p l).free = s.free := rfl
@[simp] theorem State.latchAgent_mem (s : State) (p : Nat) (l : AgentLatch) : (s.latchAgent p l).mem = s.mem := rfl
@[simp] theorem State.latchAgent_poison (s : State) (p : Nat) (l : AgentLatch) : (s.latchAgent p l).poison = s.poison := rfl
@[simp] theorem State.latchAgent_hostMem (s : State) (p : Nat) (l : AgentLatch) : (s.latchAgent p l).hostMem = s.hostMem := rfl
@[simp] theorem State.latchAgent_fuses (s : State) (p : Nat) (l : AgentLatch) : (s.latchAgent p l).fuses = s.fuses := rfl
@[simp] theorem State.latchAgent_flash (s : State) (p : Nat) (l : AgentLatch) : (s.latchAgent p l).flash = s.flash := rfl
@[simp] theorem State.latchAgent_pins (s : State) (p : Nat) (l : AgentLatch) : (s.latchAgent p l).pins = s.pins := rfl
@[simp] theorem State.latchAgent_straps (s : State) (p : Nat) (l : AgentLatch) : (s.latchAgent p l).straps = s.straps := rfl
@[simp] theorem State.latchAgent_boot (s : State) (p : Nat) (l : AgentLatch) : (s.latchAgent p l).boot = s.boot := rfl
@[simp] theorem State.latchAgent_clock (s : State) (p : Nat) (l : AgentLatch) : (s.latchAgent p l).clock = s.clock := rfl
@[simp] theorem State.latchAgent_settings (s : State) (p : Nat) (l : AgentLatch) : (s.latchAgent p l).settings = s.settings := rfl
@[simp] theorem State.latchAgent_plan (s : State) (p : Nat) (l : AgentLatch) : (s.latchAgent p l).plan = s.plan := rfl
@[simp] theorem State.latchAgent_aliases (s : State) (p : Nat) (l : AgentLatch) : (s.latchAgent p l).aliases = s.aliases := rfl
@[simp] theorem State.latchAgent_step (s : State) (p : Nat) (l : AgentLatch) : (s.latchAgent p l).step = s.step := rfl
@[simp] theorem State.latchAgent_cores (s : State) (p : Nat) (l : AgentLatch) : (s.latchAgent p l).cores = s.cores := rfl
@[simp] theorem State.latchAgent_clusters (s : State) (p : Nat) (l : AgentLatch) : (s.latchAgent p l).clusters = s.clusters := rfl
@[simp] theorem State.latchAgent_fabric (s : State) (p : Nat) (l : AgentLatch) : (s.latchAgent p l).fabric = s.fabric := rfl
@[simp] theorem State.latchAgent_ioDies (s : State) (p : Nat) (l : AgentLatch) : (s.latchAgent p l).ioDies = s.ioDies := rfl
@[simp] theorem State.latchAgent_hbm (s : State) (p : Nat) (l : AgentLatch) : (s.latchAgent p l).hbm = s.hbm := rfl
@[simp] theorem State.latchAgent_ports (s : State) (p : Nat) (l : AgentLatch) : (s.latchAgent p l).ports = s.ports := rfl
@[simp] theorem State.latchAgent_host (s : State) (p : Nat) (l : AgentLatch) : (s.latchAgent p l).host = s.host := rfl
@[simp] theorem State.latchAgent_log (s : State) (p : Nat) (l : AgentLatch) : (s.latchAgent p l).log = s.log := rfl
@[simp] theorem State.latchAgent_irq (s : State) (p : Nat) (l : AgentLatch) : (s.latchAgent p l).irq = s.irq := rfl
@[simp] theorem State.latchAgent_cmds (s : State) (p : Nat) (l : AgentLatch) : (s.latchAgent p l).cmds = s.cmds := rfl
@[simp] theorem State.latchAgent_units (s : State) (p : Nat) (l : AgentLatch) : (s.latchAgent p l).units = s.units := rfl
@[simp] theorem State.latchAgent_power (s : State) (p : Nat) (l : AgentLatch) : (s.latchAgent p l).power = s.power := rfl
@[simp] theorem State.latchAgent_thermal (s : State) (p : Nat) (l : AgentLatch) : (s.latchAgent p l).thermal = s.thermal := rfl
@[simp] theorem State.latchAgent_security (s : State) (p : Nat) (l : AgentLatch) : (s.latchAgent p l).security = s.security := rfl
@[simp] theorem State.latchAgent_group (s : State) (p : Nat) (l : AgentLatch) : (s.latchAgent p l).group = s.group := rfl

/-! ### What the updates write -/

@[simp] theorem State.writeRow_mem (s : State) (a : Nat) (bs : List Byte) (p : Bool) :
    (s.writeRow a bs p).mem = writeBytes s.mem a (fitBytes 512 bs) := rfl
@[simp] theorem State.writeHost_hostMem (s : State) (a : Nat) (bs : List Byte) : (s.writeHost a bs).hostMem = writeBytes s.hostMem a bs := rfl
@[simp] theorem State.takeFree_free (s : State) (n : Nat) : (s.takeFree n).free = s.free + n := rfl
@[simp] theorem State.advanceTo_now (s : State) (t : Nat) : (s.advanceTo t).now = max s.now t := rfl
@[simp] theorem State.pushRec_waiting (s : State) (r : Rec) : (s.pushRec r).log.waiting = s.log.waiting ++ [r] := rfl
@[simp] theorem State.inject_packets (s : State) (ps : List Packet) : (s.inject ps).fabric.packets = s.fabric.packets ++ s.entering s.fabric.nextUid ps := rfl
theorem State.arbiter_setArbiter (s : State) (n : Nat) (a : Arbiter) (m : Nat) :
    (s.setArbiter n a).arbiter m = if m = n then a else s.arbiter m := tget_tset _ _ _ _ _
@[simp] theorem State.modLink_link (s : State) (f : Port → Port) : (s.modLink f).host.link = f s.host.link := rfl
@[simp] theorem State.send_sent (s : State) (m : GroupMsg) : (s.send m).group.sent = s.group.sent ++ [m] := rfl

theorem State.core_setCore (s : State) (c : Nat) (k : Core) (d : Nat) : (s.setCore c k).core d = if d = c then k else s.core d :=
  tget_tset _ _ _ _ _
@[simp] theorem State.core_setCore_same (s : State) (c : Nat) (k : Core) : (s.setCore c k).core c = k := tget_tset_same _ _ _ _
@[simp] theorem State.core_setCore_ne (s : State) (c : Nat) (k : Core) (d : Nat) (h : d ≠ c) : (s.setCore c k).core d = s.core d :=
  tget_tset_ne _ _ _ _ _ h
theorem State.cluster_setCluster (s : State) (c : Nat) (k : Cluster) (d : Nat) :
    (s.setCluster c k).cluster d = if d = c then k else s.cluster d := tget_tset _ _ _ _ _
theorem State.ioDie_setIoDie (s : State) (i : Nat) (d : IoDie) (j : Nat) : (s.setIoDie i d).ioDie j = if j = i then d else s.ioDie j :=
  tget_tset _ _ _ _ _
theorem State.stack_setStack (s : State) (i : Nat) (d : Stack) (j : Nat) : (s.setStack i d).stack j = if j = i then d else s.stack j :=
  tget_tset _ _ _ _ _
theorem State.port_setPort (s : State) (i : Nat) (d : Port) (j : Nat) : (s.setPort i d).port j = if j = i then d else s.port j :=
  tget_tset _ _ _ _ _
theorem State.pair_setPair (s : State) (i : Nat) (d : Pair) (j : Nat) : (s.setPair i d).pair j = if j = i then d else s.pair j :=
  tget_tset _ _ _ _ _
theorem State.dieClock_setDieClock (s : State) (i : Nat) (d : DieClock) (j : Nat) :
    (s.setDieClock i d).dieClock j = if j = i then d else s.dieClock j := tget_tset _ _ _ _ _

/-! ### Applying a change to each element -/

/-- What every change keeps, the whole keeps. -/
theorem forEach_keeps {α : Type} {β : Type} (g : State → α) (xs : List β) (f : β → State → State) (s : State)
    (h : ∀ x s, g (f x s) = g s) : g (forEach xs f s) = g s := by
  unfold forEach
  induction xs generalizing s with
  | nil => rfl
  | cons x xs ih => rw [List.foldl_cons, ih, h]

/-- What holds before and is kept by every change holds after the whole. -/
theorem forEach_holds {β : Type} (p : State → Prop) (xs : List β) (f : β → State → State) (s : State) (h0 : p s)
    (h : ∀ x s, p s → p (f x s)) : p (forEach xs f s) := by
  unfold forEach
  induction xs generalizing s with
  | nil => exact h0
  | cons x xs ih => exact ih _ (h x s h0)

@[simp] theorem forEach_nil {β : Type} (f : β → State → State) (s : State) : forEach [] f s = s := rfl
@[simp] theorem forEach_cons {β : Type} (x : β) (xs : List β) (f : β → State → State) (s : State) :
    forEach (x :: xs) f s = forEach xs f (f x s) := rfl

/-! ### Cores -/

/-! ### Core.setG -/

@[simp] theorem Core.setG_v (k : Core) (i : Nat) (v : BitVec 64) : (k.setG i v).v = k.v := by unfold Core.setG; split <;> rfl
@[simp] theorem Core.setG_ctr (k : Core) (i : Nat) (v : BitVec 64) : (k.setG i v).ctr = k.ctr := by unfold Core.setG; split <;> rfl
@[simp] theorem Core.setG_pc (k : Core) (i : Nat) (v : BitVec 64) : (k.setG i v).pc = k.pc := by unfold Core.setG; split <;> rfl
@[simp] theorem Core.setG_loops (k : Core) (i : Nat) (v : BitVec 64) : (k.setG i v).loops = k.loops := by unfold Core.setG; split <;> rfl
@[simp] theorem Core.setG_sl (k : Core) (i : Nat) (v : BitVec 64) : (k.setG i v).sl = k.sl := by unfold Core.setG; split <;> rfl
@[simp] theorem Core.setG_nv (k : Core) (i : Nat) (v : BitVec 64) : (k.setG i v).nv = k.nv := by unfold Core.setG; split <;> rfl
@[simp] theorem Core.setG_of (k : Core) (i : Nat) (v : BitVec 64) : (k.setG i v).of = k.of := by unfold Core.setG; split <;> rfl
@[simp] theorem Core.setG_wr (k : Core) (i : Nat) (v : BitVec 64) : (k.setG i v).wr = k.wr := by unfold Core.setG; split <;> rfl
@[simp] theorem Core.setG_latch (k : Core) (i : Nat) (v : BitVec 64) : (k.setG i v).latch = k.latch := by unfold Core.setG; split <;> rfl
@[simp] theorem Core.setG_prog (k : Core) (i : Nat) (v : BitVec 64) : (k.setG i v).prog = k.prog := by unfold Core.setG; split <;> rfl
@[simp] theorem Core.setG_acc (k : Core) (i : Nat) (v : BitVec 64) : (k.setG i v).acc = k.acc := by unfold Core.setG; split <;> rfl
@[simp] theorem Core.setG_accValid (k : Core) (i : Nat) (v : BitVec 64) : (k.setG i v).accValid = k.accValid := by unfold Core.setG; split <;> rfl
@[simp] theorem Core.setG_vBad (k : Core) (i : Nat) (v : BitVec 64) : (k.setG i v).vBad = k.vBad := by unfold Core.setG; split <;> rfl
@[simp] theorem Core.setG_accBad (k : Core) (i : Nat) (v : BitVec 64) : (k.setG i v).accBad = k.accBad := by unfold Core.setG; split <;> rfl
@[simp] theorem Core.setG_wbuf0 (k : Core) (i : Nat) (v : BitVec 64) : (k.setG i v).wbuf0 = k.wbuf0 := by unfold Core.setG; split <;> rfl
@[simp] theorem Core.setG_wbuf1 (k : Core) (i : Nat) (v : BitVec 64) : (k.setG i v).wbuf1 = k.wbuf1 := by unfold Core.setG; split <;> rfl
@[simp] theorem Core.setG_slots (k : Core) (i : Nat) (v : BitVec 64) : (k.setG i v).slots = k.slots := by unfold Core.setG; split <;> rfl
@[simp] theorem Core.setG_cycle (k : Core) (i : Nat) (v : BitVec 64) : (k.setG i v).cycle = k.cycle := by unfold Core.setG; split <;> rfl
@[simp] theorem Core.setG_limit (k : Core) (i : Nat) (v : BitVec 64) : (k.setG i v).limit = k.limit := by unfold Core.setG; split <;> rfl
@[simp] theorem Core.setG_frame (k : Core) (i : Nat) (v : BitVec 64) : (k.setG i v).frame = k.frame := by unfold Core.setG; split <;> rfl
@[simp] theorem Core.setG_elem (k : Core) (i : Nat) (v : BitVec 64) : (k.setG i v).elem = k.elem := by unfold Core.setG; split <;> rfl
@[simp] theorem Core.setG_mode (k : Core) (i : Nat) (v : BitVec 64) : (k.setG i v).mode = k.mode := by unfold Core.setG; split <;> rfl
@[simp] theorem Core.setG_overran (k : Core) (i : Nat) (v : BitVec 64) : (k.setG i v).overran = k.overran := by unfold Core.setG; split <;> rfl
@[simp] theorem Core.setG_timing (k : Core) (i : Nat) (v : BitVec 64) : (k.setG i v).timing = k.timing := by unfold Core.setG; split <;> rfl

/-! ### Core.setV -/

@[simp] theorem Core.setV_g (k : Core) (i : Nat) (bs : List Byte) : (k.setV i bs).g = k.g := rfl
@[simp] theorem Core.setV_ctr (k : Core) (i : Nat) (bs : List Byte) : (k.setV i bs).ctr = k.ctr := rfl
@[simp] theorem Core.setV_pc (k : Core) (i : Nat) (bs : List Byte) : (k.setV i bs).pc = k.pc := rfl
@[simp] theorem Core.setV_loops (k : Core) (i : Nat) (bs : List Byte) : (k.setV i bs).loops = k.loops := rfl
@[simp] theorem Core.setV_sl (k : Core) (i : Nat) (bs : List Byte) : (k.setV i bs).sl = k.sl := rfl
@[simp] theorem Core.setV_nv (k : Core) (i : Nat) (bs : List Byte) : (k.setV i bs).nv = k.nv := rfl
@[simp] theorem Core.setV_of (k : Core) (i : Nat) (bs : List Byte) : (k.setV i bs).of = k.of := rfl
@[simp] theorem Core.setV_wr (k : Core) (i : Nat) (bs : List Byte) : (k.setV i bs).wr = k.wr := rfl
@[simp] theorem Core.setV_latch (k : Core) (i : Nat) (bs : List Byte) : (k.setV i bs).latch = k.latch := rfl
@[simp] theorem Core.setV_prog (k : Core) (i : Nat) (bs : List Byte) : (k.setV i bs).prog = k.prog := rfl
@[simp] theorem Core.setV_acc (k : Core) (i : Nat) (bs : List Byte) : (k.setV i bs).acc = k.acc := rfl
@[simp] theorem Core.setV_accValid (k : Core) (i : Nat) (bs : List Byte) : (k.setV i bs).accValid = k.accValid := rfl
@[simp] theorem Core.setV_vBad (k : Core) (i : Nat) (bs : List Byte) : (k.setV i bs).vBad = k.vBad := rfl
@[simp] theorem Core.setV_accBad (k : Core) (i : Nat) (bs : List Byte) : (k.setV i bs).accBad = k.accBad := rfl
@[simp] theorem Core.setV_wbuf0 (k : Core) (i : Nat) (bs : List Byte) : (k.setV i bs).wbuf0 = k.wbuf0 := rfl
@[simp] theorem Core.setV_wbuf1 (k : Core) (i : Nat) (bs : List Byte) : (k.setV i bs).wbuf1 = k.wbuf1 := rfl
@[simp] theorem Core.setV_slots (k : Core) (i : Nat) (bs : List Byte) : (k.setV i bs).slots = k.slots := rfl
@[simp] theorem Core.setV_cycle (k : Core) (i : Nat) (bs : List Byte) : (k.setV i bs).cycle = k.cycle := rfl
@[simp] theorem Core.setV_limit (k : Core) (i : Nat) (bs : List Byte) : (k.setV i bs).limit = k.limit := rfl
@[simp] theorem Core.setV_frame (k : Core) (i : Nat) (bs : List Byte) : (k.setV i bs).frame = k.frame := rfl
@[simp] theorem Core.setV_elem (k : Core) (i : Nat) (bs : List Byte) : (k.setV i bs).elem = k.elem := rfl
@[simp] theorem Core.setV_mode (k : Core) (i : Nat) (bs : List Byte) : (k.setV i bs).mode = k.mode := rfl
@[simp] theorem Core.setV_overran (k : Core) (i : Nat) (bs : List Byte) : (k.setV i bs).overran = k.overran := rfl
@[simp] theorem Core.setV_timing (k : Core) (i : Nat) (bs : List Byte) : (k.setV i bs).timing = k.timing := rfl

/-! ### Core.incC -/

@[simp] theorem Core.incC_g (k : Core) (i : Nat) : (k.incC i).g = k.g := rfl
@[simp] theorem Core.incC_v (k : Core) (i : Nat) : (k.incC i).v = k.v := rfl
@[simp] theorem Core.incC_pc (k : Core) (i : Nat) : (k.incC i).pc = k.pc := rfl
@[simp] theorem Core.incC_loops (k : Core) (i : Nat) : (k.incC i).loops = k.loops := rfl
@[simp] theorem Core.incC_sl (k : Core) (i : Nat) : (k.incC i).sl = k.sl := rfl
@[simp] theorem Core.incC_nv (k : Core) (i : Nat) : (k.incC i).nv = k.nv := rfl
@[simp] theorem Core.incC_of (k : Core) (i : Nat) : (k.incC i).of = k.of := rfl
@[simp] theorem Core.incC_wr (k : Core) (i : Nat) : (k.incC i).wr = k.wr := rfl
@[simp] theorem Core.incC_latch (k : Core) (i : Nat) : (k.incC i).latch = k.latch := rfl
@[simp] theorem Core.incC_prog (k : Core) (i : Nat) : (k.incC i).prog = k.prog := rfl
@[simp] theorem Core.incC_acc (k : Core) (i : Nat) : (k.incC i).acc = k.acc := rfl
@[simp] theorem Core.incC_accValid (k : Core) (i : Nat) : (k.incC i).accValid = k.accValid := rfl
@[simp] theorem Core.incC_vBad (k : Core) (i : Nat) : (k.incC i).vBad = k.vBad := rfl
@[simp] theorem Core.incC_accBad (k : Core) (i : Nat) : (k.incC i).accBad = k.accBad := rfl
@[simp] theorem Core.incC_wbuf0 (k : Core) (i : Nat) : (k.incC i).wbuf0 = k.wbuf0 := rfl
@[simp] theorem Core.incC_wbuf1 (k : Core) (i : Nat) : (k.incC i).wbuf1 = k.wbuf1 := rfl
@[simp] theorem Core.incC_slots (k : Core) (i : Nat) : (k.incC i).slots = k.slots := rfl
@[simp] theorem Core.incC_cycle (k : Core) (i : Nat) : (k.incC i).cycle = k.cycle := rfl
@[simp] theorem Core.incC_limit (k : Core) (i : Nat) : (k.incC i).limit = k.limit := rfl
@[simp] theorem Core.incC_frame (k : Core) (i : Nat) : (k.incC i).frame = k.frame := rfl
@[simp] theorem Core.incC_elem (k : Core) (i : Nat) : (k.incC i).elem = k.elem := rfl
@[simp] theorem Core.incC_mode (k : Core) (i : Nat) : (k.incC i).mode = k.mode := rfl
@[simp] theorem Core.incC_overran (k : Core) (i : Nat) : (k.incC i).overran = k.overran := rfl
@[simp] theorem Core.incC_timing (k : Core) (i : Nat) : (k.incC i).timing = k.timing := rfl

/-! ### Core.setAccRow -/

@[simp] theorem Core.setAccRow_g (k : Core) (r : Nat) (es : List (BitVec 32)) : (k.setAccRow r es).g = k.g := rfl
@[simp] theorem Core.setAccRow_v (k : Core) (r : Nat) (es : List (BitVec 32)) : (k.setAccRow r es).v = k.v := rfl
@[simp] theorem Core.setAccRow_ctr (k : Core) (r : Nat) (es : List (BitVec 32)) : (k.setAccRow r es).ctr = k.ctr := rfl
@[simp] theorem Core.setAccRow_pc (k : Core) (r : Nat) (es : List (BitVec 32)) : (k.setAccRow r es).pc = k.pc := rfl
@[simp] theorem Core.setAccRow_loops (k : Core) (r : Nat) (es : List (BitVec 32)) : (k.setAccRow r es).loops = k.loops := rfl
@[simp] theorem Core.setAccRow_sl (k : Core) (r : Nat) (es : List (BitVec 32)) : (k.setAccRow r es).sl = k.sl := rfl
@[simp] theorem Core.setAccRow_nv (k : Core) (r : Nat) (es : List (BitVec 32)) : (k.setAccRow r es).nv = k.nv := rfl
@[simp] theorem Core.setAccRow_of (k : Core) (r : Nat) (es : List (BitVec 32)) : (k.setAccRow r es).of = k.of := rfl
@[simp] theorem Core.setAccRow_wr (k : Core) (r : Nat) (es : List (BitVec 32)) : (k.setAccRow r es).wr = k.wr := rfl
@[simp] theorem Core.setAccRow_latch (k : Core) (r : Nat) (es : List (BitVec 32)) : (k.setAccRow r es).latch = k.latch := rfl
@[simp] theorem Core.setAccRow_prog (k : Core) (r : Nat) (es : List (BitVec 32)) : (k.setAccRow r es).prog = k.prog := rfl
@[simp] theorem Core.setAccRow_vBad (k : Core) (r : Nat) (es : List (BitVec 32)) : (k.setAccRow r es).vBad = k.vBad := rfl
@[simp] theorem Core.setAccRow_accBad (k : Core) (r : Nat) (es : List (BitVec 32)) : (k.setAccRow r es).accBad = k.accBad := rfl
@[simp] theorem Core.setAccRow_wbuf0 (k : Core) (r : Nat) (es : List (BitVec 32)) : (k.setAccRow r es).wbuf0 = k.wbuf0 := rfl
@[simp] theorem Core.setAccRow_wbuf1 (k : Core) (r : Nat) (es : List (BitVec 32)) : (k.setAccRow r es).wbuf1 = k.wbuf1 := rfl
@[simp] theorem Core.setAccRow_slots (k : Core) (r : Nat) (es : List (BitVec 32)) : (k.setAccRow r es).slots = k.slots := rfl
@[simp] theorem Core.setAccRow_cycle (k : Core) (r : Nat) (es : List (BitVec 32)) : (k.setAccRow r es).cycle = k.cycle := rfl
@[simp] theorem Core.setAccRow_limit (k : Core) (r : Nat) (es : List (BitVec 32)) : (k.setAccRow r es).limit = k.limit := rfl
@[simp] theorem Core.setAccRow_frame (k : Core) (r : Nat) (es : List (BitVec 32)) : (k.setAccRow r es).frame = k.frame := rfl
@[simp] theorem Core.setAccRow_elem (k : Core) (r : Nat) (es : List (BitVec 32)) : (k.setAccRow r es).elem = k.elem := rfl
@[simp] theorem Core.setAccRow_mode (k : Core) (r : Nat) (es : List (BitVec 32)) : (k.setAccRow r es).mode = k.mode := rfl
@[simp] theorem Core.setAccRow_overran (k : Core) (r : Nat) (es : List (BitVec 32)) : (k.setAccRow r es).overran = k.overran := rfl
@[simp] theorem Core.setAccRow_timing (k : Core) (r : Nat) (es : List (BitVec 32)) : (k.setAccRow r es).timing = k.timing := rfl

/-! ### Core.setWbuf -/

@[simp] theorem Core.setWbuf_g (k : Core) (b : Bool) (w : WBuf) : (k.setWbuf b w).g = k.g := by cases b <;> rfl
@[simp] theorem Core.setWbuf_v (k : Core) (b : Bool) (w : WBuf) : (k.setWbuf b w).v = k.v := by cases b <;> rfl
@[simp] theorem Core.setWbuf_ctr (k : Core) (b : Bool) (w : WBuf) : (k.setWbuf b w).ctr = k.ctr := by cases b <;> rfl
@[simp] theorem Core.setWbuf_pc (k : Core) (b : Bool) (w : WBuf) : (k.setWbuf b w).pc = k.pc := by cases b <;> rfl
@[simp] theorem Core.setWbuf_loops (k : Core) (b : Bool) (w : WBuf) : (k.setWbuf b w).loops = k.loops := by cases b <;> rfl
@[simp] theorem Core.setWbuf_sl (k : Core) (b : Bool) (w : WBuf) : (k.setWbuf b w).sl = k.sl := by cases b <;> rfl
@[simp] theorem Core.setWbuf_nv (k : Core) (b : Bool) (w : WBuf) : (k.setWbuf b w).nv = k.nv := by cases b <;> rfl
@[simp] theorem Core.setWbuf_of (k : Core) (b : Bool) (w : WBuf) : (k.setWbuf b w).of = k.of := by cases b <;> rfl
@[simp] theorem Core.setWbuf_wr (k : Core) (b : Bool) (w : WBuf) : (k.setWbuf b w).wr = k.wr := by cases b <;> rfl
@[simp] theorem Core.setWbuf_latch (k : Core) (b : Bool) (w : WBuf) : (k.setWbuf b w).latch = k.latch := by cases b <;> rfl
@[simp] theorem Core.setWbuf_prog (k : Core) (b : Bool) (w : WBuf) : (k.setWbuf b w).prog = k.prog := by cases b <;> rfl
@[simp] theorem Core.setWbuf_acc (k : Core) (b : Bool) (w : WBuf) : (k.setWbuf b w).acc = k.acc := by cases b <;> rfl
@[simp] theorem Core.setWbuf_accValid (k : Core) (b : Bool) (w : WBuf) : (k.setWbuf b w).accValid = k.accValid := by cases b <;> rfl
@[simp] theorem Core.setWbuf_vBad (k : Core) (b : Bool) (w : WBuf) : (k.setWbuf b w).vBad = k.vBad := by cases b <;> rfl
@[simp] theorem Core.setWbuf_accBad (k : Core) (b : Bool) (w : WBuf) : (k.setWbuf b w).accBad = k.accBad := by cases b <;> rfl
@[simp] theorem Core.setWbuf_slots (k : Core) (b : Bool) (w : WBuf) : (k.setWbuf b w).slots = k.slots := by cases b <;> rfl
@[simp] theorem Core.setWbuf_cycle (k : Core) (b : Bool) (w : WBuf) : (k.setWbuf b w).cycle = k.cycle := by cases b <;> rfl
@[simp] theorem Core.setWbuf_limit (k : Core) (b : Bool) (w : WBuf) : (k.setWbuf b w).limit = k.limit := by cases b <;> rfl
@[simp] theorem Core.setWbuf_frame (k : Core) (b : Bool) (w : WBuf) : (k.setWbuf b w).frame = k.frame := by cases b <;> rfl
@[simp] theorem Core.setWbuf_elem (k : Core) (b : Bool) (w : WBuf) : (k.setWbuf b w).elem = k.elem := by cases b <;> rfl
@[simp] theorem Core.setWbuf_mode (k : Core) (b : Bool) (w : WBuf) : (k.setWbuf b w).mode = k.mode := by cases b <;> rfl
@[simp] theorem Core.setWbuf_overran (k : Core) (b : Bool) (w : WBuf) : (k.setWbuf b w).overran = k.overran := by cases b <;> rfl
@[simp] theorem Core.setWbuf_timing (k : Core) (b : Bool) (w : WBuf) : (k.setWbuf b w).timing = k.timing := by cases b <;> rfl

/-! ### Core.issued -/

@[simp] theorem Core.issued_g (k : Core) (c : Nat) : (k.issued c).g = k.g := rfl
@[simp] theorem Core.issued_v (k : Core) (c : Nat) : (k.issued c).v = k.v := rfl
@[simp] theorem Core.issued_ctr (k : Core) (c : Nat) : (k.issued c).ctr = k.ctr := rfl
@[simp] theorem Core.issued_sl (k : Core) (c : Nat) : (k.issued c).sl = k.sl := rfl
@[simp] theorem Core.issued_nv (k : Core) (c : Nat) : (k.issued c).nv = k.nv := rfl
@[simp] theorem Core.issued_of (k : Core) (c : Nat) : (k.issued c).of = k.of := rfl
@[simp] theorem Core.issued_wr (k : Core) (c : Nat) : (k.issued c).wr = k.wr := rfl
@[simp] theorem Core.issued_latch (k : Core) (c : Nat) : (k.issued c).latch = k.latch := rfl
@[simp] theorem Core.issued_prog (k : Core) (c : Nat) : (k.issued c).prog = k.prog := rfl
@[simp] theorem Core.issued_acc (k : Core) (c : Nat) : (k.issued c).acc = k.acc := rfl
@[simp] theorem Core.issued_accValid (k : Core) (c : Nat) : (k.issued c).accValid = k.accValid := rfl
@[simp] theorem Core.issued_vBad (k : Core) (c : Nat) : (k.issued c).vBad = k.vBad := rfl
@[simp] theorem Core.issued_accBad (k : Core) (c : Nat) : (k.issued c).accBad = k.accBad := rfl
@[simp] theorem Core.issued_wbuf0 (k : Core) (c : Nat) : (k.issued c).wbuf0 = k.wbuf0 := rfl
@[simp] theorem Core.issued_wbuf1 (k : Core) (c : Nat) : (k.issued c).wbuf1 = k.wbuf1 := rfl
@[simp] theorem Core.issued_slots (k : Core) (c : Nat) : (k.issued c).slots = k.slots := rfl
@[simp] theorem Core.issued_limit (k : Core) (c : Nat) : (k.issued c).limit = k.limit := rfl
@[simp] theorem Core.issued_frame (k : Core) (c : Nat) : (k.issued c).frame = k.frame := rfl
@[simp] theorem Core.issued_elem (k : Core) (c : Nat) : (k.issued c).elem = k.elem := rfl
@[simp] theorem Core.issued_mode (k : Core) (c : Nat) : (k.issued c).mode = k.mode := rfl
@[simp] theorem Core.issued_overran (k : Core) (c : Nat) : (k.issued c).overran = k.overran := rfl
@[simp] theorem Core.issued_timing (k : Core) (c : Nat) : (k.issued c).timing = k.timing := rfl

/-! ### Core.occupy -/

@[simp] theorem Core.occupy_g (k : Core) (u t : Nat) : (k.occupy u t).g = k.g := rfl
@[simp] theorem Core.occupy_v (k : Core) (u t : Nat) : (k.occupy u t).v = k.v := rfl
@[simp] theorem Core.occupy_ctr (k : Core) (u t : Nat) : (k.occupy u t).ctr = k.ctr := rfl
@[simp] theorem Core.occupy_pc (k : Core) (u t : Nat) : (k.occupy u t).pc = k.pc := rfl
@[simp] theorem Core.occupy_loops (k : Core) (u t : Nat) : (k.occupy u t).loops = k.loops := rfl
@[simp] theorem Core.occupy_sl (k : Core) (u t : Nat) : (k.occupy u t).sl = k.sl := rfl
@[simp] theorem Core.occupy_nv (k : Core) (u t : Nat) : (k.occupy u t).nv = k.nv := rfl
@[simp] theorem Core.occupy_of (k : Core) (u t : Nat) : (k.occupy u t).of = k.of := rfl
@[simp] theorem Core.occupy_wr (k : Core) (u t : Nat) : (k.occupy u t).wr = k.wr := rfl
@[simp] theorem Core.occupy_latch (k : Core) (u t : Nat) : (k.occupy u t).latch = k.latch := rfl
@[simp] theorem Core.occupy_prog (k : Core) (u t : Nat) : (k.occupy u t).prog = k.prog := rfl
@[simp] theorem Core.occupy_acc (k : Core) (u t : Nat) : (k.occupy u t).acc = k.acc := rfl
@[simp] theorem Core.occupy_accValid (k : Core) (u t : Nat) : (k.occupy u t).accValid = k.accValid := rfl
@[simp] theorem Core.occupy_vBad (k : Core) (u t : Nat) : (k.occupy u t).vBad = k.vBad := rfl
@[simp] theorem Core.occupy_accBad (k : Core) (u t : Nat) : (k.occupy u t).accBad = k.accBad := rfl
@[simp] theorem Core.occupy_wbuf0 (k : Core) (u t : Nat) : (k.occupy u t).wbuf0 = k.wbuf0 := rfl
@[simp] theorem Core.occupy_wbuf1 (k : Core) (u t : Nat) : (k.occupy u t).wbuf1 = k.wbuf1 := rfl
@[simp] theorem Core.occupy_slots (k : Core) (u t : Nat) : (k.occupy u t).slots = k.slots := rfl
@[simp] theorem Core.occupy_cycle (k : Core) (u t : Nat) : (k.occupy u t).cycle = k.cycle := rfl
@[simp] theorem Core.occupy_limit (k : Core) (u t : Nat) : (k.occupy u t).limit = k.limit := rfl
@[simp] theorem Core.occupy_frame (k : Core) (u t : Nat) : (k.occupy u t).frame = k.frame := rfl
@[simp] theorem Core.occupy_elem (k : Core) (u t : Nat) : (k.occupy u t).elem = k.elem := rfl
@[simp] theorem Core.occupy_mode (k : Core) (u t : Nat) : (k.occupy u t).mode = k.mode := rfl
@[simp] theorem Core.occupy_overran (k : Core) (u t : Nat) : (k.occupy u t).overran = k.overran := rfl

/-! ### Core.gPend -/

@[simp] theorem Core.gPend_g (k : Core) (i t : Nat) : (k.gPend i t).g = k.g := rfl
@[simp] theorem Core.gPend_v (k : Core) (i t : Nat) : (k.gPend i t).v = k.v := rfl
@[simp] theorem Core.gPend_ctr (k : Core) (i t : Nat) : (k.gPend i t).ctr = k.ctr := rfl
@[simp] theorem Core.gPend_pc (k : Core) (i t : Nat) : (k.gPend i t).pc = k.pc := rfl
@[simp] theorem Core.gPend_loops (k : Core) (i t : Nat) : (k.gPend i t).loops = k.loops := rfl
@[simp] theorem Core.gPend_sl (k : Core) (i t : Nat) : (k.gPend i t).sl = k.sl := rfl
@[simp] theorem Core.gPend_nv (k : Core) (i t : Nat) : (k.gPend i t).nv = k.nv := rfl
@[simp] theorem Core.gPend_of (k : Core) (i t : Nat) : (k.gPend i t).of = k.of := rfl
@[simp] theorem Core.gPend_wr (k : Core) (i t : Nat) : (k.gPend i t).wr = k.wr := rfl
@[simp] theorem Core.gPend_latch (k : Core) (i t : Nat) : (k.gPend i t).latch = k.latch := rfl
@[simp] theorem Core.gPend_prog (k : Core) (i t : Nat) : (k.gPend i t).prog = k.prog := rfl
@[simp] theorem Core.gPend_acc (k : Core) (i t : Nat) : (k.gPend i t).acc = k.acc := rfl
@[simp] theorem Core.gPend_accValid (k : Core) (i t : Nat) : (k.gPend i t).accValid = k.accValid := rfl
@[simp] theorem Core.gPend_vBad (k : Core) (i t : Nat) : (k.gPend i t).vBad = k.vBad := rfl
@[simp] theorem Core.gPend_accBad (k : Core) (i t : Nat) : (k.gPend i t).accBad = k.accBad := rfl
@[simp] theorem Core.gPend_wbuf0 (k : Core) (i t : Nat) : (k.gPend i t).wbuf0 = k.wbuf0 := rfl
@[simp] theorem Core.gPend_wbuf1 (k : Core) (i t : Nat) : (k.gPend i t).wbuf1 = k.wbuf1 := rfl
@[simp] theorem Core.gPend_slots (k : Core) (i t : Nat) : (k.gPend i t).slots = k.slots := rfl
@[simp] theorem Core.gPend_cycle (k : Core) (i t : Nat) : (k.gPend i t).cycle = k.cycle := rfl
@[simp] theorem Core.gPend_limit (k : Core) (i t : Nat) : (k.gPend i t).limit = k.limit := rfl
@[simp] theorem Core.gPend_frame (k : Core) (i t : Nat) : (k.gPend i t).frame = k.frame := rfl
@[simp] theorem Core.gPend_elem (k : Core) (i t : Nat) : (k.gPend i t).elem = k.elem := rfl
@[simp] theorem Core.gPend_mode (k : Core) (i t : Nat) : (k.gPend i t).mode = k.mode := rfl
@[simp] theorem Core.gPend_overran (k : Core) (i t : Nat) : (k.gPend i t).overran = k.overran := rfl

/-! ### Core.vPend -/

@[simp] theorem Core.vPend_g (k : Core) (i t : Nat) : (k.vPend i t).g = k.g := rfl
@[simp] theorem Core.vPend_v (k : Core) (i t : Nat) : (k.vPend i t).v = k.v := rfl
@[simp] theorem Core.vPend_ctr (k : Core) (i t : Nat) : (k.vPend i t).ctr = k.ctr := rfl
@[simp] theorem Core.vPend_pc (k : Core) (i t : Nat) : (k.vPend i t).pc = k.pc := rfl
@[simp] theorem Core.vPend_loops (k : Core) (i t : Nat) : (k.vPend i t).loops = k.loops := rfl
@[simp] theorem Core.vPend_sl (k : Core) (i t : Nat) : (k.vPend i t).sl = k.sl := rfl
@[simp] theorem Core.vPend_nv (k : Core) (i t : Nat) : (k.vPend i t).nv = k.nv := rfl
@[simp] theorem Core.vPend_of (k : Core) (i t : Nat) : (k.vPend i t).of = k.of := rfl
@[simp] theorem Core.vPend_wr (k : Core) (i t : Nat) : (k.vPend i t).wr = k.wr := rfl
@[simp] theorem Core.vPend_latch (k : Core) (i t : Nat) : (k.vPend i t).latch = k.latch := rfl
@[simp] theorem Core.vPend_prog (k : Core) (i t : Nat) : (k.vPend i t).prog = k.prog := rfl
@[simp] theorem Core.vPend_acc (k : Core) (i t : Nat) : (k.vPend i t).acc = k.acc := rfl
@[simp] theorem Core.vPend_accValid (k : Core) (i t : Nat) : (k.vPend i t).accValid = k.accValid := rfl
@[simp] theorem Core.vPend_vBad (k : Core) (i t : Nat) : (k.vPend i t).vBad = k.vBad := rfl
@[simp] theorem Core.vPend_accBad (k : Core) (i t : Nat) : (k.vPend i t).accBad = k.accBad := rfl
@[simp] theorem Core.vPend_wbuf0 (k : Core) (i t : Nat) : (k.vPend i t).wbuf0 = k.wbuf0 := rfl
@[simp] theorem Core.vPend_wbuf1 (k : Core) (i t : Nat) : (k.vPend i t).wbuf1 = k.wbuf1 := rfl
@[simp] theorem Core.vPend_slots (k : Core) (i t : Nat) : (k.vPend i t).slots = k.slots := rfl
@[simp] theorem Core.vPend_cycle (k : Core) (i t : Nat) : (k.vPend i t).cycle = k.cycle := rfl
@[simp] theorem Core.vPend_limit (k : Core) (i t : Nat) : (k.vPend i t).limit = k.limit := rfl
@[simp] theorem Core.vPend_frame (k : Core) (i t : Nat) : (k.vPend i t).frame = k.frame := rfl
@[simp] theorem Core.vPend_elem (k : Core) (i t : Nat) : (k.vPend i t).elem = k.elem := rfl
@[simp] theorem Core.vPend_mode (k : Core) (i t : Nat) : (k.vPend i t).mode = k.mode := rfl
@[simp] theorem Core.vPend_overran (k : Core) (i t : Nat) : (k.vPend i t).overran = k.overran := rfl

/-! ### Core.endsAt -/

@[simp] theorem Core.endsAt_g (k : Core) (t : Nat) : (k.endsAt t).g = k.g := rfl
@[simp] theorem Core.endsAt_v (k : Core) (t : Nat) : (k.endsAt t).v = k.v := rfl
@[simp] theorem Core.endsAt_ctr (k : Core) (t : Nat) : (k.endsAt t).ctr = k.ctr := rfl
@[simp] theorem Core.endsAt_pc (k : Core) (t : Nat) : (k.endsAt t).pc = k.pc := rfl
@[simp] theorem Core.endsAt_loops (k : Core) (t : Nat) : (k.endsAt t).loops = k.loops := rfl
@[simp] theorem Core.endsAt_sl (k : Core) (t : Nat) : (k.endsAt t).sl = k.sl := rfl
@[simp] theorem Core.endsAt_nv (k : Core) (t : Nat) : (k.endsAt t).nv = k.nv := rfl
@[simp] theorem Core.endsAt_of (k : Core) (t : Nat) : (k.endsAt t).of = k.of := rfl
@[simp] theorem Core.endsAt_wr (k : Core) (t : Nat) : (k.endsAt t).wr = k.wr := rfl
@[simp] theorem Core.endsAt_latch (k : Core) (t : Nat) : (k.endsAt t).latch = k.latch := rfl
@[simp] theorem Core.endsAt_prog (k : Core) (t : Nat) : (k.endsAt t).prog = k.prog := rfl
@[simp] theorem Core.endsAt_acc (k : Core) (t : Nat) : (k.endsAt t).acc = k.acc := rfl
@[simp] theorem Core.endsAt_accValid (k : Core) (t : Nat) : (k.endsAt t).accValid = k.accValid := rfl
@[simp] theorem Core.endsAt_vBad (k : Core) (t : Nat) : (k.endsAt t).vBad = k.vBad := rfl
@[simp] theorem Core.endsAt_accBad (k : Core) (t : Nat) : (k.endsAt t).accBad = k.accBad := rfl
@[simp] theorem Core.endsAt_wbuf0 (k : Core) (t : Nat) : (k.endsAt t).wbuf0 = k.wbuf0 := rfl
@[simp] theorem Core.endsAt_wbuf1 (k : Core) (t : Nat) : (k.endsAt t).wbuf1 = k.wbuf1 := rfl
@[simp] theorem Core.endsAt_slots (k : Core) (t : Nat) : (k.endsAt t).slots = k.slots := rfl
@[simp] theorem Core.endsAt_cycle (k : Core) (t : Nat) : (k.endsAt t).cycle = k.cycle := rfl
@[simp] theorem Core.endsAt_limit (k : Core) (t : Nat) : (k.endsAt t).limit = k.limit := rfl
@[simp] theorem Core.endsAt_frame (k : Core) (t : Nat) : (k.endsAt t).frame = k.frame := rfl
@[simp] theorem Core.endsAt_elem (k : Core) (t : Nat) : (k.endsAt t).elem = k.elem := rfl
@[simp] theorem Core.endsAt_mode (k : Core) (t : Nat) : (k.endsAt t).mode = k.mode := rfl
@[simp] theorem Core.endsAt_overran (k : Core) (t : Nat) : (k.endsAt t).overran = k.overran := rfl

/-! ### Core.takeSlot -/

@[simp] theorem Core.takeSlot_g (k : Core) (i : Nat) (e : ReplySlot) : (k.takeSlot i e).g = k.g := rfl
@[simp] theorem Core.takeSlot_v (k : Core) (i : Nat) (e : ReplySlot) : (k.takeSlot i e).v = k.v := rfl
@[simp] theorem Core.takeSlot_ctr (k : Core) (i : Nat) (e : ReplySlot) : (k.takeSlot i e).ctr = k.ctr := rfl
@[simp] theorem Core.takeSlot_pc (k : Core) (i : Nat) (e : ReplySlot) : (k.takeSlot i e).pc = k.pc := rfl
@[simp] theorem Core.takeSlot_loops (k : Core) (i : Nat) (e : ReplySlot) : (k.takeSlot i e).loops = k.loops := rfl
@[simp] theorem Core.takeSlot_sl (k : Core) (i : Nat) (e : ReplySlot) : (k.takeSlot i e).sl = k.sl := rfl
@[simp] theorem Core.takeSlot_nv (k : Core) (i : Nat) (e : ReplySlot) : (k.takeSlot i e).nv = k.nv := rfl
@[simp] theorem Core.takeSlot_of (k : Core) (i : Nat) (e : ReplySlot) : (k.takeSlot i e).of = k.of := rfl
@[simp] theorem Core.takeSlot_wr (k : Core) (i : Nat) (e : ReplySlot) : (k.takeSlot i e).wr = k.wr := rfl
@[simp] theorem Core.takeSlot_latch (k : Core) (i : Nat) (e : ReplySlot) : (k.takeSlot i e).latch = k.latch := rfl
@[simp] theorem Core.takeSlot_prog (k : Core) (i : Nat) (e : ReplySlot) : (k.takeSlot i e).prog = k.prog := rfl
@[simp] theorem Core.takeSlot_acc (k : Core) (i : Nat) (e : ReplySlot) : (k.takeSlot i e).acc = k.acc := rfl
@[simp] theorem Core.takeSlot_accValid (k : Core) (i : Nat) (e : ReplySlot) : (k.takeSlot i e).accValid = k.accValid := rfl
@[simp] theorem Core.takeSlot_vBad (k : Core) (i : Nat) (e : ReplySlot) : (k.takeSlot i e).vBad = k.vBad := rfl
@[simp] theorem Core.takeSlot_accBad (k : Core) (i : Nat) (e : ReplySlot) : (k.takeSlot i e).accBad = k.accBad := rfl
@[simp] theorem Core.takeSlot_wbuf0 (k : Core) (i : Nat) (e : ReplySlot) : (k.takeSlot i e).wbuf0 = k.wbuf0 := rfl
@[simp] theorem Core.takeSlot_wbuf1 (k : Core) (i : Nat) (e : ReplySlot) : (k.takeSlot i e).wbuf1 = k.wbuf1 := rfl
@[simp] theorem Core.takeSlot_cycle (k : Core) (i : Nat) (e : ReplySlot) : (k.takeSlot i e).cycle = k.cycle := rfl
@[simp] theorem Core.takeSlot_limit (k : Core) (i : Nat) (e : ReplySlot) : (k.takeSlot i e).limit = k.limit := rfl
@[simp] theorem Core.takeSlot_frame (k : Core) (i : Nat) (e : ReplySlot) : (k.takeSlot i e).frame = k.frame := rfl
@[simp] theorem Core.takeSlot_elem (k : Core) (i : Nat) (e : ReplySlot) : (k.takeSlot i e).elem = k.elem := rfl
@[simp] theorem Core.takeSlot_mode (k : Core) (i : Nat) (e : ReplySlot) : (k.takeSlot i e).mode = k.mode := rfl
@[simp] theorem Core.takeSlot_overran (k : Core) (i : Nat) (e : ReplySlot) : (k.takeSlot i e).overran = k.overran := rfl
@[simp] theorem Core.takeSlot_timing (k : Core) (i : Nat) (e : ReplySlot) : (k.takeSlot i e).timing = k.timing := rfl

/-! ### Core.start -/

@[simp] theorem Core.start_g (k : Core) (j : Job) : (k.start j).g = k.g := rfl
@[simp] theorem Core.start_v (k : Core) (j : Job) : (k.start j).v = k.v := rfl
@[simp] theorem Core.start_ctr (k : Core) (j : Job) : (k.start j).ctr = k.ctr := rfl
@[simp] theorem Core.start_pc (k : Core) (j : Job) : (k.start j).pc = k.pc := rfl
@[simp] theorem Core.start_loops (k : Core) (j : Job) : (k.start j).loops = k.loops := rfl
@[simp] theorem Core.start_sl (k : Core) (j : Job) : (k.start j).sl = k.sl := rfl
@[simp] theorem Core.start_nv (k : Core) (j : Job) : (k.start j).nv = k.nv := rfl
@[simp] theorem Core.start_of (k : Core) (j : Job) : (k.start j).of = k.of := rfl
@[simp] theorem Core.start_wr (k : Core) (j : Job) : (k.start j).wr = k.wr := rfl
@[simp] theorem Core.start_latch (k : Core) (j : Job) : (k.start j).latch = k.latch := rfl
@[simp] theorem Core.start_prog (k : Core) (j : Job) : (k.start j).prog = k.prog := rfl
@[simp] theorem Core.start_acc (k : Core) (j : Job) : (k.start j).acc = k.acc := rfl
@[simp] theorem Core.start_accValid (k : Core) (j : Job) : (k.start j).accValid = k.accValid := rfl
@[simp] theorem Core.start_vBad (k : Core) (j : Job) : (k.start j).vBad = k.vBad := rfl
@[simp] theorem Core.start_accBad (k : Core) (j : Job) : (k.start j).accBad = k.accBad := rfl
@[simp] theorem Core.start_wbuf0 (k : Core) (j : Job) : (k.start j).wbuf0 = k.wbuf0 := rfl
@[simp] theorem Core.start_wbuf1 (k : Core) (j : Job) : (k.start j).wbuf1 = k.wbuf1 := rfl
@[simp] theorem Core.start_slots (k : Core) (j : Job) : (k.start j).slots = k.slots := rfl
@[simp] theorem Core.start_cycle (k : Core) (j : Job) : (k.start j).cycle = k.cycle := rfl
@[simp] theorem Core.start_limit (k : Core) (j : Job) : (k.start j).limit = k.limit := rfl
@[simp] theorem Core.start_frame (k : Core) (j : Job) : (k.start j).frame = k.frame := rfl
@[simp] theorem Core.start_elem (k : Core) (j : Job) : (k.start j).elem = k.elem := rfl
@[simp] theorem Core.start_mode (k : Core) (j : Job) : (k.start j).mode = k.mode := rfl
@[simp] theorem Core.start_overran (k : Core) (j : Job) : (k.start j).overran = k.overran := rfl

/-! ### Registers after writes -/

theorem Core.greg_setG (k : Core) (i : Nat) (v : BitVec 64) (j : Nat) :
    (k.setG i v).greg j = if j = i ∧ j ≠ 0 then v else k.greg j := by
  unfold Core.setG
  by_cases hi : i = 0
  · subst hi
    by_cases hj : j = 0 <;> simp [hj]
  · rw [if_neg hi]
    unfold Core.greg
    by_cases hj : j = 0
    · simp [hj]
    · rw [if_neg hj, if_neg hj, tget_tset]
      by_cases h : j = i <;> simp [h, hi]

theorem Core.vreg_setV (k : Core) (i : Nat) (bs : List Byte) (j : Nat) :
    (k.setV i bs).vreg j = if j = i then fitBytes 256 bs else k.vreg j := tget_tset _ _ _ _ _

theorem Core.creg_incC (k : Core) (i j : Nat) : (k.incC i).creg j = if j = i then k.creg i + 1 else k.creg j :=
  tget_tset _ _ _ _ _

@[simp] theorem Core.greg_zero (k : Core) : k.greg 0 = 0 := rfl

theorem Core.greg_of_g {k k' : Core} (h : k'.g = k.g) (j : Nat) : k'.greg j = k.greg j := by unfold Core.greg; rw [h]
theorem Core.vreg_of_v {k k' : Core} (h : k'.v = k.v) (j : Nat) : k'.vreg j = k.vreg j := by unfold Core.vreg; rw [h]

end Sys2Proof.Machine
end

