-- ==== Sys2Proof/Laws/Issue.lean ====
section
/-! SUPPORT. What issuing a word can do, and what a step does. -/

namespace Sys2Proof.Machine

/-- A word that issues runs its meaning on its core, in its issue cycle. -/
theorem issue_next {c : Nat} {w : BitVec 64} {s : State} (run : State → Core → Nat → State) (h : Issues c w s) :
    issue c w s run = .next (run (s.atIssue c w) ((s.atIssue c w).core c) (((s.atIssue c w).core c).issueAt w)) := by
  obtain ⟨-, hm, hh, hu, hk, hp⟩ := h
  unfold issue
  rw [if_pos ⟨hm, by simp [hh], hu, by simp [hk]⟩, hp]
  simp

/-- Everything that issuing a word can do: nothing, an illegal word or fetch, or the meaning. -/
theorem issue_cases (c : Nat) (w : BitVec 64) (s : State) (run : State → Core → Nat → State) :
    issue c w s run = .next s ∨
      issue c w s run = .next (run (s.atIssue c w) ((s.atIssue c w).core c) (((s.atIssue c w).core c).issueAt w)) ∨
      (∃ p cyc, issue c w s run = .next (s.raiseCore c .illegal p cyc)) ∨
      ∃ p cyc, issue c w s run = .next ((s.takeFree 1).raiseCore c .illegal p cyc) := by
  unfold issue
  split
  · split
    · exact .inr (.inr (.inr ⟨_, _, rfl⟩))
    · split
      · exact .inr (.inl rfl)
      · split
        · exact .inr (.inr (.inl ⟨_, _, rfl⟩))
        · exact .inl rfl
  · exact .inl rfl

/-- The step of a state with a command at the front. -/
theorem step_cons {s : State} {c : Instr} {rest : List Instr} (h : s.pending = c :: rest) : step s = exec c { s with pending := rest } := by
  unfold step; rw [h]

/-- The step of a state with an empty queue. -/
theorem step_nil {s : State} (h : s.pending = []) : step s = .next (idle s) := by unfold step; rw [h]

end Sys2Proof.Machine
end

