-- ==== Sys2Proof/Tests/Slice0.lean ====
section
/-! SUPPORT. Tests: ill-formed terms are refused, single commands answer as the spec's rules and examples say, and each statement that
has hypotheses has a state and operands that meet them. -/

namespace Sys2Proof.Tests

open Sys2Proof Sys2Proof.Machine

set_option Elab.async false

/-! ### Well-formed commands: an ill-formed term for each check -/

theorem test_wellFormed_slot : wellFormed (.info 31) = true ∧ wellFormed (.info 32) = false := by decide
theorem test_wellFormed_relay_slot : wellFormed (.commandRelay 65534 0 0 0 0) = true ∧ wellFormed (.commandRelay 65535 0 0 0 0) = false := by decide
theorem test_wellFormed_offset : wellFormed (.hostWindowWrite true 65535 []) = true ∧ wellFormed (.hostWindowWrite true 65536 []) = false := by decide
theorem test_wellFormed_core : wellFormed (.nop 2303 0) = true ∧ wellFormed (.nop 2304 0) = false := by decide
theorem test_wellFormed_memory : wellFormed (.externalWriteLand 0x8000011F 0) = true ∧ wellFormed (.externalWriteLand 0x80000120 0) = false ∧
    wellFormed (.externalWriteLand 2304 0) = false := by decide
theorem test_wellFormed_arbiter : wellFormed (.arbiterWindowStart 23) = true ∧ wellFormed (.arbiterWindowStart 24) = false ∧
    wellFormed (.arbiterWindowStart 0x30F) = true ∧ wellFormed (.arbiterWindowStart 0x310) = false := by decide
theorem test_wellFormed_channel : wellFormed (.dmaTransferStart 11 63) = true ∧ wellFormed (.dmaTransferStart 12 0) = false ∧
    wellFormed (.dmaTransferStart 0 64) = false := by decide
theorem test_wellFormed_port_lane : wellFormed (.laneRetire 63 7) = true ∧ wellFormed (.laneRetire 64 0) = false ∧
    wellFormed (.laneRetire 0 8) = false := by decide
theorem test_wellFormed_hub_entry : wellFormed (.tc3Ingress 12) = true ∧ wellFormed (.tc3Ingress 13) = false := by decide
theorem test_wellFormed_io : wellFormed (.outboundTransferComplete 11 0 0) = true ∧ wellFormed (.outboundTransferComplete 12 0 0) = false := by decide
theorem test_wellFormed_host_port : wellFormed (.laneRetire 0x80 7) = true ∧ wellFormed (.laneRetire 0x81 0) = false ∧
    wellFormed (.linkFlitReceive 0x80 0 [] true 7) = true ∧ wellFormed (.linkFlitReceive 0x80 0 [] true 8) = false := by decide
theorem test_wellFormed_place : wellFormed (.clockParentSwitch 155) = true ∧ wellFormed (.clockParentSwitch 156) = false ∧
    wellFormed (.clockParentSwitch 0x10B) = true ∧ wellFormed (.clockParentSwitch 0x10C) = false := by decide
theorem test_wellFormed_cluster_phase : wellFormed (.phaseLost 287 7) = true ∧ wellFormed (.phaseLost 288 0) = false ∧
    wellFormed (.phaseLost 0 8) = false := by decide
theorem test_wellFormed_site : wellFormed (.deratedExpiry 155) = true ∧ wellFormed (.deratedExpiry 156) = false := by decide
theorem test_wellFormed_zone : wellFormed (.zoneCurrentWarning 15) = true ∧ wellFormed (.zoneCurrentWarning 16) = false := by decide
theorem test_wellFormed_pair : wellFormed (.sensorSample 301 0 0) = true ∧ wellFormed (.sensorSample 302 0 0) = false := by decide
theorem test_wellFormed_stack : wellFormed (.hbmTemperatureRead 23 0 []) = true ∧ wellFormed (.hbmTemperatureRead 24 0 []) = false := by decide
theorem test_wellFormed_unit : wellFormed (.stageTimeout 1 [4294967295]) = true ∧ wellFormed (.stageTimeout 1 [4294967296]) = false := by decide
theorem test_wellFormed_engine : wellFormed (.engineSidebandAccess 7 0 0 0 false []) = true ∧
    wellFormed (.engineSidebandAccess 8 0 0 0 false []) = false := by decide
/-! ### A core on which a word issues -/

/-- The panel after reset, but for core 3, which runs the word `w` first. -/
def onCore (w : BitVec 64) (k : Core := {}) : State :=
  { State.reset with cores := [(3, { k with prog := w :: k.prog, mode := .running })], units := { gridClass := 144 } }

theorem issues_onCore (w : BitVec 64) (k : Core) (h : k.pc = 0) : Issues 3 w (onCore w k) := by
  refine ⟨by decide, rfl, rfl, rfl, rfl, ?_⟩
  show (w :: k.prog)[k.pc]? = some w
  rw [h]; rfl

/-- A plan with one unicast class-2 route, one row multicast, one class-4 request route with its reply route, one reduction tree whose root
is die 0, and 100 resident rows in the scratchpad of core 3. -/
def smallPlan : Plan :=
  { planId := 1, groupPlanId := 0, gridClass := 144, zlPorts := 0, fFloor := 1450, groupSize := 1, hbmBytes := 0, frameTicks := 500000,
    guardCycles := 1024, frames := 2, maxFrame := 1000, seed := 0, digest := [], signer := [], signed := false, image := [], tableAt := 0,
    routes := [{ id := 1, cls := 2, plane := 0, src := 0, dst := 2, kind := 0 }, { id := 2, cls := 2, plane := 0, src := 0, dst := 2, kind := 1 },
      { id := 3, cls := 4, plane := 0, src := 0, dst := 2, kind := 0 }, { id := 0x8003, cls := 1, plane := 0, src := 2, dst := 0, kind := 0 }],
    buffers := [], trees := [{ red := 9, die := 0, plane := 0, op := 0, fmt := 0, fanin := 2, inMask := 3, out := 0 }],
    rowAlloc := [{ mem := 3, resident := 100, used := 200 }], regions := [] }

/-- `onCore` with the plan loaded, the step RUNNING or not. -/
def planned (run : Bool) (w : BitVec 64) (k : Core := {}) : State :=
  { onCore w k with plan := some smallPlan, step := { state := if run then .running else .idle } }

theorem witness_NopOnlyAdvances :
    Issues 3 (wordOf 0x01 0) (onCore (wordOf 0x01 0)) ∧ Issues 3 (wordOf 0x01 1) (onCore (wordOf 0x01 1)) ∧ (1 : BitVec 56) ≠ 0 :=
  ⟨issues_onCore _ _ rfl, issues_onCore _ _ rfl, by decide⟩

theorem witness_LoopsRepeat : -- COUNT 0 and COUNT 2, BODY 1
    (let w := wordOf 0x02 0x100000000; let s := onCore w { prog := [0] }; Issues 3 w s ∧ loopBad (s.core 3) w = false ∧ fld w 31 0 = 0) ∧
    (let w := wordOf 0x02 0x100000002; let s := onCore w { prog := [0] }; Issues 3 w s ∧ loopBad (s.core 3) w = false ∧ fld w 31 0 = 2) :=
  ⟨⟨issues_onCore _ _ rfl, by decide +kernel⟩, ⟨issues_onCore _ _ rfl, by decide +kernel⟩⟩

theorem witness_LoopsRepeat_next : (5 ≠ Loop.lend ⟨1, 4, 2⟩) ∧ (4 = Loop.lend ⟨1, 4, 2⟩ ∧ 2 ≤ Loop.left ⟨1, 4, 2⟩) ∧
    (4 = Loop.lend ⟨1, 4, 1⟩ ∧ Loop.left ⟨1, 4, 1⟩ = 1) := by decide

/-- The panel after reset, but for core 3. -/
def withCore (k : Core) : State := { State.reset with cores := [(3, k)] }

/-- With no instruction under way in core 3 there is none in the panel. -/
theorem withCore_idle (k : Core) (h : k.timing.jobs = []) (d : Nat) (_hd : d / 8 = 0) : ((withCore k).core d).timing.jobs = [] := by
  show (if 3 = d then k else {}).timing.jobs = []
  split
  · exact h
  · rfl

theorem witness_EndfThenRetires :
    Issues 3 (wordOf 0x03 0) (onCore (wordOf 0x03 0) { loops := [⟨0, 0, 2⟩] }) ∧
    (let s := withCore { mode := .draining, limit := 2 }; let k := (s.runCore 3).core 3
     (s.core 3).mode = .draining ∧ (s.core 3).slots = [] ∧ s.clockHeld 3 = false ∧ k.retireAt < k.limit ∧ ∀ d, d / 8 = 0 → (s.core d).timing.jobs = []) ∧
    (((withCore { mode := .draining, slots := [(0, none)] }).runCore 3).core 3).slots ≠ [] :=
  ⟨issues_onCore _ _ rfl, ⟨by decide +kernel, by decide +kernel, by decide +kernel, by decide +kernel, withCore_idle _ rfl⟩, by decide +kernel⟩

theorem witness_SlotAndWait :
    (let w := wordOf 0x04 0x8000000000; let s := onCore w { g := [(2, 0xFFFFFFFFFFFFFFFF)] }; let u := s.atIssue 3 w
     Issues 3 w s ∧ fld w 55 43 = 0 ∧ fld w 37 0 = 0 ∧ 65535 < ((u.core 3).greg (fld w 42 38)).toNat) ∧
    (let w := wordOf 0x05 0xF0000000000001; Issues 3 w (onCore w) ∧ fld w 51 32 = 0 ∧ fld w 55 52 = 15 ∧ fld w 31 0 = 1) ∧
    (let k := (withCore { mode := .waiting 15 1, ctr := [(15, 1)], cycle := 4, timing := { incs := [(15, [5])] } }).core 3
     k.mode = .waiting 15 1 ∧ k.cycle ≤ 6 ∧ 1 ≤ k.landedBy 15 6 ∧ ∀ y, 4 ≤ y → y < 6 → k.landedBy 15 y < 1) :=
  ⟨⟨issues_onCore _ _ rfl, by decide +kernel⟩, ⟨issues_onCore _ _ rfl, by decide +kernel⟩, by decide +kernel, by decide +kernel, by decide +kernel,
    fun y h4 h6 => by have : y = 4 ∨ y = 5 := by omega
                      rcases this with rfl | rfl <;> decide +kernel⟩

theorem witness_ScalarForms : -- ADD g31; a shift by 63
    (let w := wordOf 0x10 0xF8000000000; let k := ((onCore w).atIssue 3 w).core 3
     Issues 3 w (onCore w) ∧ fld w 32 0 = 0 ∧ (scalarFn false (fld w 55 48) (k.greg (fld w 42 38)) (k.greg (fld w 37 33))).isSome = true) ∧
    (let w := wordOf 0x11 0x0508000000003F; let k := ((onCore w).atIssue 3 w).core 3
     Issues 3 w (onCore w) ∧ fld w 37 32 = 0 ∧ fld w 55 48 = 5 ∧ fld w 31 6 = 0 ∧
       (scalarFn true 5 (k.greg (fld w 42 38)) ((BitVec.ofNat 32 (fld w 31 0)).signExtend 64)).isSome = true) :=
  ⟨⟨issues_onCore _ _ rfl, by decide +kernel⟩, ⟨issues_onCore _ _ rfl, by decide +kernel⟩⟩

theorem witness_SystemRegisterAccess : -- each function, to g1
    (∀ fn, Issues 3 (sysWord fn 0x080000000000) (onCore (sysWord fn 0x080000000000))) ∧
    ∀ fn ∈ [0, 1, 2, 3, 4, 5, 6], sysBad (sysWord fn 0x080000000000) = false :=
  ⟨fun _ => issues_onCore _ _ rfl, by decide +kernel⟩

theorem witness_TwloadFillsBuffer : -- E4M3, sparse and scaled, from rows 200, 300 and 400
    let w := wordOf 0x20 (BitVec.ofNat 56 (3 * 2 ^ 51 + 2 ^ 50 + 2 ^ 49 + 200 * 2 ^ 36 + 300 * 2 ^ 23 + 400 * 2 ^ 10))
    Issues 3 w (onCore w) ∧ twloadBad w = false ∧ fld w 48 36 + 16 ≤ 8192 ∧ fld w 35 23 + metaRowCount (classOf (fld w 54 51)) true ≤ 8192 ∧
      fld w 22 10 + scaleRowCount (classOf (fld w 54 51)) true true ≤ 8192 :=
  ⟨issues_onCore _ _ rfl, by decide +kernel⟩

theorem witness_TmacAccumulates : -- the example of 05: buffer 1 and g5[12:0] = 64
    let w : BitVec 64 := wordOf 0x21 0x9B080200200280; let k : Core := { g := [(5, 64)], wbuf1 := { valid := true, fmt := 3 } }
    let u := (onCore w k).atIssue 3 w; let o := tmacOp w ((u.core 3).greg (fld w 11 7)); let b := (u.core 3).wbuf o.buf
    Issues 3 w (onCore w k) ∧ tmacBad w = false ∧ b.valid = true ∧ pairAcc o.afmt o.asc b.fmt b.scaled = some false ∧ o.m ≠ 0 ∧
      tmacRangeBad o (logicalK (pairClass o.afmt b.fmt) b.sparse / 64) = false :=
  ⟨issues_onCore _ _ rfl, by decide +kernel⟩

theorem witness_TmacAccumulates_empty : -- the same with M = 0; a job of unit 2, its last segment
    (let w : BitVec 64 := wordOf 0x21 0x9B080200200280; let k : Core := { wbuf1 := { valid := true, fmt := 3 } }
     let o := tmacOp w ((((onCore w k).atIssue 3 w).core 3).greg (fld w 11 7)); Issues 3 w (onCore w k) ∧ o.m = 512) ∧
    (let w : BitVec 64 := wordOf 0x21 (0x9B080200200280 - 512 * 2 ^ 12); let o := tmacOp w 0; Issues 3 w (onCore w) ∧ o.m = 0 ∧ tmacBad w = false) ∧
    (let o := tmacOp 0x219B080200200280 64; 63 * segPerRow o.afmt < o.m) ∧
    (let j : Job := { unit := 2, word := 0x219B080200200280, g0 := 64, wbuf := { valid := true, fmt := 3 } }; let o := tmacOp j.word j.g0
     j.unit = 2 ∧ pairAcc o.afmt o.asc j.wbuf.fmt j.wbuf.scaled = some false) :=
  ⟨⟨issues_onCore _ _ rfl, by decide +kernel⟩, ⟨issues_onCore _ _ rfl, by decide +kernel⟩, by decide +kernel, by decide +kernel⟩

/-- TDRAIN of 512 rows to BF16 from row 50 on. -/
def drainWord : BitVec 64 := wordOf 0x22 (BitVec.ofNat 56 (512 * 2 ^ 34 + 50 * 2 ^ 21 + 1 * 2 ^ 17))

theorem witness_TdrainWrites :
    let w := drainWord; let s := onCore w; let u := s.atIssue 3 w; let gp := fld w 8 5
    let o := drainOp w ((u.core 3).greg (2 * gp)) ((u.core 3).greg (2 * gp + 1))
    Issues 3 w s ∧ tdrainBad w = false ∧ o.rows = 512 ∧ drainRangeBad o = false ∧ segPerRow o.dfmt = 4 ∧
      (drainTargets o).any (fun r => u.residentLocked 3 r) = false :=
  ⟨issues_onCore _ _ rfl, by decide +kernel⟩

theorem witness_TdrainWrites_scales : -- a drain to MXFP8 with its scale rows; a write of its first place
    (let o := drainOp (wordOf 0x22 (BitVec.ofNat 56 (512 * 2 ^ 34 + 50 * 2 ^ 21 + 3 * 2 ^ 17 + 2 ^ 9))) 0 0; o.rows = 512) ∧
    (withCore { timing := { jobs := [{ unit := 3, word := drainWord, g0 := 0 }] } }).core 3 ≠ {} ∧
    (((withCore { timing := { jobs := [{ unit := 3, word := drainWord, g0 := 0 }] } }).core 3).timing.jobs[0]?).isSome = true := by decide +kernel

theorem witness_TdrainProtected :
    let w := drainWord; let s := planned true w; let u := s.atIssue 3 w; let gp := fld w 8 5
    let o := drainOp w ((u.core 3).greg (2 * gp)) ((u.core 3).greg (2 * gp + 1))
    Issues 3 w s ∧ tdrainBad w = false ∧ o.rows ≠ 0 ∧ drainRangeBad o = false ∧ s.isRunning = true ∧
      ∃ r ∈ drainTargets o, r < s.residentRows 3 := by
  refine ⟨issues_onCore _ _ rfl, by decide +kernel, by decide +kernel, by decide +kernel, rfl, 50, by decide +kernel, by decide +kernel⟩
theorem witness_VectorLanesAndReduction : -- ADD with every register 0, EXP2, and a sum
    let v := fun opc => ((onCore (wordOf opc 0)).atIssue 3 (wordOf opc 0)).core 3
    let o := fun opc => vecOp (wordOf opc 0)
    (∀ opc, Issues 3 (wordOf opc 0) (onCore (wordOf opc 0))) ∧ (∀ opc ∈ [0x30, 0x31, 0x32, 0x34, 0x35], vecRsv (wordOf opc 0) = false) ∧
      (laneOp 4 (floatLane 0 0) ((v 0x30).vreg 0) ((v 0x30).vreg 0) ((v 0x30).vreg 0)).isSome = true ∧
      (laneOp 2 (floatLane 1 0) ((v 0x31).vreg 0) ((v 0x31).vreg 0) ((v 0x31).vreg 0)).isSome = true ∧
      (laneOp 4 (intLane 0 false) ((v 0x32).vreg 0) ((v 0x32).vreg 0) ((v 0x32).vreg 0)).isSome = true ∧
      (laneOp 4 (fun a _ _ => fnLane (o 0x34).fn a) ((v 0x34).vreg 0) vZero vZero).isSome = true ∧
      (reduceLanes (o 0x35).fn ((v 0x35).vreg 0)).isSome = true :=
  ⟨fun _ => issues_onCore _ _ rfl, by decide +kernel, by decide +kernel, by decide +kernel, by decide +kernel, by decide +kernel,
    by decide +kernel⟩

theorem witness_VectorLanesAndReduction_each : -- every FN of each operation, the last register of each field, and SAT
    (∀ fn ∈ List.range 12, ∀ f ∈ [0, 1], (floatLane f fn 0 0 0).isSome = true) ∧
    (∀ fn ∈ [0, 1, 2, 3, 4, 5, 6, 7, 8, 9, 11], (intLane fn (decide (fn ≤ 1)) 0 0 0).isSome = true) ∧ (∀ fn ∈ [0, 1, 2, 3], (fnLane fn 0).isSome = true) ∧
    (∀ fn ∈ [0, 1, 2, 0x10, 0x11, 0x12], (reduceLanes fn vZero).isSome = true) ∧
    (∀ x ∈ [(0x30, 11), (0x31, 11), (0x32, 11), (0x34, 3), (0x35, 18)], let w := wordOf x.1 (BitVec.ofNat 56 (x.2 * 2 ^ 50 + 15 * 2 ^ 46 + 15 * 2 ^ 42))
      vecRsv w = false ∧ (vecOp w).fn = x.2 ∧ (vecOp w).vd = 15 ∧ (vecOp w).va = 15 ∧ (vecOp w).sat = false) ∧
    (let w := wordOf 0x32 (BitVec.ofNat 56 (2 ^ 50 + 2 ^ 33)); vecRsv w = false ∧ (vecOp w).fn = 1 ∧ (vecOp w).sat = true ∧
      (laneOp 4 (intLane 1 true) vZero vZero vZero).isSome = true) ∧
    (laneOp 4 (floatLane 0 11) vZero vZero vZero).isSome = true ∧ (laneOp 2 (floatLane 1 11) vZero vZero vZero).isSome = true ∧
    (laneOp 4 (fun a _ _ => fnLane 3 a) vZero vZero vZero).isSome = true := by decide +kernel

theorem witness_VcvtConverts : -- FP32 to BF16 under SR at position 3; BF16 to FP32
    (let w := wordOf 0x33 (BitVec.ofNat 56 (1 * 2 ^ 48 + 3 * 2 ^ 36 + 4 * 2 ^ 33)); Issues 3 w (onCore w) ∧ vcvtBad w = false ∧ (cvtOp w).narrowing = true) ∧
    (let w := wordOf 0x33 (BitVec.ofNat 56 (1 * 2 ^ 52)); Issues 3 w (onCore w) ∧ vcvtBad w = false ∧ (cvtOp w).narrowing = false) :=
  ⟨⟨issues_onCore _ _ rfl, by decide +kernel⟩, ⟨issues_onCore _ _ rfl, by decide +kernel⟩⟩

theorem witness_VectorMemoryAccess : -- row 99, the last resident row of the plan
    (∀ opc run, Issues 3 (wordOf opc 0x6300000000000) (planned run (wordOf opc 0x6300000000000))) ∧
    (∀ opc ∈ [0x38, 0x39, 0x3A, 0x3B], fld (wordOf opc 0x6300000000000) 41 0 = 0) ∧
    (let w := wordOf 0x39 0x630000000000
     Issues 3 w (planned true w) ∧ fld w 39 0 = 0 ∧ fld w 52 40 = 99 ∧ ((planned true w).atIssue 3 w).residentLocked 3 99 = true ∧
       ((planned false w).atIssue 3 w).residentLocked 3 99 = false ∧ ((planned false w).actsLeft 0 = 0)) :=
  ⟨fun _ _ => issues_onCore _ _ rfl, by decide +kernel, issues_onCore _ _ rfl, by decide +kernel⟩

/-- The state that a command leaves, if it answers a next state. -/
def after (o : Host.Outcome State Fault Refusal) : State := match o with | .next t => t | _ => State.reset

theorem test_vld_reads_in_its_cycle : -- a VLD of row 99 into v2 and v3, whole at the end of the frame
    let w := wordOf 0x38 (BitVec.ofNat 56 (1 * 2 ^ 53 + 99 * 2 ^ 40))
    let s := { onCore w with mem := [(memRowAddr 3 99, 7), (memRowAddr 3 99 + 256, 9)] }
    let k := ((after (exec (.vld 3 (BitVec.ofNat 56 (1 * 2 ^ 53 + 99 * 2 ^ 40))) s)).runCore 3).core 3
    (k.vreg 2).head? = some 7 ∧ (k.vreg 3).head? = some 9 := by decide +kernel

theorem test_vst_lands_two_cycles_on : -- the next instruction, a VLD of the same row, still reads what stood there; one a cycle later reads the new row
    let w := wordOf 0x39 (BitVec.ofNat 56 (99 * 2 ^ 40)); let l := wordOf 0x38 (BitVec.ofNat 56 (1 * 2 ^ 53 + 99 * 2 ^ 40))
    let s := after (exec (.vst 3 (BitVec.ofNat 56 (99 * 2 ^ 40))) (onCore w { prog := [l], v := [(0, [5])] }))
    let t := after (exec (.vld 3 (BitVec.ofNat 56 (1 * 2 ^ 53 + 99 * 2 ^ 40))) s)
    let n := after (exec (.nop 3 0) (after (exec (.vst 3 (BitVec.ofNat 56 (99 * 2 ^ 40))) (onCore w { prog := [wordOf 0x01 0, wordOf 0x01 0, l], v := [(0, [5])] }))))
    let v := after (exec (.vld 3 (BitVec.ofNat 56 (1 * 2 ^ 53 + 99 * 2 ^ 40))) (after (exec (.nop 3 0) n)))
    (((t.runCore 3).core 3).vreg 2).head? = some 0 ∧ (((v.runCore 3).core 3).vreg 2).head? = some 5 := by decide +kernel

theorem witness_RowcpCopies : -- the last row of the scratchpad to the last row of the cluster memory
    let w := wordOf 0x40 (BitVec.ofNat 56 (2 ^ 54 + 8191 * 2 ^ 39 + 32767 * 2 ^ 24 + 1 * 2 ^ 10)); let s := onCore w; let u := s.atIssue 3 w
    Issues 3 w s ∧ fld w 9 0 = 0 ∧ fld w 23 10 = 1 ∧ fld w 53 39 + 1 ≤ copyRows (fld w 55 55) ∧ fld w 38 24 + 1 ≤ copyRows (fld w 54 54) ∧
      fld w 55 55 ≠ fld w 54 54 ∧ (List.range 1).any (fun i => u.residentLocked (copyMem 3 1) (fld w 38 24 + i)) = false :=
  ⟨issues_onCore _ _ rfl, by decide +kernel⟩

theorem witness_RemoteRequests : -- route 3, row 0x1FFF; g1 holds a row address
    ∀ isGet : Bool, let w := wordOf (if isGet then 0x48 else 0x49) (BitVec.ofNat 56 (1 * 2 ^ 51 + 0x1FFF * 2 ^ 38 + 2 * 2 ^ 34 + 3 * 2 ^ 18))
      let s := planned true w { g := [(1, 0x2000000000)] }
      let u := (s.untilSlot 3).atIssue 3 w
      Issues 3 w (s.untilSlot 3) ∧ (s.core 3).freeSlot.isSome = true ∧ fld w 17 0 = 0 ∧ (u.core 3).freeSlot = some 0 ∧ ((u.core 3).greg (fld w 55 51)).toNat % 512 = 0 ∧
        u.residentLocked 3 (fld w 50 38) = false ∧ (u.requestRoute 3 (fld w 33 18)).isSome = true := by
  intro isGet
  refine ⟨issues_onCore _ _ rfl, ?_⟩
  cases isGet <;> decide +kernel

theorem witness_RemoteRequests_full : -- all sixteen slots taken
    let w := wordOf 0x49 0; let s := onCore w { slots := (List.range 16).map (fun i => (i, some ⟨false, 0, 0, 0, 3, 0, 0⟩)) }
    Issues 3 w (s.untilSlot 3) ∧ fld w 17 0 = 0 ∧ (((s.untilSlot 3).atIssue 3 w).core 3).freeSlot = none :=
  ⟨issues_onCore _ _ rfl, by decide +kernel⟩

theorem witness_SendersSendRows : -- route 1 or 2, with N = 0 and with 7 rows up to the last row
    (∀ n, Issues 3 (wordOf 0x50 (BitVec.ofNat 56 (1 * 2 ^ 40 + n))) (planned true (wordOf 0x50 (BitVec.ofNat 56 (1 * 2 ^ 40 + n))))) ∧
    (let w := wordOf 0x50 (BitVec.ofNat 56 (1 * 2 ^ 40 + 8185 * 2 ^ 27 + 8185 * 2 ^ 12 + 7)); let s := planned true w
     Issues 3 w s ∧ fld w 2 0 = 7 ∧ fld w 39 27 + 7 ≤ 8192 ∧ fld w 26 12 + 7 ≤ copyRows (fld w 7 7) ∧
       ((s.atIssue 3 w).sendRoute 3 (fld w 55 40) (some 0)).isSome = true) ∧
    (let w := wordOf 0x51 (BitVec.ofNat 56 (2 * 2 ^ 40 + 1)); let s := planned true w
     Issues 3 w s ∧ ((s.atIssue 3 w).sendRoute 3 (fld w 55 40) (some 1)).isSome = true) :=
  ⟨fun _ => issues_onCore _ _ rfl, ⟨issues_onCore _ _ rfl, by decide +kernel⟩, issues_onCore _ _ rfl, by decide +kernel⟩

/-- A running step's panel with one packet at its die's local output, and core 35 of logical die 2 as its receiver's neighbour. -/
def withPacket (p : Packet) (run : Bool := true) : State :=
  { planned run 0 with fabric := { packets := [p] } }

theorem witness_SendAddressFault :
    (let w := wordOf 0x50 (BitVec.ofNat 56 (8191 * 2 ^ 27 + 2)); Issues 3 w (onCore w) ∧ 8191 < fld w 39 27 + fld w 2 0 - 1) ∧
    (let w := wordOf 0x51 (BitVec.ofNat 56 (8191 * 2 ^ 12 + 2)); Issues 3 w (onCore w) ∧ fld w 7 7 = 0 ∧ 8191 < fld w 26 12 + fld w 2 0 - 1) ∧
    (let w := wordOf 0x52 (BitVec.ofNat 56 (32767 * 2 ^ 12 + 2 ^ 7 + 2)); Issues 3 w (onCore w) ∧ fld w 7 7 = 1 ∧ 32767 < fld w 26 12 + fld w 2 0 - 1) ∧
    (let p : Packet := { isLocal := true, place := 0, dcore := 3, drow := 99, core := 2303, wait := [0] }; let s := withPacket p
     s.packet 0 = some p ∧ s.ready 0 p = true ∧ p.typ = 0 ∧ p.dm = 0 ∧ s.dieAt p.place = some 0 ∧ s.dieGone p.place = false ∧
       p.drow < s.residentRows (0 * 16 + p.dcore) ∧ s.isRunning = true ∧ p.core < 2304) :=
  ⟨⟨issues_onCore _ _ rfl, by decide +kernel⟩, ⟨issues_onCore _ _ rfl, by decide +kernel⟩, ⟨issues_onCore _ _ rfl, by decide +kernel⟩,
    by decide +kernel⟩

theorem witness_RedsendAndSig :
    (let w := wordOf 0x53 (BitVec.ofNat 56 (9 * 2 ^ 40 + 100 * 2 ^ 24)); let s := planned true w
     Issues 3 w s ∧ fld w 2 0 = 0 ∧ ((s.atIssue 3 w).treeOf (3 / 16) (fld w 55 40) (fld w 39 37)).isSome = true) ∧
    (let w := wordOf 0x54 (BitVec.ofNat 56 (1 * 2 ^ 40 + 15 * 2 ^ 32)); let s := planned true w
     Issues 3 w s ∧ fld w 31 0 = 0 ∧ ((s.atIssue 3 w).sendRoute 3 (fld w 55 40) none).isSome = true) :=
  ⟨⟨issues_onCore _ _ rfl, by decide +kernel⟩, issues_onCore _ _ rfl, by decide +kernel⟩

theorem witness_CycleLimitFailsStep :
    ({ withCore {} with clusters := [(0, { held := true })] } : State).clockHeld 3 = true ∧
    let s := planned true 0 { limit := 1 }; s.clockHeld 3 = false ∧ (s.core 3).live = true ∧ (s.core 3).limit ≠ 0 ∧ (s.core 3).overran = false ∧ s.isRunning = true ∧
      (s.core 3).latch = none := by decide +kernel
/-! ### A panel whose slot 31 holds the command to be accepted next -/

/-- A slot's bytes (Table 9.7): OPCODE, TAG 0x2A, FLAGS with OWN, LENGTH, PAYLOAD_ADDR, DEST_SLOT 0xFFFF and the payload. -/
def slotImage (op flags len payAddr : Nat) (payload : List Byte) : List Byte :=
  toLE 2 op ++ toLE 1 0x2A ++ toLE 1 (flags + 1) ++ toLE 4 len ++ toLE 8 payAddr ++ toLE 2 0xFFFF ++ List.replicate 14 0 ++ payload

/-- A panel that is READY, has the log enabled and takes the command from slot 31. -/
def asked (op : Nat) (payload : List Byte) (s : State := State.reset) : State :=
  { s with host := { linkUp := true, slots := writeBytes [] (31 * 256) (slotImage op 0 payload.length 0 payload), acceptQ := [31] },
           log := { enable := true }, boot := { tolniReady := true, ready := true } }

/-- As `asked`, with an INDIRECT payload of `len` bytes at host address 64. -/
def askedFar (op len : Nat) (s : State := State.reset) : State :=
  { asked op [] s with host := { (asked op [] s).host with slots := writeBytes [] (31 * 256) (slotImage op 2 len 64 []) } }

theorem accepts_def (op : Nat) (s : State) (h : s.accepting = true ∧ s.host.acceptQ.head? = some 31 ∧ (s.slotCmd 31).opcode = op ∧
    s.acceptFail (s.slotCmd 31) (s.slotBytes 31) = none) : Accepts 31 op s := ⟨by decide, h⟩

theorem laneFree_def (s : State) (h : (s.cmds.lane = [] ∧ (s.slotCmd 31).dest = 0xFFFF ∧ s.boot.resetTag = none) ∧
    State.laneBlocked { s.takeSlot 31 with cmds := { (s.takeSlot 31).cmds with lane := [s.slotCmd 31] } } (s.slotCmd 31) = false) :
    LaneFree 31 s := ⟨h.1.1, h.1.2.1, h.1.2.2, h.2⟩

theorem witness_ReportsAnswerAtOnce : -- HOST_ADDR 64
    (∀ op ∈ [0x001, 0x402, 0x403, 0x404, 0x405], Accepts 31 op (asked op (toLE 8 64))) ∧
      (theCmd (asked 1 (toLE 8 64)) 31).arg 0 8 % 64 = 0 := by
  refine ⟨?_, by decide +kernel⟩
  intro op h
  apply accepts_def
  revert op; decide +kernel

theorem witness_RecordQueries : -- MAX 5 with CONSUME; 1,440 minutes
    (let s := asked 0x401 (toLE 8 64 ++ toLE 4 5 ++ toLE 4 1); let c := theCmd s 31
     Accepts 31 0x401 s ∧ c.arg 0 8 % 64 = 0 ∧ bitsOf (c.arg 12 4) 31 1 = 0) ∧
    (let s := asked 0x501 (toLE 8 64 ++ toLE 4 1440 ++ toLE 4 0); let c := theCmd s 31
     Accepts 31 0x501 s ∧ c.arg 0 8 % 64 = 0 ∧ c.arg 8 4 ≤ 1440 ∧ c.arg 12 4 = 0) :=
  ⟨⟨accepts_def _ _ (by decide +kernel), by decide +kernel⟩, accepts_def _ _ (by decide +kernel), by decide +kernel⟩

theorem witness_ReadCertReadAttest :
    (let s := asked 0x104 (toLE 4 keyFrameTicks ++ toLE 12 0); let c := theCmd s 31
     Accepts 31 0x104 s ∧ c.arg 8 8 % 64 = 0 ∧ c.arg 4 4 = 0 ∧ keyDefined (c.arg 0 4) = true) ∧
    (let s := asked 0x602 (toLE 8 64 ++ toLE 4 10912 ++ toLE 4 0); let c := theCmd s 31
     Accepts 31 0x602 s ∧ c.arg 0 8 % 64 = 0 ∧ c.arg 12 4 = 0 ∧ 10912 ≤ c.arg 8 4) ∧
    (let s := asked 0x601 (List.replicate 32 7 ++ toLE 8 64); Accepts 31 0x601 s ∧ (theCmd s 31).arg 32 8 % 64 = 0) :=
  ⟨⟨accepts_def _ _ (by decide +kernel), by decide +kernel⟩, ⟨accepts_def _ _ (by decide +kernel), by decide +kernel⟩,
    accepts_def _ _ (by decide +kernel), by decide +kernel⟩

theorem witness_CommandChecks : -- an undefined opcode; HOST_ADDR 63
    (let s := asked 0x7FF []; (s.acceptFail (s.slotCmd 31) (s.slotBytes 31)).isSome = true) ∧
    (∀ x ∈ [(0x001, 8, 0), (0x402, 8, 0), (0x403, 8, 0), (0x404, 8, 0), (0x405, 8, 0), (0x401, 16, 0), (0x501, 16, 0), (0x602, 16, 0), (0x104, 16, 8), (0x601, 40, 32)],
      let s := asked x.1 (List.replicate x.2.2 0 ++ fitBytes (x.2.1 - x.2.2) (toLE 8 63)); Accepts 31 x.1 s ∧ (theCmd s 31).arg x.2.2 8 % 64 ≠ 0) := by
  refine ⟨by decide +kernel, ?_⟩
  intro x h
  refine ⟨accepts_def _ _ ?_, ?_⟩ <;> revert x <;> decide +kernel

/-- The standalone panel of the example of 10 at 10,120,000 ns, its set of FRAME_TICKS = 40,000 and perhaps ENVELOPE_STRETCH = 4,000 staged. -/
def example10 (both : Bool) : State :=
  { State.reset with
    straps := { role := 2, profile := 0, boot := 0, hlw := false, id := 0 }
    clock := { timebase := 10120000, counting := true, lastTick := 10000000, nextTick := some 10500000 }
    settings := { committed := [(keyFrameTicks, 500000), (keyEnvelopeStretch, 50000)]
                  staged := [⟨keyFrameTicks, 0, 0, 40000⟩] ++ (if both then [⟨keyEnvelopeStretch, 0, 0, 4000⟩] else []) } }

theorem test_proof_example10 : -- one entry breaks the stretch rule at the lower key; two entries pass
    (example10 false).proofFails (example10 false).settings.staged = some (0x303, 0x01000001) ∧
      (example10 true).proofFails (example10 true).settings.staged = none := by decide +kernel

/-- A panel past its first tick, or not. -/
def ticked (b : Bool) (s : State) : State := { s with boot := { s.boot with firstTick := b } }

theorem test_commit_example10 : -- COMMIT with TICK = 0: the effective tick is 11,500,000
    (match exec (.commit 31) (ticked true (asked 0x103 (toLE 8 0) (example10 true))) with
     | .next t => t.settings.pendingCommit.map (fun p => t.tickAtOrAfter p.tick)
     | _ => none) = some 11500000 := by decide +kernel

theorem witness_StageAndProof :
    (let s := asked 0x101 (toLE 8 64 ++ toLE 4 2 ++ toLE 4 1); let c := theCmd s 31
     Accepts 31 0x101 s ∧ LaneFree 31 s ∧ c.arg 0 8 % 64 = 0 ∧ bitsOf (c.arg 12 4) 31 1 = 0 ∧
       ((s.readEntries (c.arg 0 8) (c.arg 8 4)).foldl stageEntry []).length ≤ 4096) ∧
    (let s := asked 0x102 [] (example10 true)
     Accepts 31 0x102 s ∧ LaneFree 31 s ∧ s.settings.staged ≠ [] ∧ (inLane s 31).proofFails s.settings.staged = none) :=
  ⟨⟨accepts_def _ _ (by decide +kernel), laneFree_def _ (by decide +kernel), by decide +kernel⟩,
    accepts_def _ _ (by decide +kernel), laneFree_def _ (by decide +kernel), by decide +kernel⟩

theorem witness_StageAndProof_empty :
    (let s := asked 0x102 []; Accepts 31 0x102 s ∧ LaneFree 31 s ∧ s.settings.staged = []) ∧
    (let s := asked 0x103 (toLE 8 0); Accepts 31 0x103 s ∧ LaneFree 31 s ∧ s.settings.staged = []) :=
  ⟨⟨accepts_def _ _ (by decide +kernel), laneFree_def _ (by decide +kernel), rfl⟩, accepts_def _ _ (by decide +kernel), laneFree_def _ (by decide +kernel), rfl⟩

theorem witness_CommitFixesTick : -- at once and at the earliest time
    (∀ b, let s := ticked b (asked 0x103 (toLE 8 0) (example10 true)); Accepts 31 0x103 s ∧ LaneFree 31 s ∧ s.settings.staged ≠ [] ∧
      (inLane s 31).proofFails s.settings.staged = none ∧ (theCmd s 31).arg 0 8 = 0) ∧
    (let s := asked 0x103 (toLE 8 (2 ^ 60)) (example10 true); (inLane s 31).earliestCommit s.settings.staged ≤ (theCmd s 31).arg 0 8) := by
  refine ⟨?_, by decide +kernel⟩
  intro b
  cases b <;> exact ⟨accepts_def _ _ (by decide +kernel), laneFree_def _ (by decide +kernel), by decide +kernel⟩
/-- A standalone panel with the small plan, in a step state. -/
def ready5 (st : StepState) : State :=
  { State.reset with
    straps := { role := 2, profile := 0, boot := 0, hlw := false, id := 0 }, units := { gridClass := 144 }
    clock := { timebase := 10120000, counting := true, lastTick := 10000000, nextTick := some 10500000 }
    settings := { committed := [(keyFrameTicks, 500000)] }
    plan := some smallPlan, step := { state := st, stepIndex := 7 } }

/-- The manager of a group of two whose other slot has joined. -/
def manager : State :=
  { ready5 .idle with straps := { role := 1, profile := 0, boot := 0, hlw := false, id := 0 }, plan := none
                      settings := { committed := [(keyGroupSize 0, 2)] }, group := { joined := [1] } }

theorem witness_PlanLoads : -- alone and as a manager
    (let s := asked 0x201 (toLE 8 64 ++ toLE 8 4096) (ready5 .idle)
     Accepts 31 0x201 s ∧ LaneFree 31 s ∧ (inLane s 31).loadGate = 0 ∧ (theCmd s 31).arg 0 8 % 64 = 0 ∧ (inLane s 31).leads = false) ∧
    (let s := asked 0x201 (toLE 8 64 ++ toLE 8 4096) manager
     Accepts 31 0x201 s ∧ LaneFree 31 s ∧ (inLane s 31).loadGate = 0 ∧ (theCmd s 31).arg 0 8 % 64 = 0 ∧ (inLane s 31).leads = true ∧
       (inLane s 31).allJoined = true) :=
  ⟨⟨accepts_def _ _ (by decide +kernel), laneFree_def _ (by decide +kernel), by decide +kernel⟩,
    accepts_def _ _ (by decide +kernel), laneFree_def _ (by decide +kernel), by decide +kernel⟩

theorem witness_CommandChecks_each : -- each check of Table 9.8 as the first that fails; the length of an INDIRECT payload of more than 1 MiB is refused before its size
    let c : Cmd := { opcode := 0x801, tag := 9, flags := 0, len := 8, payAddr := 0, dest := 0xFFFF, payload := [] }
    let b : List Byte := List.replicate 256 0; let s := manager
    s.acceptFail c b = none ∧ s.acceptFail { c with opcode := 0x7FF, flags := 8 } b = some (0x102, 0, 0) ∧ s.acceptFail { c with flags := 8 } (b.set 0x1F 1) = some (0x102, 3, 0) ∧
      ({ s with cmds := { inflight := [c] } } : State).acceptFail c (b.set 0x1F 1) = some (0x102, 0x1F, 0) ∧
      ({ s with cmds := { inflight := [c] } } : State).acceptFail { c with len := 9 } b = some (0x109, 2, 2) ∧
      s.acceptFail { c with len := 9, flags := 2, payAddr := 1 } b = some (0x108, 4, 0) ∧ s.acceptFail { c with opcode := 0x603, len := 5408, dest := 0 } b = some (0x108, 4, 0) ∧
      s.acceptFail { c with flags := 2, payAddr := 1, dest := 0 } b = some (0x10A, 8, 0) ∧ s.acceptFail { c with flags := 2, len := 2 ^ 20 + 1 } b = some (0x108, 4, 0) ∧
      s.acceptFail { c with payAddr := 64, dest := 0 } b = some (0x10A, 8, 0) ∧ s.acceptFail { c with opcode := 0x803, len := 0, dest := 5 } b = some (0x108, 0x10, 0) ∧
      (ready5 .idle).acceptFail { c with dest := 5 } b = some (0x20B, 0, 0) := by decide +kernel

/-- An image of class 144 with one program of one word, for core 3, and a frame table of one frame. -/
def planHead : List Byte :=
  toLE 4 0x4E4C5047 ++ toLE 2 1 ++ toLE 2 0x100 ++ toLE 8 0x25A0 ++ toLE 8 0x25E0 ++ toLE 4 0 ++ toLE 4 4 ++ toLE 8 1 ++ toLE 8 0 ++
    toLE 2 144 ++ toLE 2 0 ++ toLE 2 1450 ++ toLE 2 1 ++ toLE 8 0 ++ toLE 4 500000 ++ toLE 4 1024 ++ toLE 4 1 ++ toLE 4 1000 ++ toLE 16 0 ++
    toLE 8 0x100 ++ List.replicate 0x98 0
def planDir : List Byte :=
  [(1, 2304, 0x198, 9216), (2, 1, 0x180, 16), (4, 0, 0x190, 0), (10, 8, 0x190, 8)].flatMap (fun e : Nat × Nat × Nat × Nat =>
    toLE 4 e.1 ++ toLE 4 e.2.1 ++ toLE 8 e.2.2.1 ++ toLE 8 e.2.2.2 ++ toLE 8 0)
def planBody : List Byte := planHead ++ planDir ++ toLE 4 3 ++ toLE 4 1 ++ toLE 8 0x190 ++ toLE 8 (wordOf 0x03 0).toNat ++ List.replicate 9224 0
def planImg : List Byte := planBody ++ digest64 planBody

theorem planBody_length : planBody.length = 0x25A0 := by decide +kernel
theorem planImg_length : planImg.length = 0x25E0 := by simp [planImg, planBody_length, digest64_length]
theorem planImg_off : digestOff planImg = 0x25A0 := by decide +kernel

theorem planImg_check3 : check3 planImg = none := by
  unfold check3
  rw [planImg_length, planImg_off]
  decide +kernel

theorem planImg_check4 : check4 planImg = none := by
  unfold check4
  rw [planImg_off, planImg, ← planBody_length, List.take_left, List.drop_left, ← digest64_length planBody, List.take_length]
  simp

theorem planImg_checks : check7 planImg = none ∧ check8 planImg = none ∧ check9 planImg = none ∧ check10 planImg = none ∧ check11 planImg = none := by
  decide +kernel

/-- The image passes where the panel has class 144 and runs no step. -/
theorem planImg_passes (s : State) (h : (s.formMap true).grid = 144 ∧ s.shownState ≠ .running ∧ s.security.policy.signedOnly = false) :
    s.planChecks planImg = none := by
  have e : isSigned planImg = false ∧ field planImg 0x30 2 = 144 ∧ field planImg 0x38 8 = 0 ∧ field planImg 0x32 2 = 0 ∧ hbmSpans planImg = [] := by decide +kernel
  obtain ⟨c7, c8, c9, c10, c11⟩ := planImg_checks
  simp [State.planChecks, planImg_check3, planImg_check4, State.check56, e, h, c7, c8, c9, c10, c11]

theorem witness_PlanLoads_passes :
    let s := asked 0x201 (toLE 8 64 ++ toLE 8 0x25E0) { ready5 .idle with hostMem := writeBytes [] 64 planImg }
    Accepts 31 0x201 s ∧ LaneFree 31 s ∧ (inLane s 31).loadGate = 0 ∧ (theCmd s 31).arg 0 8 % 64 = 0 ∧ (inLane s 31).leads = false ∧
      (inLane s 31).planChecks (s.hostBytes ((theCmd s 31).arg 0 8) ((theCmd s 31).arg 8 8)) = none ∧
      programsOf planImg = [(3, [wordOf 0x03 0])] := by
  intro s
  have hb : s.hostBytes ((theCmd s 31).arg 0 8) ((theCmd s 31).arg 8 8) = planImg := by
    have ha : (theCmd s 31).arg 0 8 = 64 ∧ (theCmd s 31).arg 8 8 = 0x25E0 := by decide +kernel
    have hr := readBytes_writeBytes_same [] 64 planImg
    have hd : ∀ n, s.hostBytes 64 n = readBytes (writeBytes [] 64 planImg) 64 n := by
      intro n
      simp only [s, asked, State.hostBytes]
    rw [planImg_length] at hr
    rw [ha.1, ha.2, hd, hr]
  refine ⟨accepts_def _ _ (by decide +kernel), laneFree_def _ (by decide +kernel), by decide +kernel, by decide +kernel, by decide +kernel, ?_, by decide +kernel⟩
  rw [hb]
  exact planImg_passes _ (by decide +kernel)

theorem witness_PlanLoads_ends : -- a load that has begun, and none
    (let c : Cmd := { opcode := 0x201, tag := 9, flags := 0, len := 16, payAddr := 0, dest := 0xFFFF, payload := [] }
     let s : State := { ready5 .idle with cmds := { inflight := [c], loading := some 9 } }
     s.cmds.loading = some 9 ∧ s.cmdOf 9 = some c) ∧ (ready5 .idle).cmds.loading = none := by decide +kernel

theorem witness_StepStartsAndReplays : -- PLAN_ID 1, STEP_INDEX 7, no descriptors; a replay after completion and after failure
    (let s := asked 0x202 (toLE 8 1 ++ toLE 8 7 ++ toLE 8 1) (ready5 .idle)
     Accepts 31 0x202 s ∧ LaneFree 31 s ∧ (inLane s 31).startFail (theCmd s 31) = none ∧ s.plan = some smallPlan) ∧
    (∀ st ∈ [StepState.awaitCommit, .failed], let s := asked 0x204 (toLE 8 7) (ready5 st); let t := inLane s 31
     Accepts 31 0x204 s ∧ LaneFree 31 s ∧ t.gate false = 0 ∧ t.shownState = st ∧ s.plan = some smallPlan ∧
       (theCmd s 31).arg 0 8 = s.step.stepIndex ∧ (t.runConditions smallPlan).1 = 0 ∧ t.lastChecks smallPlan = 0) := by
  refine ⟨⟨accepts_def _ _ (by decide +kernel), laneFree_def _ (by decide +kernel), by decide +kernel⟩, ?_⟩
  intro st h
  simp only [List.mem_cons, List.not_mem_nil, or_false] at h
  rcases h with rfl | rfl <;> exact ⟨accepts_def _ _ (by decide +kernel), laneFree_def _ (by decide +kernel), by decide +kernel⟩

theorem witness_StepCommitFixesFlip : -- the step's index, another, and a step that is IDLE
    ∀ x ∈ [(StepState.awaitCommit, 7), (.awaitCommit, 8), (.idle, 7)], let s := asked 0x203 (toLE 8 x.2) (ready5 x.1)
      Accepts 31 0x203 s ∧ LaneFree 31 s ∧ (inLane s 31).gate true = 0 ∧ (inLane s 31).shownState = x.1 ∧ (theCmd s 31).arg 0 8 = x.2 := by
  intro x h
  simp only [List.mem_cons, List.not_mem_nil, or_false] at h
  rcases h with rfl | rfl | rfl <;> exact ⟨accepts_def _ _ (by decide +kernel), laneFree_def _ (by decide +kernel), by decide +kernel⟩

theorem witness_SignedCommands :
    (let s := askedFar 0x603 5408; Accepts 31 0x603 s ∧ LaneFree 31 s ∧ keyAddBad (theCmd s 31).payload = none) ∧
    (let s := asked 0x604 (toLE 8 0); Accepts 31 0x604 s ∧ LaneFree 31 s ∧ unlockBad (theCmd s 31) = none ∧ (theCmd s 31).arg 0 1 = 0) ∧
    (let s := askedFar 0x604 3456 { State.reset with hostMem := [(64, 2)] }
     Accepts 31 0x604 s ∧ LaneFree 31 s ∧ unlockBad (theCmd s 31) = none ∧ (theCmd s 31).arg 0 1 ≠ 0) ∧
    (let s := asked 0x605 (toLE 8 64 ++ toLE 8 0); Accepts 31 0x605 s ∧ LaneFree 31 s) :=
  ⟨⟨accepts_def _ _ (by decide +kernel), laneFree_def _ (by decide +kernel), by decide +kernel⟩,
    ⟨accepts_def _ _ (by decide +kernel), laneFree_def _ (by decide +kernel), by decide +kernel⟩,
    ⟨accepts_def _ _ (by decide +kernel), laneFree_def _ (by decide +kernel), by decide +kernel⟩,
    accepts_def _ _ (by decide +kernel), laneFree_def _ (by decide +kernel)⟩

theorem witness_ResetsBegin :
    (let s := asked 0x701 (toLE 4 1) (ready5 .idle); Accepts 31 0x701 s ∧ LaneFree 31 s ∧ bitsOf ((theCmd s 31).arg 0 4) 31 1 = 0) ∧
    (let s := asked 0x702 []; Accepts 31 0x702 s ∧ LaneFree 31 s) :=
  ⟨⟨accepts_def _ _ (by decide +kernel), laneFree_def _ (by decide +kernel), by decide +kernel⟩,
    accepts_def _ _ (by decide +kernel), laneFree_def _ (by decide +kernel)⟩

theorem witness_RetrainAndWindow : -- every port; the first 512 B of HBM for slot 5
    (let s := asked 0x801 (toLE 8 (2 ^ 64 - 1)); Accepts 31 0x801 s ∧ LaneFree 31 s) ∧
    (let s := asked 0x802 (toLE 8 (2 * 2 ^ 44) ++ toLE 8 512 ++ toLE 8 1 ++ toLE 2 5) (ready5 .idle)
     Accepts 31 0x802 s ∧ LaneFree 31 s ∧ (inLane s 31).windowFail (theCmd s 31) = none) ∧
    (let s := asked 0x803 []; Accepts 31 0x803 s ∧ LaneFree 31 s) :=
  ⟨⟨accepts_def _ _ (by decide +kernel), laneFree_def _ (by decide +kernel)⟩,
    ⟨accepts_def _ _ (by decide +kernel), laneFree_def _ (by decide +kernel), by decide +kernel⟩,
    accepts_def _ _ (by decide +kernel), laneFree_def _ (by decide +kernel)⟩

/-- The payload of the example of 09: 262,144 FP32 values to HBM byte 0 as BF16; `n` gives COUNT. -/
def dmaPayload (n : Nat) : List Byte := toLE 8 0x4000000000 ++ toLE 8 (2 * 2 ^ 44) ++ toLE 4 n ++ toLE 1 0x10 ++ toLE 3 0

theorem witness_TransfersStart : -- both directions, COUNT 0 and the example's
    ∀ x ∈ [(true, 0), (true, 0x40000), (false, 0), (false, 0x40000)], let s := asked (if x.1 then 0x301 else 0x302) (dmaPayload x.2) (ready5 .idle)
      Accepts 31 (if x.1 then 0x301 else 0x302) s ∧ TransferFree s ∧ (s.takeSlot 31).stacksWait (theCmd s 31) = false ∧ (s.takeSlot 31).dmaFail (theCmd s 31) x.1 = none ∧
        (theCmd s 31).arg 0x10 4 = x.2 := by
  intro x h
  simp only [List.mem_cons, List.not_mem_nil, or_false] at h
  rcases h with rfl | rfl | rfl | rfl <;>
    exact ⟨accepts_def _ _ (by decide +kernel), ⟨rfl, rfl, by decide +kernel, rfl⟩, by decide +kernel⟩

theorem witness_TransfersStart_waits : -- stack 0 under a mark that its probe has not settled
    let s := { asked 0x301 (dmaPayload 8) (ready5 .idle) with units := { gridClass := 144, marks := [unitId 5 0 0] } }
    Accepts 31 0x301 s ∧ TransferFree s ∧ (s.takeSlot 31).stacksWait (theCmd s 31) = true :=
  ⟨accepts_def _ _ (by decide +kernel), ⟨rfl, rfl, by decide +kernel, rfl⟩, by decide +kernel⟩

theorem test_dma_example09 : -- one transfer of 1,024 units, all in stack 0, in pieces
    (match exec (.dmaWrite 31) (asked 0x301 (dmaPayload 0x40000) (ready5 .idle)) with
     | .next t => t.cmds.xfers.map (fun x => (x.write, x.count, x.hfmt, x.pfmt, (x.pieces.map (·.count)).foldl (· + ·) 0))
     | _ => []) = [(true, 262144, 0, 1, 262144)] := by decide +kernel

theorem witness_GroupCopyOpens : -- LENGTH 0 and 65 units, to slot 1
    ∀ n ∈ [0, 65 * 512], let s := asked 0x804 (toLE 8 (2 * 2 ^ 44) ++ toLE 8 (2 * 2 ^ 44) ++ toLE 8 n ++ toLE 8 1) manager
      Accepts 31 0x804 s ∧ TransferFree s ∧ (s.takeSlot 31).stacksWait (theCmd s 31) = false ∧ (s.takeSlot 31).copyFail (theCmd s 31) = none ∧ (theCmd s 31).arg 16 8 = n := by
  intro n h
  simp only [List.mem_cons, List.not_mem_nil, or_false] at h
  rcases h with rfl | rfl <;> exact ⟨accepts_def _ _ (by decide +kernel), ⟨rfl, rfl, by decide +kernel, rfl⟩, by decide +kernel⟩

/-- A DMA_WRITE to HBM byte 0 of the pieces given. -/
def oneXfer (ps : List Piece) : Xfer :=
  { cmd := { opcode := 0x301, tag := 0x2A, flags := 0, len := 24, payAddr := 0, dest := 0xFFFF, payload := [] }, write := true,
    hostAddr := 0x4000000000, panelAddr := 2 * 2 ^ 44, count := 512, hfmt := 0, pfmt := 1, rm := 0, sat := false, pieces := ps, words := [],
    status := 0, detail := 0 }

/-- A panel with that transfer under way. -/
def moving (ps : List Piece) : State :=
  { ready5 .idle with host := { linkUp := true }, boot := { ready := true }, cmds := { xfers := [oneXfer ps] } }

/-- The piece of the first 256 elements. -/
def onePiece (b : Bool) : Piece := { addr := 2 * 2 ^ 44, first := 0, count := 256, running := b, word := 8 }

theorem witness_ResetsBegin_transfers : -- a transfer with a piece under way, and none
    (let s := asked 0x702 [] { ready5 .idle with cmds := { xfers := [oneXfer [{ onePiece true with word := 8 }]] } }
     Accepts 31 0x702 s ∧ LaneFree 31 s ∧ s.cmds.xfers ≠ [] ∧ s.cmds.xfers.all (fun x => !x.ofStep) = true) ∧ (asked 0x702 []).cmds.xfers = [] :=
  ⟨⟨accepts_def _ _ (by decide +kernel), laneFree_def _ (by decide +kernel), by decide +kernel⟩, rfl⟩

theorem witness_PiecesMoveAndComplete :
    (let s := moving [onePiece false]; let x := oneXfer [onePiece false]
     s.xferOf 0x2A = some x ∧ x.pieces.find? (fun p => !p.running) = some (onePiece false) ∧ s.host.linkUp = true ∧
       s.pieceReady (onePiece false) = true ∧ s.stepHeld x = false ∧ (s.pieceTest x (onePiece false)).1 = 0 ∧ s.hostChannel (s.pieceIo (onePiece false)) = some 56) ∧
    ((moving [onePiece true]).xferOf 0x2A = some (oneXfer [onePiece true]) ∧ (moving [onePiece true]).granted (pieceKey 0x2A 0) = true) ∧
    (let q := { onePiece true with chan := 56 }; let f := { oneXfer [q] with write := false }
     let p : Packet := { typ := 0xA, cls := 1, place := hubPlace, isLocal := true, tag := 0x2A, addr := 2 * 2 ^ 44, payload := List.replicate 512 7, wait := List.replicate 5 0 }
     let s : State := { moving [] with cmds := { xfers := [f] }, fabric := { packets := [p] } }
     s.packet 0 = some p ∧ s.ready 0 p = true ∧ s.cmds.xfers = [f] ∧ f.cmd.tag = p.tag ∧ q.first = p.msg ∧ q.done + 1 = f.unitsOf q ∧
       q.addr + 512 * q.done = p.addr ∧ p.fault = none) ∧
    (let q := { onePiece true with done := 1 }; (oneXfer [q]).unitsOf q ≤ q.done ∧ (moving [q]).host.linkUp = true ∧ (oneXfer [q]).ofStep = false) ∧
    (∀ st ∈ [0, 0x404], let q := { onePiece true with done := 1 }; let x := { oneXfer [q] with cmd := { (oneXfer [q]).cmd with tag := 256 }, status := st }
     let s : State := { moving [] with step := { state := .running, phase := .inputs }, cmds := { xfers := [x] } }
     s.xferOf 256 = some x ∧ x.ofStep = true ∧ s.isRunning = true ∧ s.host.linkUp = true ∧ x.unitsOf q ≤ q.done ∧ s.granted (pieceKey 256 q.first) = true ∧ s.stepHeld x = false) ∧
    (let ps := [onePiece true, onePiece true]; (moving ps).xferOf 0x2A = some (oneXfer ps) ∧ ps[1]? = some (onePiece true) ∧ (moving ps).granted (pieceKey 0x2A 0) = true ∧ ps.eraseIdx 1 ≠ []) := by
  decide +kernel

theorem witness_HostWindow : -- a slot write with OWN clear and set; an access of 3 B; a read of ID
    (asked 1 []).host.linkUp = true ∧ (asked 1 []).accessOk true 0x1000 64 = true ∧ inSlots 0x1000 64 = true ∧
      (asked 1 []).ownBit 0 = false ∧ (asked 1 []).accessOk true 0x2F00 4 = true ∧ (asked 1 []).ownBit 31 = true ∧
      (asked 1 []).accessOk false 0 3 = false ∧ (asked 1 []).accessOk false 0 8 = true := by decide +kernel

/-- A log with 8,190 records behind it and one that waits. -/
def logged (cons : Nat) (r : Rec) : State :=
  { State.reset with host := { linkUp := true }, log := { enable := true, count := 8190, cons := BitVec.ofNat 32 cons, base := 0x1000, waiting := [r] } }

theorem test_log_example09 : -- record 8,190 waits until CONS is 4,095, then lands at LOG_BASE + 0x1_FFC0
    let r : Rec := { opcode := 0x301, tag := 0x2A, flags := 0, status := 0, slot := 0xFFFF, detail := 0, timebase := 0, xferWord := 8,
                     result := 0x100000, noIrq := false, fault := false }
    (logged 4094 r).writeWaiting = logged 4094 r ∧ ((logged 4095 r).writeWaiting).log.count = 8191 ∧
      readBytes ((logged 4095 r).writeWaiting).hostMem (0x1000 + 0x1FFC0) 3 = toLE 2 0x301 ++ [0x2A] := by decide +kernel

theorem witness_RecordsAndInterrupts :
    (let s := logged 4095 { opcode := 0x702, tag := 0, flags := 0, status := 0x20F, slot := 0, detail := 0, timebase := 0, xferWord := 0,
                            result := 0, noIrq := false, fault := false }
     s.log.enable = true ∧ s.host.linkUp = true ∧ (s.log.count - s.log.cons).toNat < 4096 ∧ s.log.waiting.length = 1) ∧
    (let r : Rec := { opcode := 0x702, tag := 0, flags := 0, status := 0, slot := 0, detail := 0, timebase := 0, xferWord := 0, result := 0, noIrq := false, fault := false }
     let s := { logged 4095 r with pins := { pwrOk := true } }
     s.log.waiting = [r] ∧ s.log.enable = true ∧ s.host.linkUp = true ∧ s.pins.pwrOk = true ∧ s.pins.resetN = true ∧ s.pins.shdnN = true) ∧
    (let s := { State.reset with host := { linkUp := true }, irq := { enable := true, coalesce := 0, unsignalled := [(0, false)] } }
     s.irqDue = true ∧ s.host.linkUp = true) := by decide +kernel
/-- A planned row packet of core 3 on route 1, from die 0 to die 2. -/
def rowPkt : Packet := { routeId := 1, cls := 2, planned := true, src := 0, dst := 2, core := 3, payload := List.replicate 512 7, last := true, dctr := 15 }

theorem witness_PacketsForward : -- at its own router and at the next one, whole, with a payload error, and after a corrected one
    ∀ p ∈ [rowPkt, { rowPkt with place := 1, fromPort := 4, wait := [10, 11, 12] }, { rowPkt with place := 1, fromPort := 4, wait := [10, 11], gone := 1 }],
      let s := withPacket p; let s0 := s.enterLocal p 11; let q := (s0.packet 0).getD p
      s.packet 0 = some p ∧ p.isLocal = false ∧ s0.atHead 0 q 11 = true ∧ q.typ < 9 ∧ s0.wayUsable q = true ∧ s0.eligible 0 q 11 = true ∧
        (s0.poisonPacket 0 q).wayUsable q = true ∧ (s0.poisonPacket 0 q).eligible 0 q 11 = true ∧
        (s0.laneError q (some 7)).wayUsable q = true ∧ (s0.laneError q (some 7)).eligible 0 q 11 = true := by decide +kernel

theorem witness_PacketsForward_sinks : -- transit for the hub, transit and a management packet that leave the panel, each one flit, by the first link input
    ∀ x ∈ [(0xB, hubPlace, 3), (0xB, ioPlace 0, 3), (9, ioPlace 0, 0)],
      let p : Packet := { typ := x.1, cls := x.2.2, src := 0x1000, dst := 0x1001, place := x.2.1, ends := some (ioPlace 1, x.2.1), fromPort := 1, wait := [0], uid := 7 }
      let s := withPacket p; let s0 := s.enterLocal p 11; let q := (s0.packet 0).getD p; let s1 := s0.laneError q none
      s.packet 0 = some p ∧ p.isLocal = false ∧ s0.atHead 0 q 11 = true ∧ q.flits = 1 ∧ q.gone = 0 ∧ s1.hops q = [(0, q.place, false)] ∧
        (∀ e ∈ s0.fabric.packets, e.uid = q.uid → e.isLocal = false) ∧ s1.wayUsable q = true ∧ s1.eligible 0 q 11 = true := by decide +kernel

theorem witness_PacketsForward_marked : -- the next router under a data-path mark
    let s := { withPacket rowPkt with units := { gridClass := 144, marks := [unitId 2 1 1] } }
    let s0 := s.enterLocal rowPkt 0; let q := (s0.packet 0).getD rowPkt
    s0.atHead 0 q 0 = true ∧ s0.wayUsable q = false := by decide +kernel

theorem test_row_crosses_two_routers : -- five flits, the first 10 cycles after it left; the tail leaves the first router empty
    let s := withPacket rowPkt
    let t := (List.range 5).foldl (fun s x => after (exec (.fabricPacketArrival 0 x true true none) s)) s
    t.fabric.packets.map (fun p => (p.place, p.fromPort, p.wait)) = [(1, 4, [10, 11, 12, 13, 14])] := by decide +kernel

theorem witness_RequestsAndReplies :
    (∀ a ∈ [0x1B500050000, 0x200000000000], ∀ t ∈ [2, 3, 8],
     let p : Packet := { typ := t, addr := a, place := if a < 2 ^ 45 then 29 else ioPlace 0, isLocal := true, wait := [0] }
     let s0 := withPacket p false; let s := { s0 with fabric := { s0.fabric with arbiters := [(0, { left := 256 })] } }
     let g := panelTarget s.units.gridClass p.addr
     s.packet 0 = some p ∧ s.mayServe 0 p = true ∧ s.yieldsToGet p 0 = false ∧ (s.quota p).isSome = true ∧ (s.quota p).all (fun u => !u.answersPoison p.place && u.servesHere p.place g && !u.writeForbidden g) = true) ∧
    (let p : Packet := { typ := 2, addr := 0x200000000000, place := ioPlace 0, isLocal := true, wait := [0] }; let s0 := withPacket p false
     let s := { s0 with fabric := { s0.fabric with arbiters := [(0, { used := 192 })] } }
     s.mayServe 0 p = true ∧ s.quota p = none) ∧
    (let p : Packet := { typ := 2, addr := 0, place := 0, isLocal := true, wait := [0] }
     let s := { withPacket p with units := { gridClass := 144, marks := [unitId 2 0 0] } }
     s.packet 0 = some p ∧ s.mayServe 0 p = true ∧ s.yieldsToGet p 0 = false ∧ (s.quota p).all (fun u => u.answersPoison p.place) = true) ∧
    (let p : Packet := { typ := 3, addr := 0x300000000, place := 0, isLocal := true, wait := [0] }; let s := withPacket p
     s.mayServe 0 p = true ∧ s.answersPoison 0 = false ∧ s.servesHere 0 (panelTarget 144 p.addr) = true ∧ s.writeForbidden (panelTarget 144 p.addr) = true) ∧
    targetMem (panelTarget 144 0x200000000000) = none ∧ targetMem (panelTarget 144 0x1B500050000) = some (27 * 16 + 5) ∧
    (let p : Packet := { typ := 3, addr := 0x1B500050000, place := 30, isLocal := true, wait := [0] }
     (withPacket p).mayServe 0 p = true ∧ (withPacket p).answersPoison p.place = false ∧ (withPacket p).servesHere p.place (panelTarget 144 p.addr) = false) ∧
    (∀ t ∈ [4, 5, 6], let p : Packet := { typ := t, dcore := 3, tag := 15, isLocal := true, wait := [0] }; let e : ReplySlot := ⟨true, 0, 8191, 15, 3, 0, 0⟩
     let s := { withPacket p with cores := [(3, { slots := [(15, some e)] })] }
     s.packet 0 = some p ∧ s.ready 0 p = true ∧ s.dieAt p.place = some 0 ∧ tget none (s.core 3).slots p.tag = some e ∧ s.dieGone p.place = false ∧ s.clockHeld 3 = false ∧ e.lrow < 8192) ∧
    (∀ pay ∈ [[], List.replicate 512 (7 : Byte)],
     let p : Packet := { typ := 0xA, cls := 4, addr := 0x200000000000, place := ioPlace 0, src := hubPlace, isLocal := true, payload := pay, wait := List.replicate 5 0 }
     let s0 := withPacket p false; let s := { s0 with fabric := { s0.fabric with arbiters := [(0, { left := 256, used := 0 })] } }
     s.packet 0 = some p ∧ s.mayServe 0 p = true ∧ s.yieldsToGet p 0 = false ∧ (s.quota p).isSome = true ∧
       (s.quota p).all (fun u => !u.answersPoison p.place && u.servesHere p.place (panelTarget u.units.gridClass p.addr)) = true) := by decide +kernel

/-- A core whose slot 15 awaits an answer. -/
def awaiting : Core := { slots := [(15, some ⟨true, 0, 8191, 15, 3, 0, 0⟩)] }

theorem witness_RequestsAndReplies_lands (d : Nat) (h : d / 8 = 3 / 8) : ((withCore awaiting).core d).timing.jobs = [] :=
  withCore_idle awaiting rfl d h

theorem test_address_example06 : -- scratchpad row 640 of core 5 of logical die (3, 2), die 27
    memRowAddr (27 * 16 + 5) 640 = 0x1B500050000 ∧ panelTarget 144 0x1B500050000 = .scratch 27 5 640 ∧
      panelTarget 144 0x201748 = .none := by decide +kernel

/-- An empty descriptor. -/
def noDesc : Desc :=
  { sfmt := 0, dfmt := 0, rm := 0, sat := false, ssc := false, dsc := false, cw := false, notify := false, count := 0, src := 0, dst := 0,
    scale := 0, cwAddr := 0, rate := 0, route := 0, core := 0, ctr := 0, rsv := 0, launcher := 0 }

theorem witness_RowsLand :
    (let p : Packet := { rowPkt with isLocal := true, place := 2, dcore := 5, drow := 8191, wait := List.replicate 5 0 }; let s := withPacket p
     s.packet 0 = some p ∧ s.ready 0 p = true ∧ s.dieAt p.place = some 2 ∧ s.dieGone p.place = false ∧ p.typ = 0 ∧
       s.residentLocked (2 * 16 + p.dcore) p.drow = false) ∧
    (let p : Packet := { typ := 1, isLocal := true, place := 2, dcore := 5, dctr := 15, core := 3, wait := [0] }; let s := withPacket p
     s.packet 0 = some p ∧ s.ready 0 p = true ∧ s.dieGone p.place = false ∧ s.dieAt p.place = some 2 ∧ s.fabric.incs = [] ∧
       s.rowsAhead { core := 37, ctr := 15, route := 0, sender := 3, hi := p.msg } = false) ∧
    (let p : Packet := { rowPkt with isLocal := true, place := ioPlace 11, core := channelCode 11 55, wait := List.replicate 5 0 }; let s0 := withPacket p
     let s := { s0 with ioDies := [(11, { channels := [(55, { running := some { desc := noDesc } })] })] }
     s.packet 0 = some p ∧ s.ready 0 p = true ∧ p.place ≠ hubPlace ∧ p.core / 0x10000 = 1 ∧ p.core % 0x10000 / 64 = 11 ∧ p.core % 64 = 55 ∧
       (s.channel 11 55).running = some { desc := noDesc }) ∧
    (let p : Packet := { rowPkt with isLocal := true, place := ioPlace 11, wait := List.replicate 5 0 }; let s0 := withPacket p
     let s := { s0 with settings := { committed := [(keyPortDir 63, 0)] } }
     s.packet 0 = some p ∧ s.ready 0 p = true ∧ p.place ≠ hubPlace ∧ p.core / 0x10000 ≠ 1 ∧ ioEngine (p.place - 0x100) = some 7 ∧ s.bundle 7 ≠ []) ∧
    (let a : Arrived := { cycle := 9, row := 32767, bytes := [], poison := true, plane := 0, route := 1, sender := 3, waiter := 37,
                          notify := some (37, 15), ack := none }
     let s : State := { State.reset with fabric := { arrived := [(0x8000011F, [a])] } }
     tget [] s.fabric.arrived 0x8000011F = [a] ∧ 0x80000000 ≤ 0x8000011F ∧ 0x8000011F < 0x80000000 + 288 ∧
       (s.cluster (memCluster 0x8000011F)).held = false ∧ (∀ d ∈ clusterCores (memCluster 0x8000011F), (s.core d).timing.jobs = []) ∧
       s.portFree 0x8000011F 32767 .external (max 0 (s.landStart 0x8000011F)) = true ∧ s.landStart 0x8000011F = 9) := by decide +kernel

/-- An FP32 reduction input. -/
def redPkt (src : Nat) (x : Nat) : Packet := { routeId := 9, typ := 7, isLocal := true, src := src, payload := toLE 4 x ++ List.replicate 508 0, wait := List.replicate 5 0 }

theorem witness_ReductionsCombine : -- the first and the last of two inputs; a node without a record
    (let p := redPkt 0 0x3F800000; let s := withPacket p
     s.packet 0 = some p ∧ s.ready 0 p = true ∧ p.typ = 7 ∧ s.dieAt p.place = some 0 ∧ s.dieGone p.place = false ∧ (s.treeOf 0 p.routeId p.plane).map (fun t => (t.fanin, t.inMask.testBit 0, t.inMask.testBit 1)) =
       some (2, true, true) ∧ dirOf 0 p.src = some 0 ∧ tget [] s.fabric.reds (redKey 0 9 0) = []) ∧
    (let fb : Fabric := { packets := [redPkt 12 0x4B800000], reds := [(redKey 0 9 0, [⟨0, [], 0, 0, 0, false, 3⟩])] }
     let s := { withPacket {} with fabric := fb }
     s.ready 0 (redPkt 12 0x4B800000) = true ∧ dirOf 0 12 = some 1 ∧ (tget [] s.fabric.reds (redKey 0 9 0)).all (fun x => x.dir != 1) = true ∧
       (tget [] s.fabric.reds (redKey 0 9 0)).length + 1 = 2) ∧
    (withPacket (redPkt 0 0)).treeOf 0 10 0 = none := by decide +kernel

theorem test_reduction_example07 : -- 1.0, then 2^24, then −2^24 in the order local, N, W give +0
    combine 0 0 [0x3F800000, 0x4B800000, 0xCB800000] = 0 ∧ combine 0 0 [0xCB800000, 0x3F800000, 0x4B800000] = 0x3F800000 := by decide +kernel

theorem witness_WindowsAndScrub : -- the last arbiter; the last row of the last cluster memory, of the last core's accumulator memory and store
    arbiterOk 0x30F = true ∧ 0x8000011F < 0x80000000 + 288 ∧ 32767 < memRows 0x8000011F ∧
      ({ moving [] with boot := { ready := true, clocksOff := false } } : State).clusterGated (memCluster 0x8000011F) = false ∧
      memRows 0x8000011F = 32768 ∧ (State.reset.arbiter 0x30F).reqs = [] ∧ coreArray 0x900008FF = some (2, 2303) ∧ coreArray 0xA00008FF = some (3, 2303) ∧
      coreArray 0x90000900 = none := by decide +kernel

/-- A launch row with no valid descriptor, at I/O die 11 and its channel 55. -/
def launchPkt : Packet := { typ := 3, isLocal := true, place := 0x10B, addr := 3 * 2 ^ 44 + 11 * 2 ^ 40 + 55 * 512, payload := List.replicate 512 0, wait := List.replicate 5 0 }

theorem witness_PlannedTransfers :
    (let s := withPacket launchPkt
     s.packet 0 = some launchPkt ∧ s.ready 0 launchPkt = true ∧ bitsOf launchPkt.addr 47 44 = 3 ∧ s.ioUsable 11 = true ∧ s.launchFault 11 launchPkt = none) ∧
    (withPacket launchPkt).launchFault 10 launchPkt = some .route ∧
    (let s : State := { State.reset with ioDies := [(11, { channels := [(55, { queue := [noDesc] })] })] }
     (s.channel 11 55).running = none ∧ (s.channel 11 55).queue = [noDesc] ∧ s.thermal.active = false ∧ s.ioUsable 11 = true ∧
       s.descGone noDesc = false ∧ s.targetUsable (s.unitTarget noDesc.hbmSide 0) = true) ∧
    (let s : State := { State.reset with units := { table := [(unitId 5 0 0, { state := 2, source := 3 })] } }
     s.descGone { noDesc with src := 2 ^ 45, dst := 2 ^ 45 } = true ∧ State.reset.descGone { noDesc with src := 2 ^ 45, dst := 2 ^ 45 } = false) ∧
    (let s : State := { State.reset with ioDies := [(11, { channels := [(55, { running := some { desc := noDesc } })] })] }
     (s.channel 11 55).running = some { desc := noDesc } ∧ s.moved 11 55 { desc := noDesc } = true ∧
       s.thermal.active = false ∧ s.ioUsable 11 = true ∧ s.descGone noDesc = false ∧ s.targetUsable (s.unitTarget noDesc.hbmSide 0) = true ∧
       s.moved 11 55 { desc := noDesc, left := 1 } = false) ∧
    (let d : Desc := { noDesc with src := 0, dst := 2 * 2 ^ 44, count := 8, cw := true, notify := true }; let r : Running := { desc := d, rows := [(0, (List.replicate 512 7, false))] }
     let s : State := { ready5 .idle with ioDies := [(11, { channels := [(55, { running := some r })] })] }
     (s.channel 11 55).running = some r ∧ s.moved 11 55 r = true ∧ s.ioUsable 11 = true ∧ d.fromHbm = false ∧ r.err = 0 ∧
       s.targetUsable (s.unitTarget d.hbmSide 0) = true ∧ s.targetUsable (s.unitTarget d.dst 0) = true) := by decide +kernel

/-- A running step in a phase, with the link up. -/
def running (ph : StepPhase) : State := { ready5 .running with host := { linkUp := true }, step := { state := .running, phase := ph } }

/-- A descriptor of one unit of region 1, which stands at HBM byte 0, and a plan with that region. -/
def oneDescr : Descr := { region := 1, len := 512, hostAddr := 64, offset := 0, rsv := 0 }
def descrPlan : Plan := { smallPlan with regions := [{ id := 1, kind := 0, base := 0, len := 512, sideB := none }] }

/-- A command in flight with tag 9. -/
def cmd9 : Cmd := { opcode := 0x203, tag := 9, flags := 0, len := 8, payAddr := 0, dest := 0xFFFF, payload := [] }

theorem witness_TicksAndSteps_tick : -- a flip that is due, a unit change, a run that has failed
    (ready5 .idle).clock.nextTick = some 10500000 ∧
    (let s : State := { ready5 .awaitCommit with step := { state := .awaitCommit, flip := some 10400000, flipTag := some 9 }, cmds := { inflight := [cmd9] } }
     s.step.flip = some 10400000 ∧ s.step.state = .awaitCommit ∧ s.boot.resetAt = none ∧ s.boot.resetDrain = none ∧ s.step.flipTag = some 9 ∧ s.cmdOf 9 = some cmd9) ∧
    (let u := unitId 2 155 0; let s : State := { ready5 .idle with units := { gridClass := 144, due := [(u, 2, 3)] } }
     s.units.due = [(u, 2, 3)] ∧ (s.unitEntry u).state ≠ 2 ∧ (s.unitEntry u).state ≠ 3 ∧ s.isRunning = false) ∧
    (let s : State := { ready5 .running with step := { state := .running, tag := 9, faults := [⟨1, 0x111, 5, 0⟩] }, cmds := { inflight := [cmd9] } }
     s.isRunning = true ∧ s.step.faults ≠ [] ∧ s.leads = false ∧ s.isWorker = false ∧ s.step.flip = none ∧ s.cmdOf s.step.tag = some cmd9 ∧
       chooseFault s.allFaults = some (0, ⟨1, 0x111, 5, 0⟩)) := by decide +kernel

theorem witness_TicksAndSteps_commit : -- too early, in force, and refused by the second proof
    ∀ x ∈ [(true, 10120001), (true, 10120000), (false, 10120000)], let b := example10 x.1
      let p : PendingCommit := { entries := b.settings.staged, tick := x.2, tag := some 9 }
      let s : State := { b with settings := { b.settings with staged := [], pendingCommit := some p }, cmds := { inflight := [cmd9] } }
      s.settings.pendingCommit = some p ∧ s.settings.groupCommit = none ∧ s.group.joining = false ∧ s.deferCommit p = false ∧ s.cmdOf 9 = some cmd9 ∧
        (p.entries.map (·.key)).Nodup ∧ (s.proofFails p.entries).isNone = x.1 ∧ decide (p.tick ≤ s.now) = decide (x.2 = 10120000) := by decide +kernel

/-- A panel in step inputs or outputs whose descriptor's transfer is under way, or done. -/
def descrMoving (ph : StepPhase) (b : Bool) : State :=
  let s : State := { running ph with plan := some descrPlan }
  if b then { s with cmds := { xfers := s.stepXfer (ph == .inputs) 0 oneDescr } } else s

theorem witness_TicksAndSteps :
    (tabWf {} (onCore 0).cores = true ∧ 0 < smallPlan.frames ∧ 2303 < (if smallPlan.gridClass = 144 then 2304 else 1920)) ∧
    (∀ b, (descrMoving .inputs b).isRunning = true ∧ (descrMoving .inputs b).inputsBlocked = false ∧ (descrMoving .inputs b).host.linkUp = true ∧
      (descrMoving .inputs b).step.faults = [] ∧ (descrMoving .inputs b).stepMoving = b) ∧
    (∀ b, (descrMoving .outputs b).workersDone = true ∧ (descrMoving .outputs b).allFaults = [] ∧ (descrMoving .outputs b).stepMoving = b) ∧
    (let s := { running .outputs with step := { state := .running, phase := .outputs, faults := [⟨1, 0x111, 5, 0⟩] } }; s.allFaults ≠ [] ∧ s.workersDone = true) ∧
    (let s := descrMoving .outputs true; (s.regionById oneDescr.region).isSome = true ∧ oneDescr.len ≠ 0 ∧
      ∀ wr, ∀ x ∈ s.stepXfer wr 0 oneDescr, ∀ q ∈ x.pieces, let p := { q with running := true }
        min 512 (p.count - p.done * 512) = 512 ∧ p.done < x.unitsOf p ∧ ({ s with cmds := { xfers := [{ x with pieces := [p] }] } } : State).xferOf 256 = some { x with pieces := [p] }) ∧
    ((ready5 .idle).fabric.mapTime ≤ (ready5 .idle).now ∧ (ready5 .idle).now < ((ready5 .idle).fabric.mapTime / 10 ^ 9 + 1) * 10 ^ 9) ∧
    (ready5 .idle).clock.counting = true := by decide +kernel

theorem test_begin_frame : -- R176: at frame 0 every register is 0 and SL is 0xFFFF
    let k := ((onCore 0 { g := [(5, 7)], sl := 3, nv := true, pc := 4, accValid := [1] }).beginFrame smallPlan 0 true).core 3
    k.greg 5 = 0 ∧ k.sl = 0xFFFF ∧ k.nv = false ∧ k.pc = 0 ∧ k.accValid = [] := by decide +kernel
/-- A panel with port 63 as given, its I/O die brought up. -/
def withPort (q : Port) : State :=
  { ready5 .idle with ports := [(63, q)], boot := { ready := true, done := [(0x26, 11), (1, 0)] }, settings := { committed := [(keyPortDir 63, 0)] } }

theorem witness_PortsTrain :
    ((withPort { state := 2 }).mayTrain 63 = true ∧ (0xFF ||| (0 : BitVec 8)) = 0xFF ∧ 4 ≤ lanesOf (~~~(0 : BitVec 8)) ∧
      ¬((0xFE ||| (0 : BitVec 8)) = 0xFF)) ∧
    (let s := withPort { state := 1, retryAt := some 1 }; (s.port 63).state = 1 ∧ (s.port 63).retryAt = some 1 ∧ s.mayTrain 63 = true) ∧
    (let s := withPort { state := 3, challenge := some ([], 1) }
     (s.port 63).state = 3 ∧ (s.port 63).challenge = some ([], 1) ∧ s.thermal.active = false ∧ (s.port 63).challengeHeld = false) ∧
    (let s := withPort { state := 3, challenge := some ([], 1), challengeHeld := true }
     (s.port 63).challenge = some ([], 1) ∧ (s.port 63).challengeHeld = true) := by decide +kernel

theorem crcBit_lt (c : Nat) (_h : c < 65536) : crcBit c < 65536 := by
  unfold crcBit
  have := Nat.mod_lt (2 * c) (show 65536 > 0 by decide)
  split
  · exact Nat.xor_lt_two_pow (n := 16) this (by decide)
  · exact this

theorem foldl_lt {α : Type} (f : Nat → α → Nat) (hf : ∀ c a, c < 65536 → f c a < 65536) :
    ∀ (l : List α) (c : Nat), c < 65536 → l.foldl f c < 65536
  | [], _, h => h
  | a :: l, c, h => foldl_lt f hf l (f c a) (hf c a h)

theorem crc16_lt (bs : List Byte) : crc16 bs < 65536 := by
  refine foldl_lt _ (fun c b hc => foldl_lt _ (fun c _ => crcBit_lt c) _ _ ?_) bs _ (by decide)
  exact Nat.xor_lt_two_pow (n := 16) hc (by have := b.isLt; omega)

/-- The control word with the low 48 bits `w` and the CRC of a flit of 128 zero bytes. -/
def flitCtl (w : Nat) : BitVec 64 := BitVec.ofNat 64 (w + crc16 (toLE 6 w ++ List.replicate 128 0) * 2 ^ 48)

theorem flitCtl_toNat (w : Nat) (h : w < 2 ^ 48) : (flitCtl w).toNat = w + crc16 (toLE 6 w ++ List.replicate 128 0) * 2 ^ 48 := by
  have := crc16_lt (toLE 6 w ++ List.replicate 128 0)
  rw [flitCtl, BitVec.toNat_ofNat]; omega

theorem flitCtl_good (w : Nat) (h : w < 2 ^ 48) (hv : bitsOf w 29 26 < 10) :
    flitGood (flitCtl w) (List.replicate 128 0) true = true ∧ (flitCtl w).toNat.testBit 25 = w.testBit 25 ∧
      bitsOf (flitCtl w).toNat 11 0 = bitsOf w 11 0 := by
  have hc := crc16_lt (toLE 6 w ++ List.replicate 128 0)
  have e0 := flitCtl_toNat w h
  generalize hd : crc16 (toLE 6 w ++ List.replicate 128 0) = c at *
  have e1 : (flitCtl w).toNat % 2 ^ 48 = w := by omega
  have e2 : bitsOf (flitCtl w).toNat 63 48 = c := by unfold bitsOf; omega
  have e3 : bitsOf (flitCtl w).toNat 29 26 = bitsOf w 29 26 := by unfold bitsOf; omega
  have e4 : (flitCtl w).toNat.testBit 25 = w.testBit 25 := by
    rw [Nat.testBit_eq_decide_div_mod_eq, Nat.testBit_eq_decide_div_mod_eq]; congr 1; rw [eq_iff_iff]; omega
  have e5 : bitsOf (flitCtl w).toNat 11 0 = bitsOf w 11 0 := by unfold bitsOf; omega
  refine ⟨?_, e4, e5⟩
  simp only [flitGood, e1, hd, e2, e3]
  simp [hv]

theorem flitCtl_frame (w : Nat) (h : w < 2 ^ 48) (hv : bitsOf w 29 26 = 0) : frameGood (flitCtl w) (List.replicate 128 0) true = true := by
  have hc := crc16_lt (toLE 6 w ++ List.replicate 128 0)
  have e0 := flitCtl_toNat w h
  generalize hd : crc16 (toLE 6 w ++ List.replicate 128 0) = c at *
  have e1 : (flitCtl w).toNat % 2 ^ 48 = w := by omega
  have e2 : bitsOf (flitCtl w).toNat 63 48 = c := by unfold bitsOf; omega
  have e3 : bitsOf (flitCtl w).toNat 29 26 = bitsOf w 29 26 := by unfold bitsOf; omega
  simp only [frameGood, e1, hd, e2, e3]
  simp [hv]

/-- A panel whose host link is up on all its lanes, with no lane retired, or with lane 7. -/
def linked (retired : BitVec 8) : State :=
  { ready5 .idle with host := { linkUp := true, lanes := 0xFF, link := { rxNext := 5, laneRetired := retired } } }

theorem witness_LinksCarry_host : -- an awaited frame, one out of sequence, a bad one; a lane that leaves four, one not in use, one that leaves too few
    (linked 0).host.linkUp = true ∧ (linked 0).host.link.rxNext = 5 ∧ tget [] (linked 0).host.link.charges 7 = [] ∧ frameGood 0 [] true = false ∧
    (frameGood (flitCtl 5) (List.replicate 128 0) true = true ∧ (flitCtl 5).toNat.testBit 25 = false ∧ bitsOf (flitCtl 5).toNat 11 0 = 5) ∧
    (frameGood (flitCtl 4) (List.replicate 128 0) true = true ∧ bitsOf (flitCtl 4).toNat 11 0 ≠ 5) ∧
    ((linked 0).host.lanes.getLsbD 3 = true ∧ ((linked 0).modLink (fun q => { q with laneRetired := 8 })).linkLanes 0xFF = some 0xF0) ∧
    ((linked 8).host.link.laneRetired.getLsbD 7 = false ∧ ((linked 8).modLink (fun q => { q with laneRetired := 0x88 })).linkLanes 0xFF = none) := by
  have h4 := flitCtl_good 4 (by decide) (by decide)
  have h5 := flitCtl_good 5 (by decide) (by decide)
  refine ⟨rfl, rfl, rfl, by decide +kernel, ⟨flitCtl_frame 5 (by decide) (by decide), ?_, ?_⟩, ⟨flitCtl_frame 4 (by decide) (by decide), ?_⟩,
    by decide +kernel, by decide +kernel⟩
  · rw [h5.2.1]; decide
  · rw [h5.2.2]; decide
  · rw [h4.2.2]; decide

theorem witness_LinksCarry :
    (let s := withPort { state := 4, width := 8, laneRetired := 1, rxNext := 5 }
     (s.port 63).state = 4 ∧ s.portUsable 63 = true ∧ s.boot.noGrid = false ∧ s.hubCut = false ∧ (s.port 63).laneRetired.getLsbD 7 = false ∧ (s.port 63).laneRetired.getLsbD 0 = true ∧ (s.port 63).rxNext = 5) ∧
    (flitGood 0 [] true = false ∧ (tget [] (withPort { state := 4 } |>.port 63).charges 0).length < 15) ∧
    (flitGood (flitCtl 4) (List.replicate 128 0) true = true ∧ bitsOf (flitCtl 4).toNat 11 0 ≠ 5) ∧
    (flitGood (flitCtl 5) (List.replicate 128 0) true = true ∧ (flitCtl 5).toNat.testBit 25 = false ∧ bitsOf (flitCtl 5).toNat 11 0 = 5) := by
  have h4 := flitCtl_good 4 (by decide) (by decide)
  have h5 := flitCtl_good 5 (by decide) (by decide)
  refine ⟨by decide +kernel, by decide +kernel, ⟨h4.1, ?_⟩, h5.1, ?_, ?_⟩
  · rw [h4.2.2]; decide
  · rw [h5.2.1]; decide
  · rw [h5.2.2]; decide

/-- A cross-panel row from slot 1 to slot 0, one of `n`. -/
def farPkt (n : Nat) : Packet := { src := 0x1001, dst := 0x1000, xferCount := n, cls := 3, addr := 2 * 2 ^ 44 }

/-- The far route of I/O die 0. -/
def farPlan : Plan := { smallPlan with routes := [{ id := 5, cls := 2, plane := 0, src := 0x100, dst := 2, kind := 0 }] }

/-- A transfer of two at the hub whose row has come. -/
def halfRx : Tc3Rx := { count := 2, got := 1, firstTick := 0, rows := [(2 * 2 ^ 44, [7], false)] }

theorem witness_CrossPanelTransfers_onward : -- to the hub; onward by the one engine of its direction, with room and without
    (∀ io ∈ [11, 12], let s : State := { manager with ioDies := [(io, { tc3In := [farPkt 1] })] }
     (s.ioDie io).tc3In = [farPkt 1] ∧ s.thermal.active = false ∧ s.crumbHeld = false ∧ (io = 12 ∨ s.ioUsable io = true) ∧ s.dirTo ((farPkt 1).dst - 0x1000) = none) ∧
    (let p : Packet := { farPkt 1 with src := 0x1000, dst := 0x1001 }
     let s : State := { manager with ioDies := [(12, { tc3In := [p] })], settings := { committed := [(keyGroupSize 0, 2), (keyPortDir 63, 0)] } }
     (s.ioDie 12).tc3In = [p] ∧ s.dirTo (p.dst - 0x1000) = some 0 ∧ s.enginesToward 0 = [7] ∧ s.ioUsable (engineIo 7) = true ∧
       (let u : State := { s with units := { s.units with marks := [unitId 3 (engineIo 7) 0] } }; u.ioUsable (engineIo 7) = false ∧ u.enginesToward 0 = [7]) ∧ s.txFlits (engineIo 7) 6 + p.flits ≤ 512 ∧
       (let w : Tx := { vc := 6, pkt := { payload := List.replicate 65536 0 } }
        let u : State := { s with ioDies := [(engineIo 7, { txWait := [w] }), (12, { tc3In := [p] })] }
        u.dirTo (p.dst - 0x1000) = some 0 ∧ 512 < u.txFlits (engineIo 7) (6 + u.dateline 0 0) + p.flits)) := by decide +kernel

theorem witness_CrossPanelTransfers :
    (let s : State := { manager with group := { hubRx := [farPkt 64] } }
     s.group.hubRx = [farPkt 64] ∧ s.thermal.active = false ∧ (farPkt 64).xferCount ≤ 64 ∧ tget none s.group.tc3Rx (xferKey 1 0) = none ∧
       s.group.tc3Rx.length < 1024 ∧ (farPkt 64).xferId = tget 0 s.group.rxNext 1) ∧
    (let p : Packet := { farPkt 2 with last := true }
     let s : State := { manager with group := { hubRx := [p], tc3Rx := [(xferKey 1 0, some halfRx)] } }
     tget none s.group.tc3Rx (xferKey 1 0) = some halfRx ∧ p.xferCount = halfRx.count ∧ halfRx.got < halfRx.count ∧
       ({ halfRx with got := 2, hasLast := true } : Tc3Rx).whole = true ∧ s.rowsUsable 1 { halfRx with got := 2, hasLast := true } = true ∧ tget none s.group.tc3Rx (xferKey 1 1) = none) ∧
    (passed 1 0 = true ∧ passed 0 32769 = true ∧ passed 0 32768 = false ∧ passed 0 0 = false ∧ 64 < (farPkt 65).xferCount) ∧
    (let s : State := { manager with group := { tc3Rx := [(xferKey 1 0, some halfRx)] }, clock := { tickCount := 2 } }
     1 ≠ s.groupSlot ∧ tget none s.group.tc3Rx (xferKey 1 0) = some halfRx ∧ halfRx.firstTick + 2 ≤ s.clock.tickCount ∧
       tget none (terase (xferKey 1 0) s.group.tc3Rx) (xferKey 1 1) = none) ∧
    (∀ n ∈ [0, 4], let c : Cmd := { opcode := 0x804, tag := 9, flags := 0, len := 32, payAddr := 0, dest := 0xFFFF, payload := [] }
     let o : OpenXfer := { id := 5, first := 0, units := 1, resends := n, sentTick := 3 }; let k : Copy := { tag := 9, slot := 1, opened := [o], acked := 0, refused := false }
     let s : State := { manager with cmds := { inflight := [c] }, group := { copies := [k] }, clock := { tickCount := 5 } }
     s.group.copies = [k] ∧ s.cmdOf 9 = some c ∧ o.sentTick + 2 ≤ s.clock.tickCount ∧ s.unitsUsable (c.arg 0 8 + 512 * o.first) o.units = true ∧
       (o.resends < 4 ∨ 4 ≤ o.resends)) ∧
    (let s : State := { ready5 .idle with plan := some farPlan, ioDies := [(0, { ingress := [(xferKey 5 0, some ⟨2, 2, true, 0, 0, false⟩)] })] }
     tget none (s.ioDie 0).ingress (xferKey 5 0) = some ⟨2, 2, true, 0, 0, false⟩ ∧ (s.farRoute 0 5).isSome = true ∧
       0 = tget 0 (s.ioDie 0).ingressNext 5) := by decide +kernel

/-- A worker with a plan whose step is IDLE. -/
def worker : State :=
  { ready5 .idle with straps := { role := 0, profile := 0, boot := 0, hlw := false, id := 0 }, power := { profile := 0 }
                      group := { beacons := 3, stepped := true, epoch := some 0, lastBeacon := some 1000 } }

theorem witness_GroupActs :
    manager.isManager = true ∧ (worker.isWorker = true ∧ worker.plan = some smallPlan ∧ worker.step.state = .idle) ∧
    (let c : Cmd := { opcode := 0x803, tag := 9, flags := 0, len := 0, payAddr := 0, dest := 1, payload := [] }
     let s : State := { manager with cmds := { inflight := [c], relayed := [9] } }
     s.isManager = true ∧ s.leads = true ∧ s.cmds.inflight.find? (fun c => c.dest == 1 && c.seq == 0 && s.cmds.relayed.contains c.tag) = some c) ∧
    (let s : State := { worker with group := { worker.group with selfJoined := true } }; s.isWorker = true ∧ s.group.selfJoined = true) ∧
    (worker.group.selfJoined = false ∧ worker.bundlesUp = true ∧ 3 ≤ worker.group.beacons ∧ worker.group.stepped = true ∧
      worker.group.rateOk = true ∧ worker.group.managerLost = false ∧ worker.clock.slew = 0 ∧ worker.tickAligned = true) ∧
    ((worker.hasBelow = true → worker.relayRoom (.stepStart 7 0) = true) ∧ worker.workerBars smallPlan = 0 ∧
      (let s : State := { worker with power := { profile := 3 } }; s.plan = some smallPlan ∧ s.workerBars smallPlan ≠ 0)) ∧
    (let s : State := { worker with group := { beacons := 2, lastBeacon := some 9000000 } }
     s.group.lastBeacon.any (fun b => decide (s.now < b + 2000000)) = true ∧ s.group.stepped = false ∧ s.group.selfJoined = false ∧
       s.rateOf s.group.firstBeacon (beaconTime 5 0) 0 = 0) ∧
    (worker.group.lastBeacon = some 1000 ∧ worker.group.managerLost = false) ∧
    (let s : State := { manager with step := { state := .running } }
     s.leads = true ∧ s.group.joined.contains 1 = true ∧ s.isRunning = true ∧ s.step.stop = none) := by decide +kernel

theorem witness_LinksAndClocks :
    (let s := withPort {}; (s.boot.done.contains (1, 0) || (s.boot.haltA && s.fuses.romOk)) = true ∧ s.linkLanes 0xF7 = some 0xF0 ∧ s.linkLanes 0xFF = some 0xFF ∧
      s.linkLanes 0x77 = none ∧ s.eventsWaiting < 64 ∧ s.host.link.laneRetired = 0 ∧
      (let u := { s with straps := { s.straps with hlw := true } }; u.linkLanes 0xF7 = none ∧ u.linkLanes 0xFF = some 0x0F)) ∧
    ((running .inputs).host.linkUp = true ∧ (running .inputs).cmds.xfers = []) ∧
    (∀ ph ∈ [StepPhase.inputs, .outputs, .frames], let s := { descrMoving .inputs true with step := { state := .running, phase := ph } }
     s.host.linkUp = true ∧ s.cmds.xfers ≠ [] ∧ s.cmds.xfers.all Xfer.ofStep = true ∧ s.cmds.xfers.any (fun x => x.pieces.any (fun p => p.running)) = false ∧
       s.isRunning = true ∧ s.stepMoving = true ∧ s.inputsBlocked = false ∧ s.workersDone = true) ∧
    (State.reset.clock.ref = .locked ∧ (let s : State := { State.reset with clock := { ref := .holdover } }; s.clock.ref = .holdover ∧ s.clock.refExpired = false)) ∧
    (diePlace 155 = true ∧ (let s : State := { ready5 .idle with clock := { dies := [(154, { locked := true, parent := 0x102, depth := 16 }), (155, { locked := true, parent := 0x102, depth := 16 })] } }
       bestParent ((s.parentsLeft 155).map (fun q => (q, s.clockDepth q))) = some (154, 16)) ∧
      (ready5 .idle).parentsLeft 155 = []) ∧
    (hasFifo 155 39 = true ∧ hasFifo 155 40 = false ∧ hasFifo 0x106 79 = true ∧ hasFifo 0x10B 79 = false ∧ hasFifo 0 0x101 = true ∧ hasFifo 0 7 = false) := by decide +kernel

theorem test_clock_tree : -- R391: (col 11, row 10) has depth 17, N2 and E2 15
    [10 * 13 + 11, 0x102, 0x105].map (fun p => ((clockTree []).find? (fun e => e.1 == p)).map (fun e => e.2.2)) = [some 17, some 15, some 15] := by
  decide +kernel

theorem witness_PowerDelivery :
    (24 * gridRows (ready5 .idle).units.gridClass = 288 ∧ (ready5 .idle).clusterZone 287 < 16 ∧ (ready5 .idle).power.profile < 3) ∧
    ((ready5 .idle).cluster 287).dark = false ∧ ((ready5 .idle).cluster 287).lost = [] ∧
    (let s : State := { ready5 .running with clusters := [(287, { lost := [0] })] }
     (s.cluster 287).dark = false ∧ (s.cluster 287).lost ≠ [] ∧ (s.cluster 287).lost.contains 7 = false ∧ s.isRunning = true) ∧
    (let s : State := { ready5 .idle with units := { gridClass := 144, deratedAt := [(155, 1)] } }; tget 0 s.units.deratedAt 155 ≠ 0) ∧
    (∀ k ∈ pmb1Keys, ([{ key := k, pec := true, power := 5, current := 6 }] : List PmbusAnswer).find? (fun r => r.key == k && r.pec) =
      some { key := k, pec := true, power := 5, current := 6 }) ∧
    (∀ m ∈ [0, 1], let s : State := { ready5 .idle with power := { profile := 0, polls := 100, sumPin := 7, sumRail := 9 }, settings := { committed := [(keyFrameTicks, 500000), (keyEnvelopeMode, m)] } }
     0 < s.power.polls ∧ (profileCap s.power.profile).isSome = true ∧ (s.controlCeiling s.secondEnd).isSome = (m == 1)) ∧
    (({ State.reset with power := { intake := [127] } } : State).power.intake = [127] ∧ statusFault 0x2000 = true ∧ statusFault 0 = false) := by
  decide +kernel

theorem witness_ThermalControl : -- readings of 85 °C and 79 °C, in 1/16 °C
    ((ready5 .idle).pins.aux = true ∧ ({ ready5 .idle with pins := { aux := false } } : State).pins.aux = false) ∧
    (validIn (-20) 150 1360 = some 1360 ∧ validIn (-20) 150 1264 = some 1264 ∧ ((ready5 .idle).pair 300).fault = false ∧
      ((ready5 .idle).pair 300).substituted = false ∧ (1360 - 1264 ≤ deg 6 ∧ 1264 - 1360 ≤ deg 6)) ∧
    ((partStacks (ready5 .idle).fuses.part).contains 23 = true ∧ validIn (-20) 125 1361 = some 1361 ∧ validIn (-20) 125 1312 = some 1312 ∧
      1361 > deg 85 ∧ 1312 ≤ deg 82) ∧
    (let s : State := { ready5 .running with thermal := { armed := true, pairs := [(287, { hotSince := some 0, governed := 1760, hardRun := 2 })] }
                                             clock := { timebase := 10 ^ 9 } }
     s.thermal.armed = true ∧ s.thermal.active = false ∧ s.isRunning = true ∧ 287 ∈ s.clusters_ ∧
       hotThroughout s.tdTime (s.pair 287).hotSince = true ∧ s.hardRunOf (s.clusterUnit 287) = some (1760, 2) ∧ s.pins.shdnN = true ∧
       s.hardArmed (s.clusterUnit 287) = false ∧ ({ s with boot := { running := [(0x10, 0)] } }).hardArmed (s.clusterUnit 287) = true) := by
  decide +kernel

/-- A panel with AUX, PWR_OK and PANEL_RESET_N as given. -/
def pinned (aux ok : Bool) : State := { State.reset with pins := { aux := aux, pwrOk := ok } }

theorem witness_PowerPins :
    ((pinned true true).flash.writing = none ∧ ({ pinned true true with flash := { writing := some (.tolniA, 0) } } : State).flash.writing = some (.tolniA, (pinned true true).now)) ∧
    (pinned true true).pins.pwrOk = true ∧ ((pinned true false).pins.pwrOk = false ∧ (pinned true false).pins.aux = true ∧
      (pinned true false).pins.resetN = true ∧ (pinned true false).pins.shdnN = true) ∧ ((pinned true true).pins.aux = true ∧
      (pinned true true).pins.resetN = true) ∧ (let p : Pins := { resetN := false }; p.aux = true ∧ p.pwrOk = false ∧ p.resetN = false) ∧
      (pinned false false).pins.aux = false := by decide +kernel

/-- A panel in one bring-up stage. -/
def atStage (code : Nat) : State := { ready5 .idle with boot := { running := [(code, 0)] }, clock := {} }

theorem witness_BringUp :
    (∀ code ∈ [1, 6, 0x36], (atStage code).boot.running = [(code, 0)] ∧ (atStage code).boot.ready = false ∧ (atStage code).boot.halt = none ∧
      (atStage code).fuses.romOk = true ∧ (atStage code).hubCut = false ∧ (atStage code).boot.resetTag = none ∧ (atStage code).clock.counting = false ∧ (atStage code).clock.ref = .locked) ∧
    (let s : State := { atStage 6 with clock := { ref := .holdover } }; s.boot.running = [(6, 0)] ∧ s.clock.ref = .holdover) ∧
    (pmb1Keys.all pmb1Keys.contains = true ∧ pmb1Keys.all [].contains = false) ∧
    (let a := asked 0x605 (toLE 8 64 ++ toLE 8 0)
     let s : State := { a with boot := { running := [(3, 0)], recovery := true }, host := { a.host with slots := writeBytes [] 0 (slotImage 0x605 0 16 0 (toLE 16 64)) } }
     s.boot.recovery = true ∧ s.boot.running.contains (3, 0) = true ∧ s.host.linkUp = true ∧ s.ownBit 0 = true ∧ (s.slotCmd 0).opcode = 0x605 ∧
       s.clock.ref = .locked ∧ s.boot.reread = true ∧ ({ s with boot := { s.boot with reread := false } } : State).boot.reread = false ∧
       s.accessOk true 0x1000 4 = true ∧ inSlots 0x1000 4 = true) ∧
    ((atStage 0x12).boot.running.contains (0x12, 0) = true ∧ tget 0 (atStage 0x12).boot.blockTries 155 < 4 ∧ (atStage 0x12).blockCame 0x12 155 = false ∧
      (atStage 0x12).units.counts = []) := by decide +kernel

theorem witness_BringUp_block : -- the packets of an empty section have come to die 155; its digest, and another
    let s : State := { atStage 0x12 with fabric := { packets := (blockPackets [] hubPlace).map (fun p => { p with place := 155, isLocal := true, wait := List.replicate p.flits 0 }) } }
    s.blockCame 0x12 155 = true ∧ (digest64 [] = digest64 (s.block 0x12) ∧ digest64 [] = digest64 []) ∧ ¬([] = digest64 (s.block 0x12)) := by
  have hb : (atStage 0x12).block 0x12 = [] := by decide +kernel
  have hs : ∀ f, ({ atStage 0x12 with fabric := f } : State).block 0x12 = [] := fun _ => hb
  refine ⟨by decide +kernel, ⟨by rw [hs], rfl⟩, ?_⟩
  intro h
  have := congrArg List.length h
  rw [digest64_length] at this
  simp at this

theorem witness_UnitsAndDebug :
    ((State.reset.unitEntry (unitId 0 155 15)).state ≤ 1 ∧ unitKind (unitId 0 155 15) = 0 ∧ unitId 0 155 15 < 2 ^ 32) ∧
    (let s : State := { State.reset with units := { suspects := [(unitId 0 5 3, 9, none)] } }
     s.units.suspects.find? (fun x => x.1 == unitId 0 5 3 && x.2.2 == none) = some (unitId 0 5 3, 9, none)) ∧
    (({ State.reset.units.ledger with block := [1] } : Ledger).held = true ∧ State.reset.units.ledger.held = false ∧
      State.reset.units.ledger.entries.length < 16384 ∧ (State.reset.units.ledger.entries.any (fun e => e.unit == 0)) = false) ∧
    (let es := List.replicate 16384 (⟨0, 0, 2, 0, 0⟩ : LedgerEntry)
     es.any (fun e => e.unit == 0 && e.action == 0 && e.detail == 0) = true ∧ 16384 ≤ es.length ∧
       es.any (fun e => e.unit == 1 && e.action == 0 && e.detail == 0) = false) ∧
    (let s := State.reset; let w := s.firewallWindows; w.security.closed.contains 7 = false ∧ allowed 1 4090 6 true = true ∧
      allowed 1 4090 7 true = false ∧ allowed 2 56 8 false = true ∧ allowed 2 56 8 true = false ∧ tget 0 w.security.transactions 7 < 4096 ∧ allowed 0 4095 256 true = true ∧ allowed 0 0 256 false = true) ∧
    (∀ scope ∈ [0, 1, 2], let s : State := { moving [] with security := { debugScope := scope } }
     s.pins.aux = true ∧ s.security.debugScope = scope ∧ 0x200000000000 < 2 ^ 48 ∧ s.served (panelTarget s.units.gridClass 0x200000000000) = true) := by decide +kernel

theorem witness_PacketRoundTrip : -- every field at its largest value, and TYPE, KIND or CLASS at its first reserved value
    let p : Packet := { routeId := 65535, typ := 0xB, kind := 2, cls := 4, planned := true, poison := true, last := true, src := 65535, dst := 65535,
                        addr := 2 ^ 64 - 1, drow := 32767, dm := 1, dcore := 15, dctr := 15, tag := 65535, xferCount := 2 ^ 32 - 1, xferId := 65535,
                        payload := [255] }
    p.routeId < 2 ^ 16 ∧ p.addr < 2 ^ 64 ∧ p.drow < 2 ^ 15 ∧ p.dm < 2 ∧ p.xferCount < 2 ^ 32 ∧
      (decodePacket (p.encode ++ [0])).map (·.payload) = some [255] ∧ decodePacket ({ p with typ := 0xC }).encode = none ∧
      decodePacket ({ p with kind := 3 }).encode = none ∧ decodePacket ({ p with cls := 5 }).encode = none := by decide +kernel

theorem witness_machine :
    ({ State.reset with pending := [.flowPulse] } : State).pending = [.flowPulse] ∧ State.reset.boot.resetDrain = none ∧
      (State.reset.clock.trimAcc + State.reset.clock.beaconTrim = 0 ∧ State.reset.clock.slew = 0) ∧ wellFormed .flowPulse = true ∧ State.reset.pending = [] ∧
      (partStacks State.reset.fuses.part).contains 23 = true ∧ (State.reset.hardRunOf (unitId 4 0 0)).isSome = true ∧ MemSound State.reset ∧
      (step State.reset matches .next _) = true ∧ coreOf (.nop 3 0) = some 3 ∧ (exec (.nop 3 0) (onCore (wordOf 0x01 0)) matches .next _) = true := by
  unfold MemSound; decide +kernel
/-! ### Worked examples of the spec -/

/-- Chapter 15's example: step 905 runs with 1,024 resident rows in the scratchpad of core 5 of logical die (3, 2). -/
def scrubbed : State :=
  { State.reset with units := { gridClass := 144, ledger := { block := [1] } }, boot := { ready := true, clocksOff := false }
                     step := { state := .running, phase := .frames, stepIndex := 905 }
                     plan := some { smallPlan with rowAlloc := [{ mem := 437, resident := 1024, used := 1024 }] } }

/-- A state after `n` equal events. -/
def repeated (n : Nat) (c : Instr) (s : State) : State :=
  (List.range n).foldl (fun s _ => match exec c s with | .next t => t | _ => s) s

theorem test_scrub_example15 : -- CODE 0x1002, CLASS 0, COUNT 1, FLAGS 0x00C1, LOCATION 0x0090_0280, unit 0x01D0_0005; no step fails
    let t := repeated 1 (.scrubRow 437 640 2 9) scrubbed
    t.units.errors.map (fun e => ([e.unit, e.code, e.cls, e.count], [e.stepIndex, e.flags, e.location])) =
      [([0x01D00005, 0x1002, 0, 1], [905, 0xC1, 0x900280])] ∧ t.step.faults.isEmpty = true := by decide +kernel

theorem test_sixteenth_event : -- R481, R487: records at counts 1, 4, 8 and 12, CLASS 1 at the 16th, none at the 17th; REPAIR_PENDING
    (repeated 17 (.scrubRow 437 640 1 9) scrubbed).units.errors.map (fun e => (e.cls, e.count, e.flags)) =
      [(0, 1, 0), (0, 4, 0), (0, 8, 0), (0, 12, 0), (1, 16, 48)] := by decide +kernel


theorem test_tmac_word_example05 : wordOf 0x21 0x9B080200200280 = 0x219B080200200280 ∧
    (let o := tmacOp 0x219B080200200280 64
     o.buf = true ∧ o.afmt = 3 ∧ o.asc = false ∧ o.init = true ∧ o.slotted = true ∧ o.sat = false ∧ o.a = 512 ∧ o.acc = 1024 ∧ o.m = 512 ∧
       fld 0x219B080200200280 11 7 = 5 ∧ tmacRangeBad o 2 = false ∧ 639 ∈ (tmacActs 0 o 2).map (·.row) ∧ 640 ∉ (tmacActs 0 o 2).map (·.row)) := by decide +kernel

theorem test_convert_example03_e4m3 : -- FP32 0x3E99_999A to E4M3 under RNE, RTZ, RDN and RUP, and under SR with two draws
    (let x := decodeFmt 0 0x3E99999A
     [0, 1, 2, 3].map (fun rm => (convert 3 rm false false 0 x).1) = [0x2A, 0x29, 0x29, 0x2A] ∧
       [0x40000000, 0xC0000000].map (fun r => (convert 3 4 false false r x).1) = [0x2A, 0x29]) := by decide +kernel

theorem test_convert_example03_saturates : -- 1000.0 to E4M3, E5M2, E3M2 and E2M1; 200.7 to INT8 with SAT and without
    (let x := decodeFmt 0 0x447A0000; let y := decodeFmt 0 0x4348B333
     ((convert 3 0 false false 0 x).1, (convert 3 0 false false 0 x).2.of) = (0x7E, true) ∧
       [0, 1, 2, 3].map (fun rm => (convert 4 rm false false 0 x).1) = [0x64, 0x63, 0x63, 0x64] ∧
       (convert 5 0 false false 0 x).1 = 0x1F ∧ (convert 7 0 false false 0 x).1 = 0x7 ∧
       ((convert 8 0 true false 0 y).1, (convert 8 0 true false 0 y).2.of) = (0x7F, true) ∧
       ((convert 8 0 false false 0 y).1, (convert 8 0 false false 0 y).2.wr) = (0xC9, true)) := by decide +kernel

theorem test_drain_example03 : -- 1.4375, the tie, to E4M3 under RNE and RTZ
    (convert 3 0 false false 0 (.fin false 23 (-4))).1 = 0x3C ∧ (convert 3 1 false false 0 (.fin false 23 (-4))).1 = 0x3B := by decide +kernel

theorem test_block_example03 : -- two MXFP4 blocks under RNE: 5.0, −2.6 and 0.3; 40.0 and 1.0
    let v := fun (x : Nat) => decodeFmt 0 x
    ((mxBlock 7 0 [0, 0, 0] [v 0x40A00000, v 0xC0266666, v 0x3E99999A]).1, (mxBlock 7 0 [0, 0, 0] [v 0x40A00000, v 0xC0266666, v 0x3E99999A]).2.1) =
      (0x7F, [0x6, 0xD, 0x1]) ∧
    ((mxBlock 7 0 [0, 0] [v 0x42200000, v 0x3F800000]).1, (mxBlock 7 0 [0, 0] [v 0x42200000, v 0x3F800000]).2.1) = (0x82, [0x6, 0x0]) := by
  decide +kernel

end Sys2Proof.Tests
end

section
/-! PROOF. The fuses (R466) are left alone: what each function of the model that answers a state does with them, in the model's order. Only
`State.advanceRollback` writes them, at READY (R508). -/

namespace Sys2Proof.Machine

/-- Whatever state a command answers, its fuses are those before it. -/
def FusesKept (s : State) (o : Out) : Prop := ∀ t, o = .next t → t.fuses = s.fuses

@[simp] theorem fusesKept_next (s t : State) : FusesKept s (.next t) ↔ t.fuses = s.fuses := by simp [FusesKept]

@[simp] theorem fusesKept_ite (p : Prop) [Decidable p] (s : State) (o q : Out) :
    FusesKept s (if p then o else q) ↔ if p then FusesKept s o else FusesKept s q := by
  split <;> rfl

@[simp] theorem State.fuses_ite (p : Prop) [Decidable p] (s t : State) :
    (if p then s else t).fuses = if p then s.fuses else t.fuses :=
  apply_ite State.fuses p s t

/-- A loop whose every turn keeps the fuses keeps them. The hypothesis names a turn by its result `t`: stated of `f x s` itself, its check would have the
kernel evaluate the turn. -/
@[simp] theorem forEach_fuses {β : Type} (xs : List β) (f : β → State → State) (s : State) (h : ∀ x s t, f x s = t → t.fuses = s.fuses) :
    (forEach xs f s).fuses = s.fuses :=
  forEach_keeps State.fuses xs f s fun x s => h x s _ rfl

/-! ### Functions of Machine/Ops.lean -/

@[simp] theorem State.sendHost_fuses (s : State) (bytes : List Byte) : (s.sendHost bytes).fuses = s.fuses := rfl

@[simp] theorem State.modCore_fuses (s : State) (c : Nat) (f : Core → Core) : (s.modCore c f).fuses = s.fuses := by simp [State.modCore]

@[simp] theorem State.modCluster_fuses (s : State) (c : Nat) (f : Cluster → Cluster) : (s.modCluster c f).fuses = s.fuses := by
  simp [State.modCluster]

@[simp] theorem State.modPort_fuses (s : State) (c : Nat) (f : Port → Port) : (s.modPort c f).fuses = s.fuses := by simp [State.modPort]

@[simp] theorem State.modIoDie_fuses (s : State) (c : Nat) (f : IoDie → IoDie) : (s.modIoDie c f).fuses = s.fuses := by simp [State.modIoDie]

/-! ### Functions of Machine/Records.lean -/

@[simp] theorem State.event_fuses (s : State) (code detail : Nat) (fault : Bool) : (s.event code detail fault).fuses = s.fuses := by
  simp [State.event]

@[simp] theorem State.addError_fuses (s : State) (e : ErrIn) : (s.addError e).fuses = s.fuses := by simp [State.addError]

@[simp] theorem State.noteRefusal_fuses (s : State) (status : Nat) : (s.noteRefusal status).fuses = s.fuses := by simp [State.noteRefusal]

@[simp] theorem State.storeLedger_fuses (s : State) (l : Ledger) : (s.storeLedger l).fuses = s.fuses := rfl

@[simp] theorem State.addLedger_fuses (s : State) (unit action source detail : Nat) : (s.addLedger unit action source detail).fuses = s.fuses := by
  simp [State.addLedger]

@[simp] theorem State.storeCount_fuses (s : State) (e : CountEntry) : (s.storeCount e).fuses = s.fuses := rfl

@[simp] theorem State.countEvent_fuses (s : State) (e : ErrIn) (failsStep : Bool) : (s.countEvent e failsStep).fuses = s.fuses := by
  simp [State.countEvent]

@[simp] theorem State.countRetired_fuses (s : State) (e : ErrIn) (action : Nat) (retire : State → State)
    (h : ∀ s t, retire s = t → t.fuses = s.fuses) :
    (s.countRetired e action retire).fuses = s.fuses := by
  simp [State.countRetired, h _ _ rfl]

@[simp] theorem State.countLane_fuses (s : State) (e : ErrIn) : (s.countLane e).fuses = s.fuses := by simp [State.countLane]

@[simp] theorem State.failStep_fuses (s : State) (frame status core detail : Nat) : (s.failStep frame status core detail).fuses = s.fuses := by
  simp [State.failStep]

@[simp] theorem State.failWith_fuses (s : State) (e : ErrIn) (detail : Nat) : (s.failWith e detail).fuses = s.fuses := by simp [State.failWith]

@[simp] theorem State.coreFault_fuses (s : State) (c : Nat) (kind : CoreFaultKind) (pc : Nat) (word : BitVec 64) (cycle reporter : Nat)
    (agent : Option Nat) :
    (s.coreFault c kind pc word cycle reporter agent).fuses = s.fuses := by
  unfold State.coreFault
  split <;> simp

@[simp] theorem State.raiseCore_fuses (s : State) (c : Nat) (kind : CoreFaultKind) (word : BitVec 64) (cycle : Nat) :
    (s.raiseCore c kind word cycle).fuses = s.fuses := by
  simp [State.raiseCore]

@[simp] theorem State.timeout_fuses (s : State) (c location route : Nat) : (s.timeout c location route).fuses = s.fuses := by simp [State.timeout]

@[simp] theorem State.poisonRead_fuses (s : State) (core : Nat) (e : ErrIn) : (s.poisonRead core e).fuses = s.fuses := by simp [State.poisonRead]

@[simp] theorem State.consumePoison_fuses (s : State) (core cycle : Nat) (t : Target) : (s.consumePoison core cycle t).fuses = s.fuses := by
  simp [State.consumePoison]

@[simp] theorem State.consumeRows_fuses (s : State) (ts : List Target) : (s.consumeRows ts).fuses = s.fuses := by simp [State.consumeRows]

@[simp] theorem State.accRead_fuses (s : State) (c cycle : Nat) (rows : List Nat) : (s.accRead c cycle rows).fuses = s.fuses := by
  simp [State.accRead]

@[simp] theorem State.consumeInputs_fuses (s : State) (die : Nat) (ins : List RedInput) : (s.consumeInputs die ins).fuses = s.fuses := by
  simp [State.consumeInputs]

/-! ### Functions of Machine/Ports.lean -/

@[simp] theorem State.readAct_fuses (s : State) (c i : Nat) (a : Act) : (s.readAct c i a).fuses = s.fuses := by
  unfold State.readAct
  split <;> simp

@[simp] theorem State.writeAct_fuses (s : State) (c i : Nat) (a : Act) : (s.writeAct c i a).fuses = s.fuses := by
  unfold State.writeAct
  split <;> simp

@[simp] theorem State.cycleAt_fuses (s : State) (ci x : Nat) : (s.cycleAt ci x).fuses = s.fuses := by simp [State.cycleAt]

@[simp] theorem State.runWhile_fuses (ci : Nat) (u : State → Nat) (n : Nat) (s : State) :
    (State.runWhile ci u n s).fuses = s.fuses := by
  induction n generalizing s with
  | zero => rfl
  | succ n ih => unfold State.runWhile; split <;> simp [ih]

@[simp] theorem State.runFor_fuses (ci : Nat) (enough : State → Bool) (n : Nat) (s : State) :
    (State.runFor ci enough n s).fuses = s.fuses := by
  induction n generalizing s with
  | zero => rfl
  | succ n ih =>
    unfold State.runFor
    split
    · rfl
    · split <;> simp [ih]

@[simp] theorem State.runUntil_fuses (s : State) (ci : Nat) (enough : State → Bool) : (s.runUntil ci enough).fuses = s.fuses := by
  simp [State.runUntil]

@[simp] theorem State.runTo_fuses (s : State) (ci x : Nat) : (s.runTo ci x).fuses = s.fuses := by simp [State.runTo]

@[simp] theorem State.runCore_fuses (s : State) (c : Nat) : (s.runCore c).fuses = s.fuses := by simp [State.runCore]

@[simp] theorem State.firstFree_fuses (m r : Nat) (kind : Outside) (n x : Nat) (s : State) :
    (State.firstFree m r kind n x s).2.fuses = s.fuses := by
  induction n generalizing x s with
  | zero => rfl
  | succ n ih => unfold State.firstFree; dsimp only; split <;> simp [ih]

@[simp] theorem State.freeFrom_fuses (s : State) (m r : Nat) (kind : Outside) (x : Nat) : (s.freeFrom m r kind x).2.fuses = s.fuses := by
  simp [State.freeFrom]

/-! ### Functions of Machine/CoreIssue.lean -/

@[simp] theorem State.atIssue_fuses (s : State) (c : Nat) (w : BitVec 64) : (s.atIssue c w).fuses = s.fuses := by simp [State.atIssue]

/-- A word that issues keeps the fuses if its meaning does; a fault that its issue raises keeps them too. -/
theorem issue_fuses (c : Nat) (w : BitVec 64) (s : State) (run : State → Core → Nat → State)
    (h : ∀ u k cyc t, run u k cyc = t → t.fuses = u.fuses) : FusesKept s (issue c w s run) := by
  obtain he | he | ⟨p, cyc, he⟩ | ⟨p, cyc, he⟩ := issue_cases c w s run <;> rw [he] <;> simp [h _ _ _ _ rfl]

@[simp] theorem State.illegal_fuses (s : State) (c : Nat) (w : BitVec 64) : (s.illegal c w).fuses = s.fuses := by simp [State.illegal]

/-! ### Functions of Machine/Tensor.lean -/

@[simp] theorem execTwload_fuses (core : Nat) (body : BitVec 56) (s : State) : FusesKept s (execTwload core body s) := issue_fuses _ _ _ _ (by simp)

@[simp] theorem execTmac_fuses (core : Nat) (body : BitVec 56) (s : State) : FusesKept s (execTmac core body s) := issue_fuses _ _ _ _ (by simp)

@[simp] theorem execTdrain_fuses (core : Nat) (body : BitVec 56) (s : State) : FusesKept s (execTdrain core body s) := issue_fuses _ _ _ _ (by simp)

/-! ### Functions of Machine/Vector.lean -/

@[simp] theorem execVectorFp32_fuses (core : Nat) (body : BitVec 56) (s : State) : FusesKept s (execVectorFp32 core body s) := by
  refine issue_fuses _ _ _ _ ?_
  rintro s k cyc _ rfl
  extract_lets
  split <;> simp

@[simp] theorem execVectorBf16_fuses (core : Nat) (body : BitVec 56) (s : State) : FusesKept s (execVectorBf16 core body s) := by
  refine issue_fuses _ _ _ _ ?_
  rintro s k cyc _ rfl
  extract_lets
  split <;> simp

@[simp] theorem execVectorInt32_fuses (core : Nat) (body : BitVec 56) (s : State) : FusesKept s (execVectorInt32 core body s) := by
  refine issue_fuses _ _ _ _ ?_
  rintro s k cyc _ rfl
  extract_lets
  split <;> simp

@[simp] theorem execVectorFp32Functions_fuses (core : Nat) (body : BitVec 56) (s : State) : FusesKept s (execVectorFp32Functions core body s) := by
  refine issue_fuses _ _ _ _ ?_
  rintro s k cyc _ rfl
  extract_lets
  split <;> simp

@[simp] theorem execVred_fuses (core : Nat) (body : BitVec 56) (s : State) : FusesKept s (execVred core body s) := by
  refine issue_fuses _ _ _ _ ?_
  rintro s k cyc _ rfl
  extract_lets
  split <;> simp

@[simp] theorem execVcvt_fuses (core : Nat) (body : BitVec 56) (s : State) : FusesKept s (execVcvt core body s) := issue_fuses _ _ _ _ (by simp)

@[simp] theorem execVld_fuses (core : Nat) (body : BitVec 56) (s : State) : FusesKept s (execVld core body s) := issue_fuses _ _ _ _ (by simp)

@[simp] theorem execVst_fuses (core : Nat) (body : BitVec 56) (s : State) : FusesKept s (execVst core body s) := issue_fuses _ _ _ _ (by simp)

@[simp] theorem execGetl_fuses (core : Nat) (body : BitVec 56) (s : State) : FusesKept s (execGetl core body s) := issue_fuses _ _ _ _ (by simp)

@[simp] theorem execPutl_fuses (core : Nat) (body : BitVec 56) (s : State) : FusesKept s (execPutl core body s) := issue_fuses _ _ _ _ (by simp)

/-! ### Functions of Machine/Remote.lean -/

@[simp] theorem execRowcp_fuses (core : Nat) (body : BitVec 56) (s : State) : FusesKept s (execRowcp core body s) := issue_fuses _ _ _ _ (by simp)

@[simp] theorem State.untilSlot_fuses (s : State) (c : Nat) : (s.untilSlot c).fuses = s.fuses := by simp [State.untilSlot]

@[simp] theorem remote_fuses (isGet : Bool) (core opc : Nat) (body : BitVec 56) (s : State) : FusesKept s (remote isGet core opc body s) := by
  unfold remote
  refine fun t h => (issue_fuses _ _ _ _ ?_ t h).trans (State.untilSlot_fuses s core)
  rintro u k cyc _ rfl
  extract_lets
  split
  · simp
  · split
    · rfl
    · split
      · simp
      · split
        · simp
        · split
          · simp
          · extract_lets
            split <;> simp

@[simp] theorem sendRows_fuses (kind core opc : Nat) (body : BitVec 56) (s : State) : FusesKept s (sendRows kind core opc body s) := by
  refine issue_fuses _ _ _ _ ?_
  rintro s k cyc _ rfl
  extract_lets
  split
  · simp
  · split
    · simp
    · split <;> simp

@[simp] theorem execRedsend_fuses (core : Nat) (body : BitVec 56) (s : State) : FusesKept s (execRedsend core body s) := issue_fuses _ _ _ _ (by simp)

@[simp] theorem execSig_fuses (core : Nat) (body : BitVec 56) (s : State) : FusesKept s (execSig core body s) := by
  refine issue_fuses _ _ _ _ ?_
  rintro s k cyc _ rfl
  extract_lets
  split
  · simp
  · split <;> simp

/-! ### Functions of Machine/Arbiters.lean -/

@[simp] theorem State.runArbiter_fuses (s : State) (n kept : Nat) : (s.runArbiter n kept).fuses = s.fuses := by simp [State.runArbiter]

@[simp] theorem State.request_fuses (s : State) (n : Nat) (r : ArbReq) : (s.request n r).fuses = s.fuses := by simp [State.request]

@[simp] theorem State.dropRequests_fuses (s : State) (gone : ArbReq → Bool) : (s.dropRequests gone).fuses = s.fuses := rfl

theorem State.planUnit_fuses (s : State) (stack : Nat) : ∀ t, s.planUnit stack = some t → t.fuses = s.fuses := by
  intro t h
  unfold State.planUnit at h
  dsimp only at h
  split at h <;> cases h
  rfl

@[simp] theorem State.countEdge_fuses (s : State) (n : Nat) (p : Packet) (flits : Nat) : (s.countEdge n p flits).fuses = s.fuses := by
  simp [State.countEdge]

@[simp] theorem State.newWindow_fuses (s : State) (n : Nat) : (s.newWindow n).fuses = s.fuses := by simp [State.newWindow]

@[simp] theorem execArbiterWindowStart_fuses (arbiter : Nat) (s : State) : FusesKept s (execArbiterWindowStart arbiter s) := by
  simp [execArbiterWindowStart]

/-! ### Functions of Machine/Routing.lean -/

@[simp] theorem State.poisonBound_fuses (s : State) : s.poisonBound.fuses = s.fuses := rfl

/-! ### Functions of Machine/Fabric.lean -/

@[simp] theorem State.dropPacket_fuses (s : State) (i : Nat) : (s.dropPacket i).fuses = s.fuses := by simp [State.dropPacket]

@[simp] theorem State.lose_fuses (s : State) (p : Packet) : (s.lose p).fuses = s.fuses := by simp [State.lose]

@[simp] theorem State.enterLocal_fuses (s : State) (p : Packet) (x : Nat) : (s.enterLocal p x).fuses = s.fuses := by simp [State.enterLocal]

@[simp] theorem State.countStalls_fuses (s : State) (place port plane x next : Nat) : (s.countStalls place port plane x next).fuses = s.fuses := rfl

@[simp] theorem State.countOut_fuses (s : State) (p : Packet) (port x : Nat) : (s.countOut p port x).fuses = s.fuses := by simp [State.countOut]

@[simp] theorem State.moveFlit_fuses (s : State) (i : Nat) (p : Packet) (x : Nat) : (s.moveFlit i p x).fuses = s.fuses := by simp [State.moveFlit]

@[simp] theorem State.discardHeader_fuses (s : State) (i : Nat) (p : Packet) (lane : Option Nat) : (s.discardHeader i p lane).fuses = s.fuses := by
  simp [State.discardHeader]

@[simp] theorem State.poisonPacket_fuses (s : State) (i : Nat) (p : Packet) : (s.poisonPacket i p).fuses = s.fuses := by simp [State.poisonPacket]

@[simp] theorem State.laneError_fuses (s : State) (p : Packet) (lane : Option Nat) : (s.laneError p lane).fuses = s.fuses := by
  unfold State.laneError
  split <;> simp

@[simp] theorem State.increment_fuses (s : State) (c ctr cycle : Nat) : (s.increment c ctr cycle).fuses = s.fuses := by simp [State.increment]

@[simp] theorem State.releaseIncs_fuses (s : State) (cycle : Nat) : (s.releaseIncs cycle).fuses = s.fuses := by simp [State.releaseIncs]

@[simp] theorem State.addInc_fuses (s : State) (n : Inc) (cycle : Nat) : (s.addInc n cycle).fuses = s.fuses := by simp [State.addInc]

@[simp] theorem State.senderFault_fuses (s : State) (p : Packet) (kind : CoreFaultKind) : (s.senderFault p kind).fuses = s.fuses := by
  simp [State.senderFault]

@[simp] theorem State.pushArrived_fuses (s : State) (mem : Nat) (a : Arrived) : (s.pushArrived mem a).fuses = s.fuses := rfl

theorem State.landScan_fuses (mem n x : Nat) (s : State) :
    ∀ r, State.landScan mem n x s = some r → r.2.2.fuses = s.fuses := by
  induction n generalizing x s with
  | zero => simp [State.landScan]
  | succ n ih =>
    intro r h
    unfold State.landScan at h
    dsimp only at h
    split at h
    · cases h; simp
    · simpa using ih _ _ r h

@[simp] theorem State.modChannel_fuses (s : State) (io ch : Nat) (f : Channel → Channel) : (s.modChannel io ch f).fuses = s.fuses := by
  simp [State.modChannel]

@[simp] theorem State.rowLanded_fuses (s : State) (sender : Nat) : (s.rowLanded sender).fuses = s.fuses := by simp [State.rowLanded]

@[simp] theorem State.landRow_fuses (s : State) (mem cycle i : Nat) : (s.landRow mem cycle i).fuses = s.fuses := by
  unfold State.landRow
  dsimp only
  split
  · simp
  · split
    · split <;> simp
    · split <;> simp

@[simp] theorem execExternalWriteLand_fuses (memory cycle : Nat) (s : State) : FusesKept s (execExternalWriteLand memory cycle s) := by
  unfold execExternalWriteLand
  split
  · simp
  · split
    · next r h => simp [State.landScan_fuses _ _ _ _ r h]
    · simp

@[simp] theorem State.agentServed_fuses (s : State) (m cycle : Nat) : (s.agentServed m cycle).fuses = s.fuses := rfl

@[simp] theorem State.noteRead_fuses (s : State) (m cycle row : Nat) : (s.noteRead m cycle row).fuses = s.fuses := rfl

@[simp] theorem State.serviceAt_fuses (s : State) (t : Target) (cycle : Nat) : (s.serviceAt t cycle).fuses = s.fuses := by
  unfold State.serviceAt
  split <;> simp

@[simp] theorem State.serveRead_fuses (s : State) (p : Packet) (t : Target) (cycle : Nat) : (s.serveRead p t cycle).fuses = s.fuses := by
  unfold State.serveRead
  split <;> simp

@[simp] theorem State.serve_fuses (s : State) (i : Nat) (p : Packet) (cycle : Nat) : (s.serve i p cycle).fuses = s.fuses := by
  unfold State.serve
  extract_lets t s0
  have h0 : s0.fuses = s.fuses := State.dropPacket_fuses s i
  split
  · exact (State.inject_fuses _ _).trans h0
  · split
    · split
      · simp [h0]
      · split <;> exact (State.inject_fuses _ _).trans h0
    · split
      · simp [h0]
      · split
        · exact (State.inject_fuses _ _).trans h0
        · split
          · exact (State.inject_fuses _ _).trans ((State.consumePoison_fuses _ _ _ _).trans ((State.serviceAt_fuses _ _ _).trans h0))
          · split
            · simp [h0]
            · split <;> simp [h0]

theorem State.quota_fuses (s : State) (p : Packet) : ∀ t, s.quota p = some t → t.fuses = s.fuses := by
  intro t h
  unfold State.quota at h
  split at h
  · split at h
    · split at h
      · split at h
        · split at h <;> cases h
          rfl
        · exact State.planUnit_fuses _ _ t h
      · cases h; rfl
    · cases h; rfl
  · cases h; rfl

@[simp] theorem execRemoteRequestArrival_fuses (pkt cycle : Nat) (s : State) : FusesKept s (execRemoteRequestArrival pkt cycle s) := by
  unfold execRemoteRequestArrival
  split
  · simp
  · split
    · split
      · simp
      · next s1 h => simp [State.quota_fuses _ _ s1 h]
    · simp

@[simp] theorem State.coreReply_fuses (s : State) (pkt cycle : Nat) (p : Packet) : (s.coreReply pkt cycle p).fuses = s.fuses := by
  unfold State.coreReply
  split
  · rfl
  · extract_lets c
    split
    · rfl
    · simp +zetaDelta

@[simp] theorem State.reduceInput_fuses (s : State) (i die : Nat) (p : Packet) : (s.reduceInput i die p).fuses = s.fuses := by
  unfold State.reduceInput
  split <;> simp

@[simp] theorem execReduceInputArrival_fuses (pkt : Nat) (s : State) : FusesKept s (execReduceInputArrival pkt s) := by
  unfold execReduceInputArrival
  split
  · simp
  · split <;> simp

@[simp] theorem execTc0WindowStart_fuses (s : State) : FusesKept s (execTc0WindowStart s) := by simp [execTc0WindowStart]

/-! ### Functions of Machine/Dma.lean -/

@[simp] theorem execDmaLaunch_fuses (pkt : Nat) (s : State) : FusesKept s (execDmaLaunch pkt s) := by
  unfold execDmaLaunch
  split
  · simp
  · split
    · dsimp only
      split <;> simp
    · simp

@[simp] theorem State.startDesc_fuses (s : State) (io ch : Nat) (d : Desc) : (s.startDesc io ch d).fuses = s.fuses := by
  unfold State.startDesc
  split
  · simp
  · split <;> simp

@[simp] theorem execDmaTransferStart_fuses (io channel : Nat) (s : State) : FusesKept s (execDmaTransferStart io channel s) := by
  unfold execDmaTransferStart
  split <;> simp

@[simp] theorem State.writeHbm_fuses (s : State) (io ch : Nat) (r : Running) : (s.writeHbm io ch r).2.fuses = s.fuses := by
  unfold State.writeHbm
  dsimp only
  split <;> simp

@[simp] theorem execDmaTransferComplete_fuses (io channel : Nat) (s : State) : FusesKept s (execDmaTransferComplete io channel s) := by
  unfold execDmaTransferComplete
  split <;> simp

@[simp] theorem State.flightRead_fuses (s : State) (t : Target) (reader : Nat) : (s.flightRead t reader).fuses = s.fuses := by simp [State.flightRead]

@[simp] theorem State.consumeUnit_fuses (s : State) (t : Target) (reader : Nat) : (s.consumeUnit t reader).fuses = s.fuses := by
  simp [State.consumeUnit]

@[simp] theorem State.consumeFlight_fuses (s : State) (p : Packet) : (s.consumeFlight p).fuses = s.fuses := by
  unfold State.consumeFlight
  split <;> simp

@[simp] theorem State.takeData_fuses (s : State) (p : Packet) : (s.takeData p).fuses = s.fuses := by simp [State.takeData]

/-! ### Functions of Machine/HostPort.lean -/

@[simp] theorem State.setLogEnable_fuses (s : State) (v : Bool) : (s.setLogEnable v).fuses = s.fuses := rfl

@[simp] theorem State.writeLog_fuses (s : State) (o : Nat) (bytes : List Byte) : (s.writeLog o bytes).fuses = s.fuses := by simp [State.writeLog]

@[simp] theorem State.writeIrq_fuses (s : State) (o : Nat) (bytes : List Byte) : (s.writeIrq o bytes).fuses = s.fuses := by simp [State.writeIrq]

@[simp] theorem State.writeStatus_fuses (s : State) (o : Nat) (bytes : List Byte) : (s.writeStatus o bytes).fuses = s.fuses := rfl

@[simp] theorem State.writeSlot_fuses (s : State) (off : Nat) (bytes : List Byte) : (s.writeSlot off bytes).fuses = s.fuses := by
  simp [State.writeSlot]

@[simp] theorem State.badAccess_fuses (s : State) (isWrite : Bool) (n : Nat) : (s.badAccess isWrite n).fuses = s.fuses := rfl

@[simp] theorem execHostWindowWrite_fuses (isWrite : Bool) (offset : Nat) (bytes : List Byte) (s : State) :
    FusesKept s (execHostWindowWrite isWrite offset bytes s) := by
  simp [execHostWindowWrite]

@[simp] theorem execLogEnableWrite_fuses (value : Bool) (s : State) : FusesKept s (execLogEnableWrite value s) := by simp [execLogEnableWrite]

@[simp] theorem execConsWrite_fuses (value : BitVec 32) (s : State) : FusesKept s (execConsWrite value s) := by simp [execConsWrite]

@[simp] theorem State.writeRecord_fuses (s : State) (r : Rec) : (s.writeRecord r).fuses = s.fuses := by simp [State.writeRecord]

@[simp] theorem State.writeWaiting_fuses (s : State) : s.writeWaiting.fuses = s.fuses := by
  unfold State.writeWaiting
  split <;> simp

@[simp] theorem execInterruptMessage_fuses (s : State) : FusesKept s (execInterruptMessage s) := by simp [execInterruptMessage]

@[simp] theorem State.completeAt_fuses (s : State) (c : Cmd) (t status slot detail result xferWord flags : Nat) :
    (s.completeAt c t status slot detail result xferWord flags).fuses = s.fuses := by
  simp [State.completeAt]

@[simp] theorem State.complete_fuses (s : State) (c : Cmd) (status detail result : Nat) : (s.complete c status detail result).fuses = s.fuses := by
  simp [State.complete]

/-! ### Functions of Machine/Settings.lean -/

@[simp] theorem State.syncPorts_fuses (s : State) : s.syncPorts.fuses = s.fuses := by simp [State.syncPorts]

@[simp] theorem State.enterProfile_fuses (s : State) (p : Nat) : (s.enterProfile p).fuses = s.fuses := rfl

@[simp] theorem State.commitProfile_fuses (s : State) (p : Nat) : (s.commitProfile p).fuses = s.fuses := by simp [State.commitProfile]

@[simp] theorem State.reformGroup_fuses (s : State) : s.reformGroup.fuses = s.fuses := rfl

@[simp] theorem State.applySettings_fuses (s : State) (es : List StagedEntry) : (s.applySettings es).fuses = s.fuses := by simp [State.applySettings]

@[simp] theorem runStage_fuses (c : Cmd) (s : State) : (runStage c s).fuses = s.fuses := by simp [runStage]

@[simp] theorem runProof_fuses (c : Cmd) (s : State) : (runProof c s).fuses = s.fuses := by
  unfold runProof
  split
  · simp
  · split <;> simp

@[simp] theorem runCommit_fuses (c : Cmd) (s : State) : (runCommit c s).fuses = s.fuses := by
  unfold runCommit
  extract_lets es
  split
  · simp
  · generalize (if s.settings.proofed then none else s.proofFails es) = f
    cases f <;> simp +zetaDelta

@[simp] theorem runRead_fuses (c : Cmd) (s : State) : (runRead c s).fuses = s.fuses := by simp [runRead]

@[simp] theorem State.recallCommit_fuses (s : State) (p : PendingCommit) : (s.recallCommit p).fuses = s.fuses := by simp [State.recallCommit]

theorem State.commitOne_fuses (s : State) (p : PendingCommit) : ∀ t, s.commitOne p = some t → t.fuses = s.fuses := by
  intro t h
  unfold State.commitOne at h
  split at h
  · cases h
  · dsimp only at h
    split at h <;> cases h <;> split <;> simp

@[simp] theorem State.joinAtTick_fuses (s : State) : s.joinAtTick.fuses = s.fuses := by
  unfold State.joinAtTick
  split <;> simp

@[simp] theorem State.noteValues_fuses (s : State) : s.noteValues.fuses = s.fuses := rfl

/-- A pending commit that is applied or discarded keeps the fuses. -/
theorem State.commitBind_fuses {s t : State} {o : Option PendingCommit} (h : o.bind s.commitOne = some t) : t.fuses = s.fuses := by
  obtain ⟨p, -, hp⟩ := Option.bind_eq_some_iff.mp h
  exact State.commitOne_fuses s p t hp

@[simp] theorem State.commitAtTick_fuses (s : State) : s.commitAtTick.fuses = s.fuses := by
  unfold State.commitAtTick
  extract_lets s0 s1
  have h1 : s1.fuses = s0.fuses := by
    unfold s1
    split
    · rfl
    · next t h => simp [State.commitBind_fuses h]
  have h0 : s0.fuses = s.fuses := State.joinAtTick_fuses s
  split
  · exact h1.trans h0
  · next t h => exact (State.commitBind_fuses h).trans (h1.trans h0)

/-! ### Functions of Machine/Map.lean -/

@[simp] theorem State.withMap_fuses (s : State) (m : GridMap) : (s.withMap m).fuses = s.fuses := rfl

@[simp] theorem State.noteLost_fuses (s : State) : s.noteLost.fuses = s.fuses := by
  unfold State.noteLost
  refine forEach_fuses _ _ _ ?_
  rintro e s _ rfl
  split
  · split <;> simp
  · split
    · split <;> simp
    · rfl

@[simp] theorem State.applyMap_fuses (s : State) (m : GridMap) : (s.applyMap m).fuses = s.fuses := by simp [State.applyMap]

@[simp] theorem State.discardPlan_fuses (s : State) : s.discardPlan.fuses = s.fuses := by simp [State.discardPlan]

@[simp] theorem State.portState_fuses (s : State) (p st : Nat) : (s.portState p st).fuses = s.fuses := by simp [State.portState]

@[simp] theorem State.setUnit_fuses (s : State) (u st source : Nat) : (s.setUnit u st source).fuses = s.fuses := by simp [State.setUnit]

@[simp] theorem State.failUser_fuses (s : State) (u : Nat) : (s.failUser u).fuses = s.fuses := by simp [State.failUser]

@[simp] theorem State.markAtOnce_fuses (s : State) (us : List Nat) (source : Nat) : (s.markAtOnce us source).fuses = s.fuses := rfl

@[simp] theorem State.spareLost_fuses (s : State) (atTick : Bool) (u : Nat) : (s.spareLost atTick u).fuses = s.fuses := by simp [State.spareLost]

@[simp] theorem State.resetDie_fuses (s : State) (d : Nat) : (s.resetDie d).fuses = s.fuses := by simp [State.resetDie]

@[simp] theorem State.dieReset_fuses (s : State) (u : Nat) : (s.dieReset u).fuses = s.fuses := by
  unfold State.dieReset
  split <;> simp

@[simp] theorem State.halt_fuses (s : State) (code unit : Nat) (a : Bool) : (s.halt code unit a).fuses = s.fuses := by simp [State.halt]

@[simp] theorem State.haltIfCut_fuses (s : State) (code unit : Nat) : (s.haltIfCut code unit).fuses = s.fuses := by simp [State.haltIfCut]

@[simp] theorem State.settleMap_fuses (s0 : State) (atTick : Bool) (bad us : List Nat) : (s0.settleMap atTick bad us).fuses = s0.fuses := by
  simp [State.settleMap]

@[simp] theorem State.disagree_fuses (s : State) (unit code reporter : Nat) : (s.disagree unit code reporter).fuses = s.fuses := by
  simp [State.disagree]

@[simp] theorem State.markUnit_fuses (s : State) (unit code reporter : Nat) : (s.markUnit unit code reporter).fuses = s.fuses := by
  simp [State.markUnit]

@[simp] theorem State.ledgerEntry_fuses (s : State) (u st source : Nat) : (s.ledgerEntry u st source).fuses = s.fuses := by simp [State.ledgerEntry]

@[simp] theorem State.withdraw_fuses (s : State) (u source : Nat) : (s.withdraw u source).fuses = s.fuses := by simp [State.withdraw]

@[simp] theorem State.retireAtOnce_fuses (s : State) (u source : Nat) : (s.retireAtOnce u source).fuses = s.fuses := by simp [State.retireAtOnce]

@[simp] theorem State.dueChanges_fuses (s : State) : s.dueChanges.fuses = s.fuses := by simp [State.dueChanges]

/-! ### Functions of Machine/Steps.lean -/

@[simp] theorem State.distribute_fuses (s : State) (imgs : List (Nat × List Byte)) : (s.distribute imgs).fuses = s.fuses := by simp [State.distribute]

@[simp] theorem State.loadMap_fuses (s : State) : s.loadMap.fuses = s.fuses := by simp [State.loadMap]

@[simp] theorem State.applyPlan_fuses (s : State) (img : Img) : (s.applyPlan img).fuses = s.fuses := by simp [State.applyPlan]

@[simp] theorem State.loadImage_fuses (s : State) (img : Img) : (s.loadImage img).2.fuses = s.fuses := by
  unfold State.loadImage
  split <;> simp

@[simp] theorem State.completeSlot_fuses (s : State) (c : Cmd) (status slot detail : Nat) :
    (s.completeSlot c status slot detail).fuses = s.fuses := by
  simp [State.completeSlot]

@[simp] theorem State.groupLoad_fuses (s : State) (c : Cmd) : (s.groupLoad c).fuses = s.fuses := by
  unfold State.groupLoad
  split
  · dsimp only
    split <;> simp
  · dsimp only
    split <;> simp

@[simp] theorem runPlanLoad_fuses (c : Cmd) (s : State) : (runPlanLoad c s).fuses = s.fuses := by simp [runPlanLoad]

@[simp] theorem State.finishLoad_fuses (s : State) : s.finishLoad.fuses = s.fuses := by
  unfold State.finishLoad
  split <;> simp

@[simp] theorem State.stopLoad_fuses (s : State) : s.stopLoad.fuses = s.fuses := by
  unfold State.stopLoad
  split <;> simp

@[simp] theorem State.loadReport_fuses (s : State) (slot status detail : Nat) : (s.loadReport slot status detail).fuses = s.fuses := by
  unfold State.loadReport
  split
  · rfl
  · extract_lets _ s1 _ _ s2
    split
    · rfl
    · split
      · rfl
      · exact State.completeSlot_fuses _ _ _ _ _

@[simp] theorem State.dropPieces_fuses (s : State) (x : Xfer) : (s.dropPieces x).fuses = s.fuses := by simp [State.dropPieces]

@[simp] theorem State.openStep_fuses (s : State) (write : Bool) (ds : List Descr) : (s.openStep write ds).fuses = s.fuses := rfl

@[simp] theorem State.dropStep_fuses (s : State) : s.dropStep.fuses = s.fuses := by simp [State.dropStep]

@[simp] theorem State.takeGroup_fuses (s : State) : s.takeGroup.fuses = s.fuses := by simp [State.takeGroup]

@[simp] theorem State.beginRun_fuses (s : State) (c : Cmd) (st : Step) : (s.beginRun c st).fuses = s.fuses := by simp [State.beginRun]

@[simp] theorem runStepStart_fuses (c : Cmd) (s : State) : (runStepStart c s).fuses = s.fuses := by
  unfold runStepStart
  split <;> simp

@[simp] theorem State.fixFlip_fuses (s : State) (tag : Option Nat) : (s.fixFlip tag).fuses = s.fuses := by simp [State.fixFlip]

@[simp] theorem runStepCommit_fuses (c : Cmd) (s : State) : (runStepCommit c s).fuses = s.fuses := by
  unfold runStepCommit
  split
  · simp
  · split <;> simp

@[simp] theorem runStepReplay_fuses (c : Cmd) (s : State) : (runStepReplay c s).fuses = s.fuses := by
  unfold runStepReplay
  split
  · simp
  · dsimp only
    split
    case h_5 | h_6 =>
      split
      · simp
      · split
        · simp
        · split <;> simp
    all_goals simp

@[simp] theorem State.judgeBudget_fuses (s : State) : s.judgeBudget.fuses = s.fuses := by simp [State.judgeBudget]

@[simp] theorem State.holdCores_fuses (s : State) : s.holdCores.fuses = s.fuses := rfl

@[simp] theorem State.leaveGroup_fuses (s : State) (t : Nat) : (s.leaveGroup t).fuses = s.fuses := by simp [State.leaveGroup]

@[simp] theorem State.reportFaults_fuses (s : State) : s.reportFaults.fuses = s.fuses := by simp [State.reportFaults]

@[simp] theorem State.orderOwnStop_fuses (s : State) : s.orderOwnStop.fuses = s.fuses := by
  unfold State.orderOwnStop
  split <;> simp

@[simp] theorem State.countClockRuns_fuses (s : State) : s.countClockRuns.fuses = s.fuses := rfl

@[simp] theorem State.endFailed_fuses (s : State) : s.endFailed.fuses = s.fuses := by
  unfold State.endFailed
  split
  · simp
  · dsimp only
    split
    · simp
    · split <;> simp

@[simp] theorem State.endClean_fuses (s : State) : s.endClean.fuses = s.fuses := by
  unfold State.endClean
  dsimp only
  split
  · simp
  · split <;> simp

@[simp] theorem State.flipAtTick_fuses (s : State) : s.flipAtTick.fuses = s.fuses := by
  unfold State.flipAtTick
  split
  · simp
  · split
    · simp
    · split
      · split <;> simp
      · split <;> simp

@[simp] theorem execStepInputsDone_fuses (s : State) : FusesKept s (execStepInputsDone s) := by simp [execStepInputsDone]

@[simp] theorem execStepOutputsDone_fuses (s : State) : FusesKept s (execStepOutputsDone s) := by simp [execStepOutputsDone]

/-! ### Functions of Machine/Transfers.lean -/

@[simp] theorem State.startXfer_fuses (s : State) (c : Cmd) (write : Bool) : (s.startXfer c write).fuses = s.fuses := by
  unfold State.startXfer
  split <;> simp

@[simp] theorem runDmaWrite_fuses (c : Cmd) (s : State) : (runDmaWrite c s).fuses = s.fuses := by simp [runDmaWrite]

@[simp] theorem runDmaRead_fuses (c : Cmd) (s : State) : (runDmaRead c s).fuses = s.fuses := by simp [runDmaRead]

@[simp] theorem State.setXfer_fuses (s : State) (x : Xfer) : (s.setXfer x).fuses = s.fuses := rfl

@[simp] theorem State.endStepXfer_fuses (s : State) (x : Xfer) : (s.endStepXfer x).fuses = s.fuses := by simp [State.endStepXfer]

@[simp] theorem State.endXfer_fuses (s : State) (x : Xfer) : (s.endXfer x).fuses = s.fuses := by simp [State.endXfer]

@[simp] theorem State.hostProtection_fuses (s : State) (a : Nat) : (s.hostProtection a).fuses = s.fuses := by simp [State.hostProtection]

@[simp] theorem State.askUnit_fuses (s : State) (x : Xfer) (p : Piece) : (s.askUnit x p).2.fuses = s.fuses := by
  unfold State.askUnit
  split <;> simp

@[simp] theorem State.takeHostReply_fuses (s : State) (p : Packet) : (s.takeHostReply p).fuses = s.fuses := by
  unfold State.takeHostReply
  split
  · rfl
  · split
    · rfl
    · extract_lets unit q0 u out s1 x1 q1 q2 r
      have h1 : s1.fuses = s.fuses := by simp [s1]
      have hr : r.2.fuses = s.fuses := by simp [r, apply_ite Prod.snd, h1]
      simp [hr]

@[simp] theorem State.pieceRequests_fuses (s : State) (x : Xfer) (p : Piece) (chan : Nat) : (s.pieceRequests x p chan).fuses = s.fuses := by
  simp [State.pieceRequests]

@[simp] theorem State.renewUnit_fuses (s : State) (x : Xfer) (p : Piece) : (s.renewUnit x p).fuses = s.fuses := by
  unfold State.renewUnit
  split <;> simp

@[simp] theorem execHostPieceStart_fuses (tag : Nat) (s : State) : FusesKept s (execHostPieceStart tag s) := by
  unfold execHostPieceStart
  split
  · simp
  · split
    · simp
    · split
      · simp
      · split <;> simp

@[simp] theorem execHostPieceComplete_fuses (tag piece : Nat) (s : State) : FusesKept s (execHostPieceComplete tag piece s) := by
  unfold execHostPieceComplete
  split
  · simp
  · split <;> simp

@[simp] theorem State.abortXfer_fuses (s : State) (x : Xfer) (status err : Nat) : (s.abortXfer x status err).fuses = s.fuses := by
  simp [State.abortXfer]

@[simp] theorem State.sendCopy_fuses (s : State) (slot src dst n : Nat) : (s.sendCopy slot src dst n).2.fuses = s.fuses := by simp [State.sendCopy]

@[simp] theorem State.sendCopies_fuses (c : Cmd) (ks : List Nat) (s : State) :
    (State.sendCopies c ks s).2.fuses = s.fuses := by
  induction ks generalizing s with
  | nil => rfl
  | cons k ks ih => simp [State.sendCopies, ih]

@[simp] theorem runGroupCopy_fuses (c : Cmd) (s : State) : (runGroupCopy c s).fuses = s.fuses := by
  unfold runGroupCopy
  split <;> simp

/-! ### Functions of Machine/Clocks.lean -/

@[simp] theorem execReferenceLost_fuses (s : State) : FusesKept s (execReferenceLost s) := by
  unfold execReferenceLost
  split <;> simp

@[simp] theorem execReferenceHoldoverExpire_fuses (s : State) : FusesKept s (execReferenceHoldoverExpire s) := by simp [execReferenceHoldoverExpire]

@[simp] theorem execReferenceReturned_fuses (s : State) : FusesKept s (execReferenceReturned s) := by
  unfold execReferenceReturned
  split <;> simp

@[simp] theorem State.lockClocks_fuses (s : State) (bad : List Nat) : (s.lockClocks bad).fuses = s.fuses := by simp [State.lockClocks]

@[simp] theorem execClockParentSwitch_fuses (die : Nat) (s : State) : FusesKept s (execClockParentSwitch die s) := by
  unfold execClockParentSwitch
  split
  · simp
  · dsimp only
    split
    · simp
    · exact (fusesKept_next _ _).mpr (forEach_fuses _ _ _ (by simp))

@[simp] theorem State.setTrim_fuses (s : State) (t : Int) : (s.setTrim t).fuses = s.fuses := rfl

@[simp] theorem State.corruptFifo_fuses (s : State) (die key : Nat) : (s.corruptFifo die key).fuses = s.fuses := by
  unfold State.corruptFifo
  refine (forEach_fuses _ _ _ ?_).trans (State.countLane_fuses _ _)
  rintro p s _ rfl
  split <;> simp

@[simp] theorem State.wander_fuses (s : State) (die : Nat) (seps : List (Nat × Nat)) : (s.wander die seps).fuses = s.fuses := by simp [State.wander]

@[simp] theorem execTimingBeacon_fuses (die : Nat) (beacon : Nat × Nat) (seps : List (Nat × Nat)) (s : State) :
    FusesKept s (execTimingBeacon die beacon seps s) := by
  simp [execTimingBeacon]

@[simp] theorem State.trainFifos_fuses (s : State) : s.trainFifos.fuses = s.fuses := rfl

@[simp] theorem State.protectiveDrop_fuses (s : State) (ci mhz : Nat) : (s.protectiveDrop ci mhz).fuses = s.fuses := by simp [State.protectiveDrop]

@[simp] theorem State.pointAtTick_fuses (s : State) (ci : Nat) : (s.pointAtTick ci).fuses = s.fuses := by simp [State.pointAtTick]

@[simp] theorem State.closeClockSecond_fuses (s : State) : s.closeClockSecond.fuses = s.fuses := by simp [State.closeClockSecond]

/-! ### Functions of Machine/Power.lean -/

@[simp] theorem State.envelopeNotice_fuses (s : State) (reason index : Nat) : (s.envelopeNotice reason index).fuses = s.fuses := by
  simp [State.envelopeNotice]

@[simp] theorem State.pollOne_fuses (readings : List PmbusAnswer) (key : Nat) (s : State) : (s.pollOne readings key).fuses = s.fuses := by
  unfold State.pollOne
  split <;> simp

@[simp] theorem State.pollZone_fuses (z : Nat) (s : State) : (s.pollZone z).fuses = s.fuses := by
  unfold State.pollZone
  split <;> simp

@[simp] theorem execPmbusPoll_fuses (readings : List PmbusAnswer) (s : State) : FusesKept s (execPmbusPoll readings s) := by simp [execPmbusPoll]

@[simp] theorem State.requestStretch_fuses (s : State) : s.requestStretch.fuses = s.fuses := by simp [State.requestStretch]

@[simp] theorem execPowerSecond_fuses (s : State) : FusesKept s (execPowerSecond s) := by simp [execPowerSecond]

@[simp] theorem State.reduceAtTick_fuses (s : State) : s.reduceAtTick.fuses = s.fuses := by simp [State.reduceAtTick]

@[simp] theorem State.riseAtTick_fuses (s : State) : s.riseAtTick.fuses = s.fuses := by simp [State.riseAtTick]

@[simp] theorem execEnergyMinute_fuses (s : State) : FusesKept s (execEnergyMinute s) := by simp [execEnergyMinute]

@[simp] theorem runEnvelopeReport_fuses (c : Cmd) (s : State) : (runEnvelopeReport c s).fuses = s.fuses := by simp [runEnvelopeReport]

@[simp] theorem execZoneCurrentWarning_fuses (zone : Nat) (s : State) : FusesKept s (execZoneCurrentWarning zone s) := by
  simp [execZoneCurrentWarning]

@[simp] theorem State.loseFirstPhase_fuses (s : State) (ci phase : Nat) : (s.loseFirstPhase ci phase).fuses = s.fuses := by
  simp [State.loseFirstPhase]

@[simp] theorem State.loseSecondPhase_fuses (s : State) (ci phase : Nat) : (s.loseSecondPhase ci phase).fuses = s.fuses := by
  simp [State.loseSecondPhase]

@[simp] theorem State.losePhase_fuses (s : State) (ci phase : Nat) : (s.losePhase ci phase).fuses = s.fuses := by simp [State.losePhase]

@[simp] theorem execPhaseLost_fuses (cluster phase : Nat) (s : State) : FusesKept s (execPhaseLost cluster phase s) := by simp [execPhaseLost]

@[simp] theorem State.testPhases_fuses (s : State) (ci : Nat) (failed : List Nat) : (s.testPhases ci failed).fuses = s.fuses := by
  simp [State.testPhases]

@[simp] theorem execDroopEvent_fuses (cluster : Nat) (droop : Nat × Bool) (failed : List Nat) (s : State) :
    FusesKept s (execDroopEvent cluster droop failed s) := by
  simp [execDroopEvent]

@[simp] theorem execDeratedExpiry_fuses (site : Nat) (s : State) : FusesKept s (execDeratedExpiry site s) := by simp [execDeratedExpiry]

@[simp] theorem State.expireAtTick_fuses (s : State) : s.expireAtTick.fuses = s.fuses := by simp [State.expireAtTick]

/-! ### Functions of Machine/Thermal.lean -/

@[simp] theorem State.thermalNotice_fuses (s : State) (reason unit value : Nat) : (s.thermalNotice reason unit value).fuses = s.fuses := by
  simp [State.thermalNotice]

@[simp] theorem State.noteHottest_fuses (s : State) : s.noteHottest.fuses = s.fuses := rfl

@[simp] theorem State.watchExit_fuses (s : State) : s.watchExit.fuses = s.fuses := by simp [State.watchExit]

@[simp] theorem State.inletNotice_fuses (s : State) : s.inletNotice.fuses = s.fuses := by simp [State.inletNotice]

@[simp] theorem State.sampleLid_fuses (s : State) (a b : Int) : (s.sampleLid a b).fuses = s.fuses := by simp [State.sampleLid]

@[simp] theorem State.faultRecord_fuses (s : State) (k : Nat) (p : Pair) (source : Nat) : (s.faultRecord k p source).fuses = s.fuses := by
  simp [State.faultRecord]

@[simp] theorem State.derateSensor_fuses (s : State) (k : Nat) : (s.derateSensor k).fuses = s.fuses := by simp [State.derateSensor]

@[simp] theorem State.samplePair_fuses (s : State) (k : Nat) (a b : Int) : (s.samplePair k a b).fuses = s.fuses := by simp [State.samplePair]

@[simp] theorem execSensorSample_fuses (pair : Nat) (primary secondary : Int) (s : State) :
    FusesKept s (execSensorSample pair primary secondary s) := by
  simp [execSensorSample]

@[simp] theorem State.hbmError_fuses (s : State) (stack : Nat) (e : Nat × Nat) : (s.hbmError stack e).fuses = s.fuses := by
  unfold State.hbmError
  split <;> simp

@[simp] theorem execHbmTemperatureRead_fuses (stack : Nat) (reading : Int) (errors : List (Nat × Nat)) (s : State) :
    FusesKept s (execHbmTemperatureRead stack reading errors s) := by
  simp [execHbmTemperatureRead]

@[simp] theorem execFlowPulse_fuses (s : State) : FusesKept s (execFlowPulse s) := by simp [execFlowPulse]

@[simp] theorem execThermalDemandUpdate_fuses (s : State) : FusesKept s (execThermalDemandUpdate s) := by simp [execThermalDemandUpdate]

@[simp] theorem State.throttle_fuses (s : State) (ci : Nat) : (s.throttle ci).fuses = s.fuses := by
  unfold State.throttle
  split
  · simp
  · dsimp only
    split
    · split <;> simp
    · simp

@[simp] theorem execThermalSecond_fuses (s : State) : FusesKept s (execThermalSecond s) := by
  unfold execThermalSecond
  extract_lets t s0 h n bad inSum inN rail pin ths ths theta cap flow _ s1 s2 s3 s4 s5
  clear_value theta cap flow
  have h2 : s2.fuses = s.fuses := by
    unfold s2
    split
    · exact State.thermalNotice_fuses _ _ _ _
    · rfl
  have h3 : s3.fuses = s.fuses := by simp [s3, h2]
  have h4 : s4.fuses = s.fuses := by
    unfold s4
    split
    · split
      · exact (State.thermalNotice_fuses _ _ _ _).trans h3
      · exact h3
    · exact h3
  have h5 : s5.fuses = s.fuses := by
    unfold s5
    split <;> simp [h4]
  exact (fusesKept_next s _).mpr ((State.watchExit_fuses s5).trans h5)

@[simp] theorem State.beginResponse_fuses (s : State) (condition : Nat) : (s.beginResponse condition).fuses = s.fuses := by simp [State.beginResponse]

@[simp] theorem execCoolantLossDetect_fuses (condition : Nat) (s : State) : FusesKept s (execCoolantLossDetect condition s) := by
  simp [execCoolantLossDetect]

@[simp] theorem State.restartChallenges_fuses (s : State) : s.restartChallenges.fuses = s.fuses := rfl

@[simp] theorem State.responseAtTick_fuses (s : State) : s.responseAtTick.fuses = s.fuses := by
  unfold State.responseAtTick
  split
  · rfl
  · dsimp only
    split
    · split
      · split <;> simp
      · simp
    · simp

@[simp] theorem execHardLimit_fuses (unit : Nat) (reading : Int) (s : State) : FusesKept s (execHardLimit unit reading s) := by
  unfold execHardLimit
  split <;> simp

@[simp] theorem runHealthSensors_fuses (c : Cmd) (s : State) : (runHealthSensors c s).fuses = s.fuses := by simp [runHealthSensors]

/-! ### Functions of Machine/Health.lean -/

@[simp] theorem State.reportTo_fuses (s : State) (c : Cmd) (a : Nat) (bytes : List Byte) : (s.reportTo c a bytes).fuses = s.fuses := by
  simp [State.reportTo]

@[simp] theorem runInfo_fuses (c : Cmd) (s : State) : (runInfo c s).fuses = s.fuses := by simp [runInfo]

@[simp] theorem State.noteOverflow_fuses (s : State) : s.noteOverflow.fuses = s.fuses := by simp [State.noteOverflow]

@[simp] theorem runHealthErrors_fuses (c : Cmd) (s : State) : (runHealthErrors c s).fuses = s.fuses := by simp [runHealthErrors]

@[simp] theorem runHealthCongestion_fuses (c : Cmd) (s : State) : (runHealthCongestion c s).fuses = s.fuses := by simp [runHealthCongestion]

@[simp] theorem execCongestionMapAssemble_fuses (s : State) : FusesKept s (execCongestionMapAssemble s) := by simp [execCongestionMapAssemble]

@[simp] theorem runHealthPorts_fuses (c : Cmd) (s : State) : (runHealthPorts c s).fuses = s.fuses := by simp [runHealthPorts]

@[simp] theorem runHealthUnits_fuses (c : Cmd) (s : State) : (runHealthUnits c s).fuses = s.fuses := by simp [runHealthUnits]

/-! ### Functions of Machine/SecurityCmds.lean -/

@[simp] theorem runCertRead_fuses (c : Cmd) (s : State) : (runCertRead c s).fuses = s.fuses := by simp [runCertRead]

@[simp] theorem runFwUpdate_fuses (c : Cmd) (s : State) : (runFwUpdate c s).fuses = s.fuses := by
  unfold runFwUpdate
  dsimp only
  split <;> simp

@[simp] theorem State.storePolicy_fuses (s : State) (p : Policy) : (s.storePolicy p).fuses = s.fuses := rfl

@[simp] theorem runKeyAdd_fuses (c : Cmd) (s : State) : (runKeyAdd c s).fuses = s.fuses := by
  unfold runKeyAdd
  split <;> simp

@[simp] theorem runDebugUnlock_fuses (c : Cmd) (s : State) : (runDebugUnlock c s).fuses = s.fuses := by
  unfold runDebugUnlock
  split <;> simp

@[simp] theorem runAttest_fuses (c : Cmd) (s : State) : (runAttest c s).fuses = s.fuses := by simp [runAttest]

/-! ### Functions of Machine/Resets.lean -/

@[simp] theorem State.cleared_fuses (s : State) : s.cleared.fuses = s.fuses := by simp [State.cleared]

@[simp] theorem State.beginStage_fuses (s : State) (code unit : Nat) : (s.beginStage code unit).fuses = s.fuses := rfl

@[simp] theorem State.beginBringup_fuses (s : State) (straps : StrapPins) : (s.beginBringup straps).fuses = s.fuses := by simp [State.beginBringup]

@[simp] theorem State.panelReset_fuses (s : State) (straps : StrapPins) : (s.panelReset straps).fuses = s.fuses := by simp [State.panelReset]

@[simp] theorem runPanelReset_fuses (c : Cmd) (s : State) : (runPanelReset c s).fuses = s.fuses := by simp [runPanelReset]

@[simp] theorem execCompletionRecordWrite_fuses (s : State) : FusesKept s (execCompletionRecordWrite s) := by
  unfold execCompletionRecordWrite
  split <;> simp

@[simp] theorem State.freezeEdges_fuses (s : State) (v : Bool) : (s.freezeEdges v).fuses = s.fuses := by simp only [State.freezeEdges]

@[simp] theorem runComputeReset_fuses (c : Cmd) (s : State) : (runComputeReset c s).fuses = s.fuses := by simp [runComputeReset]

@[simp] theorem State.endCrumbCommands_fuses (s : State) : s.endCrumbCommands.fuses = s.fuses := by
  unfold State.endCrumbCommands
  split <;> simp

@[simp] theorem State.stopForReset_fuses (s : State) : s.stopForReset.fuses = s.fuses := by simp [State.stopForReset]

@[simp] theorem State.loseSram_fuses (s : State) : s.loseSram.fuses = s.fuses := rfl

@[simp] theorem State.resetCrumb_fuses (s : State) (retain : Bool) : (s.resetCrumb retain).fuses = s.fuses := rfl

@[simp] theorem State.resetAtTick_fuses (s : State) : s.resetAtTick.fuses = s.fuses := by
  unfold State.resetAtTick
  split <;> simp

@[simp] theorem State.routersReset_fuses (s : State) : s.routersReset.fuses = s.fuses := by simp [State.routersReset]

/-! ### Functions of Machine/Links.lean -/

@[simp] theorem State.relayDone_fuses (s : State) (slot seq status detail result : Nat) :
    (s.relayDone slot seq status detail result).fuses = s.fuses := by
  unfold State.relayDone
  split <;> simp

@[simp] theorem State.answerRelay_fuses (s : State) (seq status detail result : Nat) : (s.answerRelay seq status detail result).fuses = s.fuses := by
  simp [State.answerRelay]

@[simp] theorem State.answer_fuses (s : State) (c : Cmd) (status detail result : Nat) : (s.answer c status detail result).fuses = s.fuses := by
  simp [State.answer]

@[simp] theorem State.settleRetrains_fuses (s : State) : s.settleRetrains.fuses = s.fuses := by
  unfold State.settleRetrains
  refine forEach_fuses _ _ _ ?_
  rintro r s _ rfl
  dsimp only
  split
  · simp
  · split <;> simp

@[simp] theorem State.portTo_fuses (s : State) (p st : Nat) : (s.portTo p st).fuses = s.fuses := by simp [State.portTo]

@[simp] theorem State.startTraining_fuses (s : State) (p : Nat) : (s.startTraining p).fuses = s.fuses := by simp [State.startTraining]

@[simp] theorem State.failTraining_fuses (s : State) (p : Nat) : (s.failTraining p).fuses = s.fuses := by simp [State.failTraining]

@[simp] theorem execPortTraining_fuses (port : Nat) (goodLanes : BitVec 8) (roundTripNs : Nat) (s : State) :
    FusesKept s (execPortTraining port goodLanes roundTripNs s) := by
  simp [execPortTraining]

@[simp] theorem execPortRetryTimer_fuses (port : Nat) (s : State) : FusesKept s (execPortRetryTimer port s) := by
  unfold execPortRetryTimer
  split
  · simp
  · split <;> simp

@[simp] theorem State.failVerify_fuses (s : State) (p : Nat) : (s.failVerify p).fuses = s.fuses := by simp [State.failVerify]

@[simp] theorem execPeerVerification_fuses (port : Nat) (reply : PeerReply) (s : State) : FusesKept s (execPeerVerification port reply s) := by
  unfold execPeerVerification
  split
  · simp
  · dsimp only
    split <;> simp

@[simp] theorem execIdentityReplyTimeout_fuses (port : Nat) (s : State) : FusesKept s (execIdentityReplyTimeout port s) := by
  unfold execIdentityReplyTimeout
  split
  · simp
  · split <;> simp

@[simp] theorem execIdentityRequest_fuses (port : Nat) (challenge : List Byte) (s : State) : FusesKept s (execIdentityRequest port challenge s) := by
  simp [execIdentityRequest]

@[simp] theorem State.sendTx_fuses (s : State) (e : Nat) (x : Tx) : (s.sendTx e x).1.fuses = s.fuses := by
  unfold State.sendTx
  dsimp only
  split
  · rfl
  · split
    · rfl
    · split <;> simp

@[simp] theorem State.transmit_fuses (s : State) (io : Nat) : (s.transmit io).fuses = s.fuses := by
  unfold State.transmit
  split
  · rfl
  · refine (State.modIoDie_fuses _ _ _).trans (List.foldlRecOn _ _ (motive := fun acc : State × List Tx => acc.1.fuses = s.fuses) rfl ?_)
    intro acc h w _
    dsimp only
    split <;> simp [h]

@[simp] theorem State.queueTx_fuses (s : State) (io vc : Nat) (p : Packet) : (s.queueTx io vc p).fuses = s.fuses := by simp [State.queueTx]

@[simp] theorem State.ingressFault_fuses (s : State) (io route : Nat) : (s.ingressFault io route).fuses = s.fuses := by simp [State.ingressFault]

@[simp] theorem State.ingressPacket_fuses (s : State) (io : Nat) (p : Packet) : (s.ingressPacket io p).fuses = s.fuses := by
  unfold State.ingressPacket
  split <;> simp

@[simp] theorem execOutboundTransferComplete_fuses (io route xferId : Nat) (s : State) :
    FusesKept s (execOutboundTransferComplete io route xferId s) := by
  unfold execOutboundTransferComplete
  split
  · simp
  · dsimp only
    split <;> simp

@[simp] theorem State.cross_fuses (s : State) (io : Nat) (p : Packet) (to_ vc : Nat) : (s.cross io p to_ vc).fuses = s.fuses := by simp [State.cross]

@[simp] theorem execTc3Ingress_fuses (io : Nat) (s : State) : FusesKept s (execTc3Ingress io s) := by
  unfold execTc3Ingress
  split
  · simp
  · split
    · simp
    · split
      · simp
      · split
        · simp
        · dsimp only
          split <;> simp

@[simp] theorem State.receivePacket_fuses (s : State) (port vc : Nat) (p : Packet) : (s.receivePacket port vc p).fuses = s.fuses := by
  unfold State.receivePacket
  split <;> simp

@[simp] theorem State.drainRx_fuses (s : State) (io : Nat) : (s.drainRx io).fuses = s.fuses := by simp [State.drainRx]

@[simp] theorem State.retireLane_fuses (s : State) (port lane : Nat) : (s.retireLane port lane).fuses = s.fuses := by simp [State.retireLane]

@[simp] theorem State.takeFlit_fuses (s : State) (port vc lane : Nat) (payload : List Byte) : (s.takeFlit port vc lane payload).fuses = s.fuses := by
  unfold State.takeFlit
  dsimp only
  split
  · simp
  · split
    · simp
    · split <;> simp

@[simp] theorem State.failFlit_fuses (s : State) (port lane seq : Nat) (idle : Bool) : (s.failFlit port lane seq idle).fuses = s.fuses := by
  unfold State.failFlit
  split <;> simp

@[simp] theorem execPortSignalLoss_fuses (port : Nat) (s : State) : FusesKept s (execPortSignalLoss port s) := by simp [execPortSignalLoss]

@[simp] theorem runZlRetrain_fuses (c : Cmd) (s : State) : (runZlRetrain c s).fuses = s.fuses := by simp [runZlRetrain]

@[simp] theorem runWindowOpen_fuses (c : Cmd) (s : State) : (runWindowOpen c s).fuses = s.fuses := by
  unfold runWindowOpen
  split <;> simp

@[simp] theorem runWindowClose_fuses (c : Cmd) (s : State) : (runWindowClose c s).fuses = s.fuses := by simp [runWindowClose]

@[simp] theorem State.landTc3_fuses (s : State) (slot : Nat) (r : Nat × List Byte × Bool) : (s.landTc3 slot r).fuses = s.fuses := by
  simp [State.landTc3]

@[simp] theorem State.finishTc3_fuses (s : State) (slot id : Nat) (x : Tc3Rx) : (s.finishTc3 slot id x).fuses = s.fuses := by simp [State.finishTc3]

@[simp] theorem State.completeTc3_fuses (slot n : Nat) (s : State) :
    (State.completeTc3 slot n s).fuses = s.fuses := by
  induction n generalizing s with
  | zero => rfl
  | succ n ih => unfold State.completeTc3; dsimp only; split <;> simp [ih]

@[simp] theorem State.refuseTc3_fuses (s : State) (p : Packet) : (s.refuseTc3 p).fuses = s.fuses := by simp [State.refuseTc3]

@[simp] theorem execTc3RowWrite_fuses (s : State) : FusesKept s (execTc3RowWrite s) := by
  unfold execTc3RowWrite
  split <;> simp

@[simp] theorem State.setCopy_fuses (s : State) (c : Copy) (ended : Option Nat) : (s.setCopy c ended).fuses = s.fuses := by
  unfold State.setCopy
  split
  · split <;> simp
  · simp

@[simp] theorem State.takeAck_fuses (s : State) (slot id : Nat) (inside : Bool) : (s.takeAck slot id inside).fuses = s.fuses := by
  unfold State.takeAck
  split <;> simp

@[simp] theorem State.resendCopy_fuses (s : State) (c : Copy) (id : Nat) : (s.resendCopy c id).fuses = s.fuses := by
  unfold State.resendCopy
  split <;> simp

@[simp] theorem execTc3TransferTimeout_fuses (srcSlot xferId : Nat) (s : State) : FusesKept s (execTc3TransferTimeout srcSlot xferId s) := by
  unfold execTc3TransferTimeout
  split
  · split <;> simp
  · split <;> simp

/-! ### Functions of Machine/HostLink.lean -/

@[simp] theorem State.linkDown_fuses (s : State) : s.linkDown.fuses = s.fuses := by simp [State.linkDown]

@[simp] theorem State.linkTrained_fuses (s : State) (m : BitVec 8) : (s.linkTrained m).fuses = s.fuses := by simp [State.linkTrained]

@[simp] theorem execHostLinkDown_fuses (s : State) : FusesKept s (execHostLinkDown s) := by simp [execHostLinkDown]

@[simp] theorem execHostLinkTraining_fuses (goodLanes : BitVec 8) (s : State) : FusesKept s (execHostLinkTraining goodLanes s) := by
  unfold execHostLinkTraining
  split
  · simp
  · split <;> simp

@[simp] theorem State.retireHostLane_fuses (s : State) (lane : Nat) : (s.retireHostLane lane).fuses = s.fuses := by
  unfold State.retireHostLane
  extract_lets used s0 m s1
  have h1 : s1.fuses = s.fuses := by simp [s1, s0]
  clear_value m
  split
  · rfl
  · split
    · exact h1
    · split <;> simp [h1]

@[simp] theorem State.failFrame_fuses (s : State) (lane seq : Nat) (idle : Bool) : (s.failFrame lane seq idle).fuses = s.fuses := by
  unfold State.failFrame
  split <;> simp

@[simp] theorem State.receiveFrame_fuses (s : State) (ctl : BitVec 64) (payload : List Byte) (codewordOk : Bool) (lane : Nat) :
    (s.receiveFrame ctl payload codewordOk lane).fuses = s.fuses := by
  simp [State.receiveFrame]

@[simp] theorem State.receiveFlit_fuses (s : State) (port : Nat) (ctl : BitVec 64) (payload : List Byte) (codewordOk : Bool) (worstLane : Nat) :
    (s.receiveFlit port ctl payload codewordOk worstLane).fuses = s.fuses := by
  simp [State.receiveFlit]

@[simp] theorem execLinkFlitReceive_fuses (port : Nat) (ctl : BitVec 64) (payload : List Byte) (codewordOk : Bool) (worstLane : Nat) (s : State) :
    FusesKept s (execLinkFlitReceive port ctl payload codewordOk worstLane s) := by
  simp [execLinkFlitReceive]

@[simp] theorem execLaneRetire_fuses (port lane : Nat) (s : State) : FusesKept s (execLaneRetire port lane s) := by simp [execLaneRetire]

/-! ### Functions of Machine/Delivery.lean -/

@[simp] theorem State.deliverRow_fuses (s : State) (d : Nat) (p : Packet) (cycle : Nat) : (s.deliverRow d p cycle).fuses = s.fuses := by
  simp [State.deliverRow]

@[simp] theorem State.egressPacket_fuses (s : State) (io e : Nat) (p0 : Packet) : (s.egressPacket io e p0).fuses = s.fuses := by
  unfold State.egressPacket
  dsimp only
  split <;> simp

@[simp] theorem execRowDelivery_fuses (pkt cycle : Nat) (s : State) : FusesKept s (execRowDelivery pkt cycle s) := by
  unfold execRowDelivery
  split
  · simp
  · split
    · simp
    · dsimp only
      split
      · split
        · simp
        · split <;> simp
      · split <;> simp

@[simp] theorem execReplyArrival_fuses (pkt cycle : Nat) (s : State) : FusesKept s (execReplyArrival pkt cycle s) := by
  unfold execReplyArrival
  split <;> simp

theorem State.handMsg_fuses (s : State) : ∀ t, s.handMsg = some t → t.fuses = s.fuses := by
  intro t h
  obtain ⟨x, -, hx⟩ := Option.map_eq_some_iff.mp h
  rw [← hx]
  simp

@[simp] theorem State.sendBlock_fuses (s : State) (code : Nat) : (s.sendBlock code).fuses = s.fuses := by simp [State.sendBlock]

@[simp] theorem State.answerBlock_fuses (s : State) (p : Packet) : (s.answerBlock p).fuses = s.fuses := by
  unfold State.answerBlock
  split <;> simp

@[simp] theorem State.takeBlock_fuses (s : State) (place : Nat) : (s.takeBlock place).fuses = s.fuses := by simp [State.takeBlock]

@[simp] theorem State.sink_fuses (s : State) (uid place : Nat) : (s.sink uid place).fuses = s.fuses := by
  unfold State.sink
  split
  · simp
  · split <;> simp

@[simp] theorem State.sinkAll_fuses (s : State) (hs : List (Nat × Nat × Bool)) (p : Packet) : (s.sinkAll hs p).fuses = s.fuses := by
  simp [State.sinkAll]

@[simp] theorem State.offer_fuses (s : State) (i : Nat) : (s.offer i).fuses = s.fuses := by
  unfold State.offer
  split
  · rfl
  · split
    · next h => exact State.handMsg_fuses _ _ h
    · rfl
    · simp

@[simp] theorem execFabricPacketArrival_fuses (pkt cycle : Nat) (headerOk payloadOk : Bool) (lane : Option Nat) (t : State) :
    FusesKept t (execFabricPacketArrival pkt cycle headerOk payloadOk lane t) := by
  unfold execFabricPacketArrival
  dsimp only
  split <;> simp

/-! ### Functions of Machine/Mailbox.lean -/

@[simp] theorem runQuery_fuses (c : Cmd) (s : State) : (runQuery c s).fuses = s.fuses := by
  unfold runQuery
  split <;> simp

@[simp] theorem runTransfer_fuses (c : Cmd) (s : State) : (runTransfer c s).fuses = s.fuses := by
  unfold runTransfer
  split <;> simp

@[simp] theorem runControl_fuses (c : Cmd) (s : State) : (runControl c s).fuses = s.fuses := by
  unfold runControl
  split <;> simp

@[simp] theorem State.relayOut_fuses (s : State) (c : Cmd) : (s.relayOut c).fuses = s.fuses := by simp [State.relayOut]

@[simp] theorem State.startControl_fuses (s : State) (c : Cmd) : (s.startControl c).fuses = s.fuses := by simp [State.startControl]

@[simp] theorem State.runLane_fuses (n : Nat) (s : State) : (State.runLane n s).fuses = s.fuses := by
  induction n generalizing s with
  | zero => rfl
  | succ n ih => unfold State.runLane; split <;> simp [ih]

@[simp] theorem State.runTransfers_fuses (cs : List Cmd) (s : State) :
    (State.runTransfers cs s).fuses = s.fuses := by
  induction cs generalizing s with
  | nil => rfl
  | cons c cs ih => simp [State.runTransfers, ih]

@[simp] theorem State.runLanes_fuses (s : State) : s.runLanes.fuses = s.fuses := by simp [State.runLanes]

@[simp] theorem State.dispatch_fuses (s : State) (c : Cmd) : (s.dispatch c).fuses = s.fuses := by simp [State.dispatch]

@[simp] theorem State.takeSlot_fuses (s : State) (slot : Nat) : (s.takeSlot slot).fuses = s.fuses := rfl

@[simp] theorem State.acceptSlot_fuses (s : State) (slot : Nat) : (s.acceptSlot slot).fuses = s.fuses := by
  unfold State.acceptSlot
  split <;> simp

@[simp] theorem acceptAs_fuses (op slot : Nat) (s : State) : FusesKept s (acceptAs op slot s) := by simp [acceptAs]

/-! ### Functions of Machine/Groups.lean -/

@[simp] theorem State.workerRun_fuses (s : State) (tick : Nat) (st : Step) : (s.workerRun tick st).fuses = s.fuses := rfl

@[simp] theorem State.orderStop_fuses (s : State) (slot : Nat) (f : StepFault) : (s.orderStop slot f).fuses = s.fuses := by simp [State.orderStop]

@[simp] theorem State.takeFailure_fuses (s : State) (slot : Nat) (f : StepFault) : (s.takeFailure slot f).fuses = s.fuses := by
  simp [State.takeFailure]

@[simp] theorem State.runRelayed_fuses (s : State) (seq opcode flags : Nat) (payload : List Byte) :
    (s.runRelayed seq opcode flags payload).fuses = s.fuses := by
  simp [State.runRelayed]

@[simp] theorem State.workerLoad_fuses (s : State) (bytes : List Byte) : (s.workerLoad bytes).fuses = s.fuses := by simp [State.workerLoad]

@[simp] theorem State.managerTakes_fuses (s : State) (m : GroupMsg) : (s.managerTakes m).fuses = s.fuses := by
  unfold State.managerTakes
  split <;> simp

@[simp] theorem State.realign_fuses (s : State) : s.realign.fuses = s.fuses := by
  unfold State.realign
  split <;> simp

@[simp] theorem State.workerStart_fuses (s : State) (p : Plan) (tick : Nat) (st : Step) : (s.workerStart p tick st).fuses = s.fuses := by
  simp [State.workerStart]

@[simp] theorem State.workerTakes_fuses (s : State) (m : GroupMsg) : (s.workerTakes m).fuses = s.fuses := by
  unfold State.workerTakes
  split
  case h_3 | h_5 => split <;> simp
  all_goals simp

@[simp] theorem State.workerHub_fuses (s : State) (m : GroupMsg) : (s.workerHub m).fuses = s.fuses := by simp [State.workerHub]

@[simp] theorem execGroupMessageReceive_fuses (msg : GroupMsg) (s : State) : FusesKept s (execGroupMessageReceive msg s) := by
  unfold execGroupMessageReceive
  split
  · simp
  · split <;> simp

@[simp] theorem execCommandRelay_fuses (slot seq status detail result : Nat) (s : State) :
    FusesKept s (execCommandRelay slot seq status detail result s) := by
  simp [execCommandRelay]

@[simp] theorem State.moveMoments_fuses (s : State) (d : Int) : (s.moveMoments d).fuses = s.fuses := rfl

@[simp] theorem State.stepTimebase_fuses (s : State) (t : Nat) : (s.stepTimebase t).fuses = s.fuses := by simp [State.stepTimebase]

@[simp] theorem execTimeBeacon_fuses (stamp roundTrip received : Nat) (s : State) : FusesKept s (execTimeBeacon stamp roundTrip received s) := by
  simp [execTimeBeacon]

@[simp] theorem execWorkerJoin_fuses (s : State) : FusesKept s (execWorkerJoin s) := by simp [execWorkerJoin]

@[simp] theorem execManagerLost_fuses (s : State) : FusesKept s (execManagerLost s) := by
  unfold execManagerLost
  split <;> simp

@[simp] theorem execWorkerSilent_fuses (slot : Nat) (s : State) : FusesKept s (execWorkerSilent slot s) := by simp [execWorkerSilent]

@[simp] theorem execHealthGather_fuses (s : State) : FusesKept s (execHealthGather s) := by simp [execHealthGather]

/-! ### Functions of Machine/Units.lean -/

@[simp] theorem execDataPathMark_fuses (unit code reporter : Nat) (s : State) : FusesKept s (execDataPathMark unit code reporter s) := by
  simp [execDataPathMark]

@[simp] theorem execUnitReprobe_fuses (unit found : Nat) (s : State) : FusesKept s (execUnitReprobe unit found s) := by
  unfold execUnitReprobe
  split
  · simp
  · split <;> simp

@[simp] theorem execLedgerWrite_fuses (unit action source detail : Nat) (s : State) : FusesKept s (execLedgerWrite unit action source detail s) := by
  simp [execLedgerWrite]

@[simp] theorem State.memoryError_fuses (s : State) (key location die cycle : Nat) (bad : Bool) (flags : Nat) :
    (s.memoryError key location die cycle bad flags).fuses = s.fuses := by
  simp [State.memoryError]

@[simp] theorem State.coreArrayError_fuses (s : State) (kind c row word : Nat) (bad : Bool) :
    (s.coreArrayError kind c row word bad).fuses = s.fuses := by
  simp [State.coreArrayError]

@[simp] theorem execScrubRow_fuses (memory row outcome word : Nat) (s : State) : FusesKept s (execScrubRow memory row outcome word s) := by
  unfold execScrubRow
  split <;> simp

@[simp] theorem State.firewallWindows_fuses (s : State) : s.firewallWindows.fuses = s.fuses := rfl

@[simp] theorem State.refuseEngine_fuses (s : State) (e : Nat) : (s.refuseEngine e).fuses = s.fuses := rfl

@[simp] theorem State.serveEngine_fuses (s : State) (e target offset length : Nat) (isWrite : Bool) (data : List Byte) :
    (s.serveEngine e target offset length isWrite data).fuses = s.fuses := by
  unfold State.serveEngine
  split <;> simp

@[simp] theorem execEngineSidebandAccess_fuses (engine target offset length : Nat) (isWrite : Bool) (data : List Byte) (s : State) :
    FusesKept s (execEngineSidebandAccess engine target offset length isWrite data s) := by
  simp [execEngineSidebandAccess]

@[simp] theorem State.debugWrite_fuses (s : State) (a : Nat) (data : List Byte) : (s.debugWrite a data).fuses = s.fuses := by
  unfold State.debugWrite
  split
  · simp
  · split <;> simp

@[simp] theorem execDebugPortAccess_fuses (op address : Nat) (data : List Byte) (s : State) :
    FusesKept s (execDebugPortAccess op address data s) := by
  unfold execDebugPortAccess
  dsimp only
  split
  · simp
  · split <;> simp

/-! ### Functions of Machine/Bringup.lean -/

@[simp] theorem State.showStage_fuses (s : State) : s.showStage.fuses = s.fuses := rfl

@[simp] theorem State.stageRecord_fuses (s : State) (code unit : Nat) : (s.stageRecord code unit).fuses = s.fuses := by simp [State.stageRecord]

@[simp] theorem State.retireFound_fuses (s : State) (u : Nat) : (s.retireFound u).fuses = s.fuses := by simp [State.retireFound]

@[simp] theorem State.laneFound_fuses (s : State) (u : Nat) : (s.laneFound u).fuses = s.fuses := by simp [State.laneFound]

@[simp] theorem State.phaseFound_fuses (s : State) (u : Nat) : (s.phaseFound u).fuses = s.fuses := by
  unfold State.phaseFound
  split
  · split <;> simp
  · simp

@[simp] theorem State.sensorFound_fuses (s : State) (u : Nat) : (s.sensorFound u).fuses = s.fuses := by
  unfold State.sensorFound
  split <;> simp

@[simp] theorem State.repairRow_fuses (s : State) (k : Nat) : (s.repairRow k).fuses = s.fuses := by simp [State.repairRow]

@[simp] theorem State.rowFound_fuses (s : State) (k : Nat) : (s.rowFound k).fuses = s.fuses := by simp [State.rowFound]

@[simp] theorem State.stageFound_fuses (s : State) (code : Nat) (found : List Nat) : (s.stageFound code found).fuses = s.fuses := by
  unfold State.stageFound
  split <;> simp

@[simp] theorem State.startUnit_fuses (s : State) (u st source : Nat) : (s.startUnit u st source).fuses = s.fuses := by simp [State.startUnit]

@[simp] theorem State.startEntry_fuses (s : State) (e : LedgerEntry) : (s.startEntry e).fuses = s.fuses := by
  unfold State.startEntry
  split <;> simp

@[simp] theorem State.applyRepairs_fuses (s : State) (actions : List Nat) : (s.applyRepairs actions).fuses = s.fuses := by simp [State.applyRepairs]

@[simp] theorem State.spareLanes_fuses (s : State) (atTick : Bool) : (s.spareLanes atTick).fuses = s.fuses := by simp [State.spareLanes]

@[simp] theorem State.assignLanes_fuses (s : State) : s.assignLanes.fuses = s.fuses := by simp [State.assignLanes]

@[simp] theorem State.startPorts_fuses (s : State) : s.startPorts.fuses = s.fuses := by simp [State.startPorts]

@[simp] theorem State.startHostLink_fuses (s : State) : s.startHostLink.fuses = s.fuses := by
  unfold State.startHostLink
  dsimp only
  split
  · simp
  · split <;> simp

@[simp] theorem State.stageLedger_fuses (s : State) : s.stageLedger.fuses = s.fuses := by
  unfold State.stageLedger
  split <;> simp

@[simp] theorem State.beginFetch_fuses (s : State) (src : BootSource) : (s.beginFetch src).fuses = s.fuses := by simp [State.beginFetch]

@[simp] theorem State.beginTicks_fuses (s : State) : s.beginTicks.fuses = s.fuses := by simp [State.beginTicks]

@[simp] theorem State.endStage_fuses (s : State) (code unit : Nat) (passed : Bool) : (s.endStage code unit passed).fuses = s.fuses := rfl

@[simp] theorem State.acceptImage_fuses (s : State) (img : Img) : (s.acceptImage img).fuses = s.fuses := rfl

@[simp] theorem State.stagePassed_fuses (s : State) (code unit : Nat) : (s.stagePassed code unit).fuses = s.fuses := by
  unfold State.stagePassed
  split
  case h_8 => split <;> simp
  all_goals simp

@[simp] theorem State.retirePorts_fuses (s : State) (io : Nat) : (s.retirePorts io).fuses = s.fuses := by
  unfold State.retirePorts
  split <;> simp

@[simp] theorem State.loseGrid_fuses (s : State) : s.loseGrid.fuses = s.fuses := by simp [State.loseGrid]

@[simp] theorem State.verifyRecord_fuses (s : State) : s.verifyRecord.fuses = s.fuses := by
  unfold State.verifyRecord
  split
  · exact State.addError_fuses _ _
  · rfl

@[simp] theorem State.resetProgress_fuses (s : State) : s.resetProgress.fuses = s.fuses := by
  unfold State.resetProgress
  split <;> simp

@[simp] theorem State.resetBegun_fuses (s : State) (code : Nat) : (s.resetBegun code).fuses = s.fuses := by
  unfold State.resetBegun
  split <;> simp

@[simp] theorem State.stageEnded_fuses (s : State) (code unit : Nat) : (s.stageEnded code unit).fuses = s.fuses := by simp [State.stageEnded]

@[simp] theorem execRecoveryBoot_fuses (s : State) : FusesKept s (execRecoveryBoot s) := by
  unfold execRecoveryBoot
  dsimp only
  split
  · simp
  · split <;> simp

@[simp] theorem State.keepBlock_fuses (s : State) (code place : Nat) (block : List Byte) : (s.keepBlock code place block).fuses = s.fuses := rfl

@[simp] theorem execFirmwareBlockReceive_fuses (site : Nat) (block digest : List Byte) (s : State) :
    FusesKept s (execFirmwareBlockReceive site block digest s) := by
  unfold execFirmwareBlockReceive
  split <;> simp

@[simp] theorem execPwrOkRise_fuses (straps : StrapPins) (s : State) : FusesKept s (execPwrOkRise straps s) := by simp [execPwrOkRise]

@[simp] theorem State.stopWrite_fuses (s : State) : s.stopWrite.fuses = s.fuses := by
  unfold State.stopWrite
  dsimp only
  split <;> simp

@[simp] theorem execPwrOkFall_fuses (s : State) : FusesKept s (execPwrOkFall s) := by simp [execPwrOkFall]

@[simp] theorem execPanelResetN_fuses (lowNs : Nat) (released : Bool) (straps : StrapPins) (s : State) :
    FusesKept s (execPanelResetN lowNs released straps s) := by
  simp [execPanelResetN]

@[simp] theorem execAuxFall_fuses (s : State) : FusesKept s (execAuxFall s) := by simp [execAuxFall]

@[simp] theorem execAuxRise_fuses (s : State) : FusesKept s (execAuxRise s) := by simp [execAuxRise]

/-! ### Functions of Machine/Scalar.lean -/

@[simp] theorem execNop_fuses (core : Nat) (body : BitVec 56) (s : State) : FusesKept s (execNop core body s) := issue_fuses _ _ _ _ (by simp)

@[simp] theorem execLoop_fuses (core : Nat) (body : BitVec 56) (s : State) : FusesKept s (execLoop core body s) := issue_fuses _ _ _ _ (by simp)

@[simp] theorem execEndf_fuses (core : Nat) (body : BitVec 56) (s : State) : FusesKept s (execEndf core body s) := issue_fuses _ _ _ _ (by simp)

@[simp] theorem execSlot_fuses (core : Nat) (body : BitVec 56) (s : State) : FusesKept s (execSlot core body s) := issue_fuses _ _ _ _ (by simp)

@[simp] theorem execWait_fuses (core : Nat) (body : BitVec 56) (s : State) : FusesKept s (execWait core body s) := issue_fuses _ _ _ _ (by simp)

@[simp] theorem execWaitComplete_fuses (core : Nat) (s : State) : FusesKept s (execWaitComplete core s) := by
  unfold execWaitComplete
  split
  · dsimp only
    split <;> simp
  · simp

@[simp] theorem execScalarRegisterForm_fuses (core : Nat) (body : BitVec 56) (s : State) : FusesKept s (execScalarRegisterForm core body s) := by
  refine issue_fuses _ _ _ _ ?_
  rintro s k cyc _ rfl
  extract_lets
  split <;> simp

@[simp] theorem execScalarImmediateForm_fuses (core : Nat) (body : BitVec 56) (s : State) : FusesKept s (execScalarImmediateForm core body s) := by
  refine issue_fuses _ _ _ _ ?_
  rintro s k cyc _ rfl
  extract_lets
  split <;> simp

@[simp] theorem sysRead_fuses (core fn : Nat) (body : BitVec 48) (s : State) (val : State → Core → Nat → BitVec 64) :
    FusesKept s (sysRead core fn body s val) := issue_fuses _ _ _ _ (by simp)

@[simp] theorem execRdtb_fuses (core : Nat) (body : BitVec 48) (s : State) : FusesKept s (execRdtb core body s) := by simp [execRdtb]

@[simp] theorem execRdfi_fuses (core : Nat) (body : BitVec 48) (s : State) : FusesKept s (execRdfi core body s) := by simp [execRdfi]

@[simp] theorem execRdcyc_fuses (core : Nat) (body : BitVec 48) (s : State) : FusesKept s (execRdcyc core body s) := by simp [execRdcyc]

@[simp] theorem execRdid_fuses (core : Nat) (body : BitVec 48) (s : State) : FusesKept s (execRdid core body s) := by simp [execRdid]

@[simp] theorem execRdst_fuses (core : Nat) (body : BitVec 48) (s : State) : FusesKept s (execRdst core body s) := by simp [execRdst]

@[simp] theorem execClrst_fuses (core : Nat) (body : BitVec 48) (s : State) : FusesKept s (execClrst core body s) := issue_fuses _ _ _ _ (by simp)

@[simp] theorem execRdctr_fuses (core : Nat) (body : BitVec 48) (s : State) : FusesKept s (execRdctr core body s) := by simp [execRdctr]

@[simp] theorem State.limitOverrun_fuses (s : State) (c : Nat) : (s.limitOverrun c).fuses = s.fuses := by simp [State.limitOverrun]

@[simp] theorem execEndfRetire_fuses (core : Nat) (s : State) : FusesKept s (execEndfRetire core s) := by simp [execEndfRetire]

@[simp] theorem execCycleLimitOverrun_fuses (core : Nat) (s : State) : FusesKept s (execCycleLimitOverrun core s) := by simp [execCycleLimitOverrun]

/-! ### Functions of Machine/Tick.lean -/

@[simp] theorem State.clockOverrun_fuses (s : State) (c : Nat) : (s.clockOverrun c).fuses = s.fuses := by simp [State.clockOverrun]

@[simp] theorem State.overrunAt_fuses (s : State) (c : Nat) : (s.overrunAt c).fuses = s.fuses := by simp [State.overrunAt]

@[simp] theorem State.clearPlanned_fuses (s : State) : s.clearPlanned.fuses = s.fuses := by simp [State.clearPlanned]

@[simp] theorem State.lastAccesses_fuses (s : State) : s.lastAccesses.fuses = s.fuses := by simp [State.lastAccesses]

@[simp] theorem State.closeFrame_fuses (s : State) : s.closeFrame.fuses = s.fuses := by simp [State.closeFrame]

@[simp] theorem State.stallsToTick_fuses (s : State) : s.stallsToTick.fuses = s.fuses := by simp [State.stallsToTick]

@[simp] theorem State.readStalls_fuses (s : State) : s.readStalls.fuses = s.fuses := rfl

@[simp] theorem State.recentre_fuses (s : State) (p : Nat) : (s.recentre p).fuses = s.fuses := by simp [State.recentre]

@[simp] theorem State.takeStretch_fuses (s : State) : s.takeStretch.fuses = s.fuses := rfl

@[simp] theorem State.groupStretch_fuses (s : State) : s.groupStretch.fuses = s.fuses := by simp [State.groupStretch]

@[simp] theorem State.beginFrame_fuses (s : State) (p : Plan) (f : Nat) (isFirst : Bool) : (s.beginFrame p f isFirst).fuses = s.fuses := by
  simp [State.beginFrame]

@[simp] theorem State.runAtTick_fuses (s : State) : s.runAtTick.fuses = s.fuses := by
  unfold State.runAtTick
  split
  · rfl
  · split
    · simp
    · split
      · simp
      · split <;> simp

@[simp] theorem State.restCores_fuses (s : State) : s.restCores.fuses = s.fuses := rfl

@[simp] theorem State.restFabric_fuses (s : State) : s.restFabric.fuses = s.fuses := rfl

@[simp] theorem State.timeAtTick_fuses (s : State) (t : Nat) : (s.timeAtTick t).fuses = s.fuses := by simp [State.timeAtTick]

@[simp] theorem State.follow_fuses (s : State) (us : List Nat) : (s.follow us).fuses = s.fuses := by
  unfold State.follow
  refine forEach_fuses _ _ _ ?_
  rintro u s _ rfl
  split
  · simp
  · split
    · rfl
    · split <;> simp
  · split <;> simp
  · rfl

@[simp] theorem State.unitsAtTick_fuses (s : State) : s.unitsAtTick.fuses = s.fuses := by simp [State.unitsAtTick]

@[simp] theorem State.powerAtTick_fuses (s : State) : s.powerAtTick.fuses = s.fuses := by simp [State.powerAtTick]

@[simp] theorem execFrameTick_fuses (s : State) : FusesKept s (execFrameTick s) := by
  unfold execFrameTick
  split <;> simp

/-! ### Functions of Machine/Idle.lean -/

@[simp] theorem idle_fuses (s : State) : (idle s).fuses = s.fuses := by simp [idle]

end Sys2Proof.Machine
end

section
/-! PROOF. READY advances ROLLBACK and FW_KEY0_REVOKED (R508), and no step does anything else to the fuses (R4, R466, R500, R502). The
SECURITY_VERSION that READY takes is that of the image which ran before the event that ends stage 0x36: nothing that this event does before READY
changes the running image. -/

namespace Sys2Proof.Machine

/-! ### The running image -/

@[simp] theorem forEach_image {β : Type} (xs : List β) (f : β → State → State) (s : State)
    (h : ∀ x s t, f x s = t → t.boot.image = s.boot.image) : (forEach xs f s).boot.image = s.boot.image :=
  forEach_keeps (fun s => s.boot.image) xs f s fun x s => h x s _ rfl

@[simp] theorem State.boot_ite (p : Prop) [Decidable p] (s t : State) :
    (if p then s else t).boot = if p then s.boot else t.boot := apply_ite _ _ _ _

@[simp] theorem Boot.image_ite (p : Prop) [Decidable p] (a b : Boot) :
    (if p then a else b).image = if p then a.image else b.image := apply_ite _ _ _ _

@[simp] theorem State.event_boot (s : State) (code detail : Nat) (fault : Bool) : (s.event code detail fault).boot = s.boot := by
  simp [State.event]

@[simp] theorem State.addError_boot (s : State) (e : ErrIn) : (s.addError e).boot = s.boot := by
  simp [State.addError]

@[simp] theorem State.addLedger_boot (s : State) (unit action source detail : Nat) :
    (s.addLedger unit action source detail).boot = s.boot := by
  simp [State.addLedger]

@[simp] theorem State.failStep_boot (s : State) (frame status core detail : Nat) :
    (s.failStep frame status core detail).boot = s.boot := by
  simp [State.failStep]

@[simp] theorem State.failWith_boot (s : State) (e : ErrIn) (detail : Nat) : (s.failWith e detail).boot = s.boot := by
  simp [State.failWith]

@[simp] theorem State.modPort_boot (s : State) (p : Nat) (f : Port → Port) : (s.modPort p f).boot = s.boot := rfl

@[simp] theorem State.modCluster_boot (s : State) (ci : Nat) (f : Cluster → Cluster) : (s.modCluster ci f).boot = s.boot := rfl

@[simp] theorem State.portState_boot (s : State) (p st : Nat) : (s.portState p st).boot = s.boot := by
  simp [State.portState]

@[simp] theorem State.setUnit_boot (s : State) (u st source : Nat) : (s.setUnit u st source).boot = s.boot := by
  simp [State.setUnit]

@[simp] theorem State.spareLost_image (s : State) (atTick : Bool) (u : Nat) : (s.spareLost atTick u).boot.image = s.boot.image := by
  simp [State.spareLost, State.markAtOnce]

@[simp] theorem State.retireFound_image (s : State) (u : Nat) : (s.retireFound u).boot.image = s.boot.image := by
  simp [State.retireFound]

/-- What stage 0x36 finds is retired, as in any stage that has no finding of its own. -/
theorem State.stageFound_ready (s : State) (found : List Nat) :
    s.stageFound 0x36 found = forEach found (fun u s => s.retireFound u) s := rfl

@[simp] theorem State.noteLost_image (s : State) : s.noteLost.boot.image = s.boot.image := by
  unfold State.noteLost
  refine forEach_image _ _ _ ?_
  rintro e s _ rfl
  split
  · split <;> simp
  · split
    · split <;> simp
    · rfl

@[simp] theorem State.applyMap_image (s : State) (m : GridMap) : (s.applyMap m).boot.image = s.boot.image := by
  simp [State.applyMap, State.withMap]

@[simp] theorem State.discardPlan_image (s : State) : s.discardPlan.boot.image = s.boot.image := by
  simp [State.discardPlan]

@[simp] theorem State.enterProfile_image (s : State) (p : Nat) : (s.enterProfile p).boot.image = s.boot.image := rfl

@[simp] theorem State.beginTicks_image (s : State) : s.beginTicks.boot.image = s.boot.image := by
  simp [State.beginTicks]

@[simp] theorem State.loseGrid_image (s : State) : s.loseGrid.boot.image = s.boot.image := by
  simp [State.loseGrid]

@[simp] theorem State.endStage_image (s : State) (code unit : Nat) (passed : Bool) :
    (s.endStage code unit passed).boot.image = s.boot.image := rfl

@[simp] theorem State.stageRecord_image (s : State) (code unit : Nat) : (s.stageRecord code unit).boot.image = s.boot.image := by
  simp [State.stageRecord]

@[simp] theorem State.repairRow_image (s : State) (k : Nat) : (s.repairRow k).boot.image = s.boot.image := by
  simp [State.repairRow]

@[simp] theorem State.spareLanes_image (s : State) (atTick : Bool) : (s.spareLanes atTick).boot.image = s.boot.image := by
  simp [State.spareLanes]

@[simp] theorem State.applyRepairs_image (s : State) (actions : List Nat) : (s.applyRepairs actions).boot.image = s.boot.image := by
  simp [State.applyRepairs]

@[simp] theorem State.routersReset_image (s : State) : s.routersReset.boot.image = s.boot.image := by
  simp [State.routersReset, State.trainFifos, State.freezeEdges]

@[simp] theorem State.showStage_image (s : State) : s.showStage.boot.image = s.boot.image := rfl

@[simp] theorem State.resetBegun_image (s : State) (code : Nat) : (s.resetBegun code).boot.image = s.boot.image := by
  unfold State.resetBegun State.resetProgress
  split
  · split <;> simp
  · rfl

/-! ### READY -/

/-- The fuses of `t` are those of `s` but for FW_KEY0_REVOKED, which stays once it is blown, and ROLLBACK, which does not fall while the running image's
SECURITY_VERSION fits its 6 bits (R508). -/
def FusesAdvance (s t : State) : Prop :=
  t.fuses = { s.fuses with fwKey0Revoked := t.fuses.fwKey0Revoked, rollback := t.fuses.rollback } ∧
    (s.fuses.fwKey0Revoked = true → t.fuses.fwKey0Revoked = true) ∧
    (field s.boot.image 6 2 ≤ 63 → s.fuses.rollback.toNat ≤ t.fuses.rollback.toNat)

/-- A state with the same fuses has advanced none. -/
theorem FusesAdvance.of_eq {s t : State} (h : t.fuses = s.fuses) : FusesAdvance s t := by
  simp [FusesAdvance, h]

/-- What keeps the fuses after an advance adds nothing to it. -/
theorem FusesAdvance.trans_eq {s t u : State} (h : FusesAdvance s t) (hu : u.fuses = t.fuses) : FusesAdvance s u := by
  rwa [FusesAdvance, hu]

/-- An advance from a state with the same fuses and the same running image is one from here. -/
theorem FusesAdvance.of_same {s r t : State} (hf : r.fuses = s.fuses) (hi : r.boot.image = s.boot.image) (h : FusesAdvance r t) :
    FusesAdvance s t := by
  rwa [FusesAdvance, hf, hi] at h

/-- ROLLBACK moves up alone, as it is written only where SECURITY_VERSION exceeds it, and the revocation is only added (R508). -/
theorem State.advanceRollback_advances (s : State) : FusesAdvance s s.advanceRollback := by
  unfold State.advanceRollback
  extract_lets v
  split
  · next h =>
    obtain ⟨-, hlt⟩ := h
    refine ⟨rfl, fun hr => by simp [hr], fun hv => ?_⟩
    have hmod : v % 2 ^ 6 = v := Nat.mod_eq_of_lt (by omega)
    simp only [BitVec.toNat_ofNat, hmod]
    omega
  · exact .of_eq rfl

theorem State.becomeReady_advances (s : State) : FusesAdvance s s.becomeReady := by
  unfold State.becomeReady
  dsimp only
  split
  · exact .of_same rfl rfl (State.advanceRollback_advances _)
  · exact .of_eq (by split <;> simp)

/-- Only the end of stage 0x36 makes the panel READY. -/
theorem State.afterStage_fuses (s : State) (code unit : Nat) (h : code ≠ 0x36) : (s.afterStage code unit).fuses = s.fuses := by
  unfold State.afterStage
  split
  case h_18 => exact absurd rfl h
  all_goals simp

theorem State.afterStage_ready (s : State) (unit : Nat) : s.afterStage 0x36 unit = s.becomeReady := rfl

theorem State.stageFailed_fuses (s : State) (code unit : Nat) (found : List Nat) (h : code ≠ 0x36) :
    (s.stageFailed code unit found).fuses = s.fuses := by
  unfold State.stageFailed
  extract_lets s1
  have h1 : s1.fuses = s.fuses := (State.endStage_fuses _ _ _ _).trans (State.stageRecord_fuses _ _ _)
  split
  case h_15 => exact absurd rfl h
  case h_16 => exact (s1.afterStage_fuses code unit h).trans h1
  all_goals simp [h1, State.afterStage_fuses]

theorem State.stageFailed_ready (s : State) (unit : Nat) (found : List Nat) :
    s.stageFailed 0x36 unit found = ((s.stageRecord 0x36 unit).endStage 0x36 unit false).loseGrid.beginTicks.becomeReady := rfl

theorem State.stageFailed_advances (s : State) (code unit : Nat) (found : List Nat) : FusesAdvance s (s.stageFailed code unit found) := by
  by_cases h : code = 0x36
  · subst h
    rw [State.stageFailed_ready]
    exact .of_same (by simp) (by simp) (State.becomeReady_advances _)
  · exact .of_eq (s.stageFailed_fuses code unit found h)

theorem State.stageLate_advances (s : State) (code unit : Nat) (late : List Nat) : FusesAdvance s (s.stageLate code unit late) := by
  unfold State.stageLate
  split
  · exact .of_eq (by simp)
  · by_cases h : code = 0x36
    · subst h
      exact .of_same (by simp) (by simp [State.stageFound_ready]) (State.stageFailed_advances _ _ _ _)
    · exact .of_eq (by simp [State.stageFailed_fuses _ _ _ _ h])

/-- A stage that passed, and what follows it, advance the fuses at most. -/
theorem State.stagePassed_advances (s : State) (code unit : Nat) :
    FusesAdvance s ((s.stagePassed code unit).afterStage code unit) := by
  by_cases h : code = 0x36
  · subst h
    exact .of_same (r := (s.noteLost.enterProfile s.power.profile).beginTicks) (by simp) (by simp) (State.becomeReady_advances _)
  · exact .of_eq (by simp [State.afterStage_fuses _ _ _ h])

theorem execStageComplete_advances (code unit : Nat) (pass : Bool) (found : List Nat) (s : State) :
    ∀ t, execStageComplete code unit pass found s = .next t → FusesAdvance s t := by
  intro t h
  unfold execStageComplete at h
  dsimp only at h
  split at h
  · cases h
    exact .of_eq (by simp)
  · split at h
    · cases h
      exact .of_eq (by simp)
    · split at h
      · cases h
        refine FusesAdvance.trans_eq ?_ (State.stageEnded_fuses _ _ _)
        by_cases hc : code = 0x36
        · subst hc
          exact .of_same (by simp) (by simp [State.stageFound_ready]) (State.stagePassed_advances _ _ _)
        · exact .of_eq (by simp [State.afterStage_fuses _ _ _ hc])
      · cases h
        refine FusesAdvance.trans_eq ?_ (State.stageEnded_fuses _ _ _)
        by_cases hc : code = 0x36
        · subst hc
          exact .of_same (by simp) (by simp [State.stageFound_ready]) (State.stageFailed_advances _ _ _ _)
        · exact .of_eq (by simp [State.stageFailed_fuses _ _ _ _ hc])

theorem execStageTimeout_advances (code : Nat) (late : List Nat) (s : State) :
    ∀ t, execStageTimeout code late s = .next t → FusesAdvance s t := by
  intro t h
  unfold execStageTimeout at h
  extract_lets r unit late at h
  have hr : FusesAdvance s r := .of_eq (s.resetBegun_fuses code)
  split at h
  · rwa [← Host.Outcome.next.inj h]
  · split at h
    · rwa [← Host.Outcome.next.inj h]
    · rw [← Host.Outcome.next.inj h]
      exact .of_same (by simp [r]) (by simp [r]) ((State.stageLate_advances _ _ _ _).trans_eq (State.stageEnded_fuses _ _ _))

theorem exec_advances (i : Instr) (s : State) : ∀ t, exec i s = .next t → FusesAdvance s t := by
  have hkept : ∀ {o : Out}, FusesKept s o → ∀ t, o = .next t → FusesAdvance s t := fun h t ho => .of_eq (h t ho)
  cases i with
  | stageComplete code unit pass found => exact execStageComplete_advances code unit pass found s
  | stageTimeout code late => exact execStageTimeout_advances code late s
  | info slot => exact hkept (acceptAs_fuses _ _ s)
  | stage slot => exact hkept (acceptAs_fuses _ _ s)
  | proof slot => exact hkept (acceptAs_fuses _ _ s)
  | commit slot => exact hkept (acceptAs_fuses _ _ s)
  | read slot => exact hkept (acceptAs_fuses _ _ s)
  | planLoad slot => exact hkept (acceptAs_fuses _ _ s)
  | stepStart slot => exact hkept (acceptAs_fuses _ _ s)
  | stepCommit slot => exact hkept (acceptAs_fuses _ _ s)
  | stepReplay slot => exact hkept (acceptAs_fuses _ _ s)
  | dmaWrite slot => exact hkept (acceptAs_fuses _ _ s)
  | dmaRead slot => exact hkept (acceptAs_fuses _ _ s)
  | healthErrors slot => exact hkept (acceptAs_fuses _ _ s)
  | healthCongestion slot => exact hkept (acceptAs_fuses _ _ s)
  | healthPorts slot => exact hkept (acceptAs_fuses _ _ s)
  | healthUnits slot => exact hkept (acceptAs_fuses _ _ s)
  | healthSensors slot => exact hkept (acceptAs_fuses _ _ s)
  | envelopeReport slot => exact hkept (acceptAs_fuses _ _ s)
  | attest slot => exact hkept (acceptAs_fuses _ _ s)
  | certRead slot => exact hkept (acceptAs_fuses _ _ s)
  | keyAdd slot => exact hkept (acceptAs_fuses _ _ s)
  | debugUnlock slot => exact hkept (acceptAs_fuses _ _ s)
  | fwUpdate slot => exact hkept (acceptAs_fuses _ _ s)
  | computeReset slot => exact hkept (acceptAs_fuses _ _ s)
  | panelReset slot => exact hkept (acceptAs_fuses _ _ s)
  | zlRetrain slot => exact hkept (acceptAs_fuses _ _ s)
  | windowOpen slot => exact hkept (acceptAs_fuses _ _ s)
  | windowClose slot => exact hkept (acceptAs_fuses _ _ s)
  | groupCopy slot => exact hkept (acceptAs_fuses _ _ s)
  | commandRelay slot seq status detail result => exact hkept (execCommandRelay_fuses slot seq status detail result s)
  | logEnableWrite value => exact hkept (execLogEnableWrite_fuses value s)
  | consWrite value => exact hkept (execConsWrite_fuses value s)
  | hostWindowWrite isWrite offset bytes => exact hkept (execHostWindowWrite_fuses isWrite offset bytes s)
  | completionRecordWrite => exact hkept (execCompletionRecordWrite_fuses s)
  | interruptMessage => exact hkept (execInterruptMessage_fuses s)
  | nop core body => exact hkept (execNop_fuses core body s)
  | loop core body => exact hkept (execLoop_fuses core body s)
  | endf core body => exact hkept (execEndf_fuses core body s)
  | endfRetire core => exact hkept (execEndfRetire_fuses core s)
  | slot core body => exact hkept (execSlot_fuses core body s)
  | wait core body => exact hkept (execWait_fuses core body s)
  | waitComplete core => exact hkept (execWaitComplete_fuses core s)
  | scalarRegisterForm core body => exact hkept (execScalarRegisterForm_fuses core body s)
  | scalarImmediateForm core body => exact hkept (execScalarImmediateForm_fuses core body s)
  | rdtb core body => exact hkept (execRdtb_fuses core body s)
  | rdfi core body => exact hkept (execRdfi_fuses core body s)
  | rdcyc core body => exact hkept (execRdcyc_fuses core body s)
  | rdid core body => exact hkept (execRdid_fuses core body s)
  | rdst core body => exact hkept (execRdst_fuses core body s)
  | clrst core body => exact hkept (execClrst_fuses core body s)
  | rdctr core body => exact hkept (execRdctr_fuses core body s)
  | twload core body => exact hkept (execTwload_fuses core body s)
  | tmac core body => exact hkept (execTmac_fuses core body s)
  | tdrain core body => exact hkept (execTdrain_fuses core body s)
  | vectorFp32 core body => exact hkept (execVectorFp32_fuses core body s)
  | vectorBf16 core body => exact hkept (execVectorBf16_fuses core body s)
  | vectorInt32 core body => exact hkept (execVectorInt32_fuses core body s)
  | vectorFp32Functions core body => exact hkept (execVectorFp32Functions_fuses core body s)
  | vred core body => exact hkept (execVred_fuses core body s)
  | vcvt core body => exact hkept (execVcvt_fuses core body s)
  | vld core body => exact hkept (execVld_fuses core body s)
  | vst core body => exact hkept (execVst_fuses core body s)
  | getl core body => exact hkept (execGetl_fuses core body s)
  | putl core body => exact hkept (execPutl_fuses core body s)
  | rowcp core body => exact hkept (execRowcp_fuses core body s)
  | rget core body => exact hkept (remote_fuses _ _ _ _ s)
  | rput core body => exact hkept (remote_fuses _ _ _ _ s)
  | send core body => exact hkept (sendRows_fuses _ _ _ _ s)
  | mcrow core body => exact hkept (sendRows_fuses _ _ _ _ s)
  | mccol core body => exact hkept (sendRows_fuses _ _ _ _ s)
  | redsend core body => exact hkept (execRedsend_fuses core body s)
  | sig core body => exact hkept (execSig_fuses core body s)
  | cycleLimitOverrun core => exact hkept (execCycleLimitOverrun_fuses core s)
  | remoteRequestArrival pkt cycle => exact hkept (execRemoteRequestArrival_fuses pkt cycle s)
  | replyArrival pkt cycle => exact hkept (execReplyArrival_fuses pkt cycle s)
  | fabricPacketArrival pkt cycle headerOk payloadOk lane => exact hkept (execFabricPacketArrival_fuses pkt cycle headerOk payloadOk lane s)
  | rowDelivery pkt cycle => exact hkept (execRowDelivery_fuses pkt cycle s)
  | externalWriteLand memory cycle => exact hkept (execExternalWriteLand_fuses memory cycle s)
  | reduceInputArrival pkt => exact hkept (execReduceInputArrival_fuses pkt s)
  | tc0WindowStart => exact hkept (execTc0WindowStart_fuses s)
  | arbiterWindowStart arbiter => exact hkept (execArbiterWindowStart_fuses arbiter s)
  | dmaLaunch pkt => exact hkept (execDmaLaunch_fuses pkt s)
  | dmaTransferStart io channel => exact hkept (execDmaTransferStart_fuses io channel s)
  | dmaTransferComplete io channel => exact hkept (execDmaTransferComplete_fuses io channel s)
  | hostPieceStart tag => exact hkept (execHostPieceStart_fuses tag s)
  | hostPieceComplete tag piece => exact hkept (execHostPieceComplete_fuses tag piece s)
  | scrubRow memory row outcome word => exact hkept (execScrubRow_fuses memory row outcome word s)
  | frameTick => exact hkept (execFrameTick_fuses s)
  | stepInputsDone => exact hkept (execStepInputsDone_fuses s)
  | stepOutputsDone => exact hkept (execStepOutputsDone_fuses s)
  | congestionMapAssemble => exact hkept (execCongestionMapAssemble_fuses s)
  | portTraining port goodLanes roundTripNs => exact hkept (execPortTraining_fuses port goodLanes roundTripNs s)
  | portRetryTimer port => exact hkept (execPortRetryTimer_fuses port s)
  | peerVerification port reply => exact hkept (execPeerVerification_fuses port reply s)
  | identityRequest port challenge => exact hkept (execIdentityRequest_fuses port challenge s)
  | linkFlitReceive port ctl payload codewordOk worstLane => exact hkept (execLinkFlitReceive_fuses port ctl payload codewordOk worstLane s)
  | laneRetire port lane => exact hkept (execLaneRetire_fuses port lane s)
  | portSignalLoss port => exact hkept (execPortSignalLoss_fuses port s)
  | tc3Ingress io => exact hkept (execTc3Ingress_fuses io s)
  | outboundTransferComplete io route xferId => exact hkept (execOutboundTransferComplete_fuses io route xferId s)
  | tc3TransferTimeout srcSlot xferId => exact hkept (execTc3TransferTimeout_fuses srcSlot xferId s)
  | tc3RowWrite => exact hkept (execTc3RowWrite_fuses s)
  | groupMessageReceive msg => exact hkept (execGroupMessageReceive_fuses msg s)
  | timeBeacon stamp roundTrip received => exact hkept (execTimeBeacon_fuses stamp roundTrip received s)
  | workerJoin => exact hkept (execWorkerJoin_fuses s)
  | managerLost => exact hkept (execManagerLost_fuses s)
  | workerSilent slot => exact hkept (execWorkerSilent_fuses slot s)
  | healthGather => exact hkept (execHealthGather_fuses s)
  | hostLinkTraining goodLanes => exact hkept (execHostLinkTraining_fuses goodLanes s)
  | hostLinkDown => exact hkept (execHostLinkDown_fuses s)
  | referenceLost => exact hkept (execReferenceLost_fuses s)
  | referenceHoldoverExpire => exact hkept (execReferenceHoldoverExpire_fuses s)
  | referenceReturned => exact hkept (execReferenceReturned_fuses s)
  | clockParentSwitch die => exact hkept (execClockParentSwitch_fuses die s)
  | timingBeacon die beacon seps => exact hkept (execTimingBeacon_fuses die beacon seps s)
  | droopEvent cluster droop failed => exact hkept (execDroopEvent_fuses cluster droop failed s)
  | phaseLost cluster phase => exact hkept (execPhaseLost_fuses cluster phase s)
  | deratedExpiry site => exact hkept (execDeratedExpiry_fuses site s)
  | pmbusPoll readings => exact hkept (execPmbusPoll_fuses readings s)
  | powerSecond => exact hkept (execPowerSecond_fuses s)
  | zoneCurrentWarning zone => exact hkept (execZoneCurrentWarning_fuses zone s)
  | energyMinute => exact hkept (execEnergyMinute_fuses s)
  | sensorSample pair primary secondary => exact hkept (execSensorSample_fuses pair primary secondary s)
  | hbmTemperatureRead stack reading errors => exact hkept (execHbmTemperatureRead_fuses stack reading errors s)
  | flowPulse => exact hkept (execFlowPulse_fuses s)
  | thermalDemandUpdate => exact hkept (execThermalDemandUpdate_fuses s)
  | thermalSecond => exact hkept (execThermalSecond_fuses s)
  | coolantLossDetect condition => exact hkept (execCoolantLossDetect_fuses condition s)
  | hardLimit unit reading => exact hkept (execHardLimit_fuses unit reading s)
  | pwrOkRise straps => exact hkept (execPwrOkRise_fuses straps s)
  | pwrOkFall => exact hkept (execPwrOkFall_fuses s)
  | panelResetN lowNs released straps => exact hkept (execPanelResetN_fuses lowNs released straps s)
  | auxFall => exact hkept (execAuxFall_fuses s)
  | recoveryBoot => exact hkept (execRecoveryBoot_fuses s)
  | firmwareBlockReceive site block digest => exact hkept (execFirmwareBlockReceive_fuses site block digest s)
  | dataPathMark unit code reporter => exact hkept (execDataPathMark_fuses unit code reporter s)
  | unitReprobe unit found => exact hkept (execUnitReprobe_fuses unit found s)
  | ledgerWrite unit action source detail => exact hkept (execLedgerWrite_fuses unit action source detail s)
  | engineSidebandAccess engine target offset length isWrite data =>
    exact hkept (execEngineSidebandAccess_fuses engine target offset length isWrite data s)
  | auxRise => exact hkept (execAuxRise_fuses s)
  | debugPortAccess op address data => exact hkept (execDebugPortAccess_fuses op address data s)
  | identityReplyTimeout port => exact hkept (execIdentityReplyTimeout_fuses port s)

theorem step_advances (s t : State) (h : step s = .next t) : FusesAdvance s t := by
  cases hp : s.pending with
  | nil =>
    rw [step_nil hp] at h
    cases h
    exact .of_eq (idle_fuses s)
  | cons c rest =>
    rw [step_cons hp] at h
    exact .of_same (r := { s with pending := rest }) rfl rfl (exec_advances c _ t h)

/-- Settles O5: every command but the end of a stage keeps the fuses, and stage 0x36 alone makes the panel READY, where R508 advances them. -/
theorem stepKeepsFuses : Obligations.StepKeepsFuses := step_advances

end Sys2Proof.Machine
end

section
/-! PROOF. What recording functions write: the units' records, the flash's ledger, the log, and the running step's faults. All else is left alone. -/

namespace Sys2Proof.Machine

/-- `t` differs from `s` in the units, the flash and the log alone. -/
def RecordsOnly (s t : State) : Prop := ∃ u f l, t = { s with units := u, flash := f, log := l }

namespace RecordsOnly

variable {s t u : State}

theorem write (s : State) (u : Units) (f : Flash) (l : Log) : RecordsOnly s { s with units := u, flash := f, log := l } := ⟨u, f, l, rfl⟩

theorem refl (s : State) : RecordsOnly s s := write s _ _ _

theorem trans (h : RecordsOnly s t) (h' : RecordsOnly t u) : RecordsOnly s u := by
  obtain ⟨_, _, _, rfl⟩ := h
  obtain ⟨_, _, _, rfl⟩ := h'
  exact write s _ _ _

theorem mem (h : RecordsOnly s t) : t.mem = s.mem := by obtain ⟨_, _, _, rfl⟩ := h; rfl
theorem clock (h : RecordsOnly s t) : t.clock = s.clock := by obtain ⟨_, _, _, rfl⟩ := h; rfl
theorem settings (h : RecordsOnly s t) : t.settings = s.settings := by obtain ⟨_, _, _, rfl⟩ := h; rfl
theorem straps (h : RecordsOnly s t) : t.straps = s.straps := by obtain ⟨_, _, _, rfl⟩ := h; rfl
theorem aliases (h : RecordsOnly s t) : t.aliases = s.aliases := by obtain ⟨_, _, _, rfl⟩ := h; rfl
theorem step (h : RecordsOnly s t) : t.step = s.step := by obtain ⟨_, _, _, rfl⟩ := h; rfl
theorem clusters (h : RecordsOnly s t) : t.clusters = s.clusters := by obtain ⟨_, _, _, rfl⟩ := h; rfl
theorem group (h : RecordsOnly s t) : t.group = s.group := by obtain ⟨_, _, _, rfl⟩ := h; rfl

end RecordsOnly

/-! ### Functions of Machine/Records.lean -/

theorem State.event_recordsOnly (s : State) (code detail : Nat) (fault : Bool) : RecordsOnly s (s.event code detail fault) := by
  unfold State.event
  split <;> exact .write s _ _ _

@[simp] theorem State.event_units (s : State) (code detail : Nat) (fault : Bool) : (s.event code detail fault).units = s.units := by
  unfold State.event
  split <;> rfl

theorem State.addError_recordsOnly (s : State) (e : ErrIn) : RecordsOnly s (s.addError e) := by
  unfold State.addError
  dsimp only
  split
  · exact .write s _ _ _
  · exact .trans (.trans (.write s _ _ _) (State.event_recordsOnly _ _ _ _)) (.write _ _ _ _)

/-- Of the units, an error record writes the log of errors alone, and its number is the next. -/
theorem State.addError_units (s : State) (e : ErrIn) :
    (s.addError e).units = { s.units with
      errors := (s.addError e).units.errors, seq := s.units.seq + 1, dropped := (s.addError e).units.dropped, raised := (s.addError e).units.raised } := by
  unfold State.addError
  dsimp only
  split
  · rfl
  · simp only [State.event_units]

@[simp] theorem State.addError_mem (s : State) (e : ErrIn) : (s.addError e).mem = s.mem := (s.addError_recordsOnly e).mem
@[simp] theorem State.addError_clock (s : State) (e : ErrIn) : (s.addError e).clock = s.clock := (s.addError_recordsOnly e).clock
@[simp] theorem State.addError_step (s : State) (e : ErrIn) : (s.addError e).step = s.step := (s.addError_recordsOnly e).step
@[simp] theorem State.addError_clusters (s : State) (e : ErrIn) : (s.addError e).clusters = s.clusters := (s.addError_recordsOnly e).clusters
@[simp] theorem State.addError_group (s : State) (e : ErrIn) : (s.addError e).group = s.group := (s.addError_recordsOnly e).group
@[simp] theorem State.addError_seq (s : State) (e : ErrIn) : (s.addError e).units.seq = s.units.seq + 1 := by rw [s.addError_units]

theorem State.addLedger_recordsOnly (s : State) (unit action source detail : Nat) : RecordsOnly s (s.addLedger unit action source detail) := by
  unfold State.addLedger
  dsimp only
  split
  · exact .refl s
  · split
    · exact s.addError_recordsOnly _
    · exact .write s _ _ _

theorem State.countEvent_recordsOnly (s : State) (e : ErrIn) (failsStep : Bool) : RecordsOnly s (s.countEvent e failsStep) := by
  unfold State.countEvent
  dsimp only [State.storeCount]
  split
  · split
    · exact .trans (.trans (.write s _ _ _) (State.addError_recordsOnly _ _)) (State.addLedger_recordsOnly _ _ _ _ _)
    · exact .trans (.write s _ _ _) (State.addError_recordsOnly _ _)
  · split
    · exact .trans (.write s _ _ _) (State.addError_recordsOnly _ _)
    · exact .write s _ _ _

/-- A failure joins those of the running step. -/
theorem State.failStep_running {s : State} (h : s.isRunning = true) (frame status core detail : Nat) :
    s.failStep frame status core detail = { s with step := { s.step with
      faults := s.step.faults ++ [{ frame := frame, status := status, core := core, detail := detail }] } } := by
  unfold State.failStep
  rw [if_pos h]

/-- With no step running there is nothing to fail. -/
theorem State.failStep_idle {s : State} (h : s.isRunning = false) (frame status core detail : Nat) :
    s.failStep frame status core detail = s := by
  unfold State.failStep
  rw [if_neg (by simp [h])]

end Sys2Proof.Machine
end

section
/-! PROOF. Transfers between panels: how rows cross this panel, how they land, time out and are sent again (06 R40; 08 R318 to R327; 09 R356). -/

namespace Sys2Proof.Machine

/-! ### One packet enters the fabric -/

/-- A packet as it enters the fabric under a number, but for one that is at its site already. -/
def Packet.entered (p : Packet) (n : Nat) : Packet := { p with uid := n, fromPort := 0, gone := 0, isLocal := false, wait := [] }

/-- A packet of a type other than 7 enters with its own header. -/
theorem State.inject_one (s : State) {p : Packet} (h : p.typ ≠ 7) :
    (s.inject [p]).fabric.packets = s.fabric.packets ++ [p.entered s.fabric.nextUid] := by
  simp [State.entering, h, Packet.entered]

/-! ### Crossing the panel (R318, R320) -/

/-- Where a TC3 packet enters the panel: at an I/O die, or at the hub as number 12. -/
def tc3Entry (io : Nat) : Nat := if io = 12 then hubPlace else ioPlace io

/-- A packet that sets out leaves its entry for its sink; of the rest of the state only the ports' receive buffers change. -/
theorem State.cross_sets_out (s : State) (io : Nat) (p : Packet) (to_ vc : Nat) {first : Packet} {rest : List Packet}
    (h : (s.ioDie io).tc3In = first :: rest) :
    ∃ q, (s.cross io p to_ vc).fabric.packets = s.fabric.packets ++ [q] ∧ q.typ = 0xB ∧ q.cls = 3 ∧ q.place = tc3Entry io ∧ q.to_ = to_ ∧
      q.vc = vc ∧ q.payload = p.payload ∧ ((s.cross io p to_ vc).ioDie io).tc3In = rest ∧ (s.cross io p to_ vc).mem = s.mem ∧
      (s.cross io p to_ vc).cores = s.cores := by
  unfold State.cross
  extract_lets here s1 s2
  have hs2 : ∃ ps, s2 = { s1 with ports := ps } := by
    unfold s2
    split
    · exact ⟨_, rfl⟩
    · exact ⟨_, rfl⟩
  obtain ⟨ps, hps⟩ := hs2
  have hio : (s2.ioDie io).tc3In = rest := by
    have h1 : s1.ioDie io = { s.ioDie io with tc3In := (s.ioDie io).tc3In.tail } := (s.ioDie_setIoDie io _ io).trans (if_pos rfl)
    rw [hps]
    show (s1.ioDie io).tc3In = rest
    rw [h1, h]
    rfl
  have hfabric : s2.fabric = s.fabric := by rw [hps]; rfl
  have hmem : s2.mem = s.mem := by rw [hps]; rfl
  have hcores : s2.cores = s.cores := by rw [hps]; rfl
  have hpackets := s2.inject_one (p := { p with
    typ := 0xB, cls := 3, planned := false, plane := 0, place := here, ends := some (here, to_), vc := vc }) (by simp)
  rw [hfabric] at hpackets
  exact ⟨_, hpackets, rfl, rfl, rfl, rfl, rfl, rfl, hio, hmem, hcores⟩

section
variable {io : Nat} {s : State} {p : Packet} {rest : List Packet}

/-- What an entry that nothing holds does with its first packet. The model's branches are gone through by `split`: by `dsimp` the kernel would count down the
0x1000 in a panel's endpoint code. -/
theorem tc3Ingress_open (hio : io < 13) (hin : (s.ioDie io).tc3In = p :: rest) (ha : s.thermal.active = false) (hc : s.crumbHeld = false)
    (hu : io = 12 ∨ s.ioUsable io = true) :
    (s.dirTo (p.dst - 0x1000) = none → execTc3Ingress io s = .next (s.cross io p hubPlace 0)) ∧
    (∀ dir e, s.dirTo (p.dst - 0x1000) = some dir → s.enginesToward dir = [e] →
      (s.ioUsable (engineIo e) = false → execTc3Ingress io s = .next s) ∧
      (s.ioUsable (engineIo e) = true → ∀ vc, vc = 6 + s.dateline (p.src - 0x1000) dir →
        (s.txFlits (engineIo e) vc + p.flits ≤ 512 → execTc3Ingress io s = .next (s.cross io p (ioPlace (engineIo e)) vc)) ∧
        (512 < s.txFlits (engineIo e) vc + p.flits → execTc3Ingress io s = .next s))) := by
  have hopen : ¬(s.thermal.active = true ∨ s.crumbHeld = true ∨ (io < 12 ∧ (!s.ioUsable io) = true)) := by
    obtain rfl | hu := hu
    · simp [ha, hc]
    · simp [ha, hc, hu]
  unfold execTc3Ingress
  rw [if_neg (by omega)]
  split
  next h => simp [hin] at h
  next q qs h =>
    rw [if_neg hopen]
    obtain ⟨rfl, rfl⟩ := List.cons.inj (hin.symm.trans h)
    generalize s.dirTo (p.dst - 0x1000) = way
    cases way with
    | none => exact ⟨fun _ => rfl, by simp⟩
    | some dir =>
      refine ⟨(by simp), fun dir' e hdir he => ?_⟩
      obtain rfl : dir = dir' := Option.some.inj hdir
      dsimp only
      rw [he]
      refine ⟨fun hue => ?_, fun hue vc hvc => ?_⟩
      · simp [hue]
      · have hfilter : [e].filter (fun e => s.ioUsable (engineIo e)) = [e] := by simp [hue]
        rw [hfilter, hvc]
        exact ⟨fun hroom => if_neg (Nat.not_lt.2 hroom), fun hfull => if_pos hfull⟩

end

/-! ### Rows at the destination hub (R324, R326, R327) -/

/-- The transfers of a sender as the hub has them once the first packet that it holds has joined its own: `x` is that transfer. -/
def State.heldTc3 (s : State) (key : Nat) (rest : List Packet) (x : Tc3Rx) : State :=
  { s with group := { s.group with hubRx := rest, tc3Rx := tset none s.group.tc3Rx key (some x) } }

/-- The transfer that a packet belongs to: the one under its number, or a new one. -/
def State.tc3Of (s : State) (p : Packet) : Tc3Rx :=
  (tget none s.group.tc3Rx (xferKey (p.src - 0x1000) p.xferId)).getD { count := p.xferCount, got := 0, firstTick := s.clock.tickCount, rows := [] }

/-- A transfer with one more packet. -/
def Tc3Rx.add (x : Tc3Rx) (p : Packet) : Tc3Rx :=
  { x with got := x.got + 1, hasLast := x.hasLast || p.last, rows := if p.payload = [] then x.rows else x.rows ++ [(p.addr, p.payload, p.poison)] }

theorem not_passed_self (n : Nat) : passed n n = false := by
  simp [passed]

/-- No transfer completes while the next of its sender is not there or may not complete. -/
theorem State.completeTc3_waits {s : State} {slot : Nat} (n : Nat)
    (h : ∀ x, tget none s.group.tc3Rx (xferKey slot (tget 0 s.group.rxNext slot)) = some x → (x.whole && s.rowsUsable slot x) = false) :
    State.completeTc3 slot n s = s := by
  cases n with
  | zero => rfl
  | succ n =>
    unfold State.completeTc3
    dsimp only
    split
    next x hx => rw [if_neg (by simp [h x hx])]
    next => rfl

/-- The next transfer of a sender, once it may complete, completes, and then those after it. -/
theorem State.completeTc3_completes {s : State} {slot : Nat} {x : Tc3Rx} (n : Nat)
    (hx : tget none s.group.tc3Rx (xferKey slot (tget 0 s.group.rxNext slot)) = some x) (hwhole : x.whole = true) (hu : s.rowsUsable slot x = true) :
    State.completeTc3 slot (n + 1) s = State.completeTc3 slot n (s.finishTc3 slot (tget 0 s.group.rxNext slot) x) := by
  rw [State.completeTc3, hx]
  dsimp only
  rw [if_pos (by simp [hwhole, hu])]

/-- `t` has the group, settings, aliases and grid class of `s`, so that the same rows are let in and go to the same places. -/
structure SamePlaces (s t : State) : Prop where
  group : t.group = s.group
  settings : t.settings = s.settings
  straps : t.straps = s.straps
  aliases : t.aliases = s.aliases
  grid : t.units.gridClass = s.units.gridClass

namespace SamePlaces

variable {s t u : State}

theorem refl (s : State) : SamePlaces s s := ⟨rfl, rfl, rfl, rfl, rfl⟩

theorem trans (h : SamePlaces s t) (h' : SamePlaces t u) : SamePlaces s u :=
  ⟨h'.group.trans h.group, h'.settings.trans h.settings, h'.straps.trans h.straps, h'.aliases.trans h.aliases, h'.grid.trans h.grid⟩

theorem windowCovers (h : SamePlaces s t) (slot a : Nat) : t.windowCovers slot a = s.windowCovers slot a := by
  rw [State.windowCovers, h.group]
  rfl

theorem cellAddr (h : SamePlaces s t) (g : Target) : t.cellAddr g = s.cellAddr g := by
  cases g with
  | hbm a => rw [State.cellAddr, State.resolveHbm, h.aliases]; rfl
  | _ => rfl

theorem groupSlot (h : SamePlaces s t) : t.groupSlot = s.groupSlot := by
  rw [State.groupSlot, State.setting, h.settings, h.straps]
  rfl

end SamePlaces

theorem State.landTc3_samePlaces (s : State) (slot : Nat) (r : Nat × List Byte × Bool) : SamePlaces s (s.landTc3 slot r) := by
  unfold State.landTc3
  split
  · exact ⟨rfl, rfl, rfl, rfl, rfl⟩
  · have h := s.addError_recordsOnly { unit := hubUnit, code := 0x505, cls := 2 }
    exact ⟨h.group, h.settings, h.straps, h.aliases, by rw [s.addError_units]⟩

/-- Memory with a row written, where the window lets it in. -/
def State.tc3RowIn (s : State) (slot : Nat) (m : List Host.Cell) (r : Nat × List Byte × Bool) : List Host.Cell :=
  if s.windowCovers slot r.1 then writeBytes m (s.cellAddr (panelTarget s.units.gridClass r.1)) (fitBytes 512 r.2.1) else m

theorem State.landTc3_mem (s : State) (slot : Nat) (r : Nat × List Byte × Bool) : (s.landTc3 slot r).mem = s.tc3RowIn slot s.mem r := by
  unfold State.landTc3 State.tc3RowIn
  split
  · rfl
  · exact State.addError_mem _ _

/-- Rows that land one after another land where they would each have landed at first. -/
theorem landRows (rows : List (Nat × List Byte × Bool)) (slot : Nat) (s : State) :
    SamePlaces s (forEach rows (fun r s => s.landTc3 slot r) s) ∧
      (forEach rows (fun r s => s.landTc3 slot r) s).mem = rows.foldl (s.tc3RowIn slot) s.mem := by
  induction rows generalizing s with
  | nil => exact ⟨.refl s, rfl⟩
  | cons r rows ih =>
    obtain ⟨hplaces, hmem⟩ := ih (s.landTc3 slot r)
    have hr := s.landTc3_samePlaces slot r
    have hrow : (s.landTc3 slot r).tc3RowIn slot = s.tc3RowIn slot := by
      funext m x
      rw [State.tc3RowIn, hr.windowCovers, hr.cellAddr, hr.grid]
      rfl
    refine ⟨hr.trans hplaces, ?_⟩
    rw [forEach_cons, hmem, hrow, s.landTc3_mem]
    rfl

/-- Rows that the window lets in are all written. -/
theorem State.landRows_inside (s : State) (slot : Nat) (rows : List (Nat × List Byte × Bool)) (m : List Host.Cell)
    (h : rows.all (fun r => s.windowCovers slot r.1) = true) :
    rows.foldl (s.tc3RowIn slot) m =
      rows.foldl (fun m r => writeBytes m (s.cellAddr (panelTarget s.units.gridClass r.1)) (fitBytes 512 r.2.1)) m := by
  refine List.foldl_ext _ _ m fun m r hr => ?_
  exact if_pos (List.all_eq_true.1 h r hr)

/-- Rows that it does not let in write nothing. -/
theorem State.landRows_outside (s : State) (slot : Nat) (rows : List (Nat × List Byte × Bool)) (m : List Host.Cell)
    (h : rows.any (fun r => s.windowCovers slot r.1) = false) : rows.foldl (s.tc3RowIn slot) m = m := by
  have hrow : rows.foldl (s.tc3RowIn slot) m = rows.foldl (fun m _ => m) m :=
    List.foldl_ext _ _ m fun m r hr => if_neg (List.any_eq_false.1 h r hr)
  rw [hrow]
  exact List.foldl_fixed rows

/-- A transfer that completes is closed, its number passes, its sender is told, and its rows have landed. -/
theorem State.finishTc3_completes (s : State) (slot id : Nat) (x : Tc3Rx) :
    (s.finishTc3 slot id x).group.hubRx = s.group.hubRx ∧
      (s.finishTc3 slot id x).group.tc3Rx = terase (xferKey slot id) s.group.tc3Rx ∧
      (s.finishTc3 slot id x).group.rxNext = tset 0 s.group.rxNext slot ((id + 1) % 65536) ∧
      (s.finishTc3 slot id x).group.sent =
        s.group.sent ++ [.copyAck s.groupSlot slot id (x.rows.all (fun r => s.windowCovers slot r.1))] ∧
      (s.finishTc3 slot id x).mem = x.rows.foldl (s.tc3RowIn slot) s.mem := by
  obtain ⟨hplaces, hmem⟩ := landRows x.rows slot s
  unfold State.finishTc3
  extract_lets inside s1 src s2
  have hgroup : s1.group = s.group := hplaces.group
  refine ⟨?_, ?_, ?_, ?_, hmem⟩
  · show s1.group.hubRx = s.group.hubRx
    rw [hgroup]
  · show terase (xferKey slot id) s1.group.tc3Rx = _
    rw [hgroup]
  · show tset 0 s1.group.rxNext slot ((id + 1) % 65536) = _
    rw [hgroup]
  · show s1.group.sent ++ [.copyAck s.groupSlot slot id inside] = _
    rw [hgroup]

/-! ### TC3_ROW_WRITE -/

section
variable {s : State} {p : Packet} {rest : List Packet}

/-- A packet joins its transfer unless it belongs to none that it could, or there is no room; then the transfers of its sender that may complete do. -/
theorem tc3RowWrite_joins (hrx : s.group.hubRx = p :: rest) (ha : s.thermal.active = false) (hcount : p.xferCount = (s.tc3Of p).count)
    (hgot : (s.tc3Of p).got < (s.tc3Of p).count) (hmax : p.xferCount ≤ 64)
    (hroom : (tget none s.group.tc3Rx (xferKey (p.src - 0x1000) p.xferId)).isSome = true ∨ s.group.tc3Rx.length < 1024)
    (hnext : passed (tget 0 s.group.rxNext (p.src - 0x1000)) p.xferId = false) :
    let u := s.heldTc3 (xferKey (p.src - 0x1000) p.xferId) rest ((s.tc3Of p).add p)
    execTc3RowWrite s = .next (State.completeTc3 (p.src - 0x1000) u.group.tc3Rx.length u) := by
  unfold execTc3RowWrite
  split
  next h => simp [hrx] at h
  next q qs h =>
    obtain ⟨rfl, rfl⟩ := List.cons.inj (hrx.symm.trans h)
    extract_lets slot key s0 old x x1
    rw [if_neg (by simp [ha])]
    refine if_neg ?_
    rintro (h | h | h | h | ⟨h1, h2⟩)
    · exact absurd h (by rw [hnext]; exact Bool.false_ne_true)
    · exact h hcount
    · exact absurd hgot (Nat.not_lt.2 h)
    · exact absurd hmax (Nat.not_le.2 h)
    · obtain hs | hs := hroom
      · rw [Option.isNone_iff_eq_none] at h1
        rw [show tget none s.group.tc3Rx _ = none from h1] at hs
        exact absurd hs (by simp)
      · exact absurd hs (Nat.not_lt.2 h2)

/-- A packet of a number that has passed, or of a transfer too long, is refused. -/
theorem tc3RowWrite_refuses (hrx : s.group.hubRx = p :: rest) (ha : s.thermal.active = false)
    (hbad : passed (tget 0 s.group.rxNext (p.src - 0x1000)) p.xferId = true ∨ 64 < p.xferCount) :
    execTc3RowWrite s = .next (State.refuseTc3 { s with group := { s.group with hubRx := rest } } p) := by
  unfold execTc3RowWrite
  split
  next h => simp [hrx] at h
  next q qs h =>
    obtain ⟨rfl, rfl⟩ := List.cons.inj (hrx.symm.trans h)
    extract_lets slot key s0 old x x1
    rw [if_neg (by simp [ha])]
    exact if_pos (hbad.elim .inl fun h => .inr (.inr (.inr (.inl h))))

end

/-- A refused packet is recorded, and fails a running step. -/
theorem State.refuseTc3_records (s : State) (p : Packet) :
    (s.refuseTc3 p).group = s.group ∧ (s.refuseTc3 p).mem = s.mem ∧ (s.refuseTc3 p).units.seq = s.units.seq + 1 ∧
      (s.isRunning = true → (s.refuseTc3 p).step.faults ≠ []) := by
  unfold State.refuseTc3
  extract_lets s1
  have hgroup : s1.group = s.group := s.addError_group _
  have hmem : s1.mem = s.mem := s.addError_mem _
  have hseq : s1.units.seq = s.units.seq + 1 := s.addError_seq _
  have hstep : s1.step = s.step := s.addError_step _
  split
  next hrun =>
    rw [State.failStep_running (by rw [State.isRunning, hstep]; exact hrun)]
    exact ⟨hgroup, hmem, hseq, fun _ => by simp⟩
  next hrun => exact ⟨hgroup, hmem, hseq, fun h => absurd h hrun⟩

end Sys2Proof.Machine
end

section
/-! PROOF. Transfers between panels that land, time out and are sent again (08 R324, R326; 09 R356). -/

namespace Sys2Proof.Machine

/-! ### A transfer that its packet makes whole -/

/-- A table that has been given an entry is not empty. -/
theorem tset_length {α : Type} [DecidableEq α] {d v : α} (hv : v ≠ d) (t : Tab α) (k : Nat) : ∃ n, (tset d t k v).length = n + 1 := by
  rw [tset, if_neg hv]
  cases t with
  | nil => exact ⟨0, rfl⟩
  | cons e t =>
    unfold tinsert
    split
    · exact ⟨_, rfl⟩
    · split
      · exact ⟨_, rfl⟩
      · exact ⟨_, rfl⟩

section
variable {s : State} {slot id : Nat} {rest : List Packet} {x : Tc3Rx}

theorem State.heldTc3_same (s : State) (key : Nat) (rest : List Packet) (x : Tc3Rx) : tget none (s.heldTc3 key rest x).group.tc3Rx key = some x :=
  tget_tset_same none s.group.tc3Rx key (some x)

theorem State.heldTc3_length (s : State) (key : Nat) (rest : List Packet) (x : Tc3Rx) : ∃ n, (s.heldTc3 key rest x).group.tc3Rx.length = n + 1 :=
  tset_length (d := none) (v := some x) (by simp) s.group.tc3Rx key

/-- The next transfer of a sender, as long as it is not whole or its stacks may not be used, is held and nothing is written. -/
theorem State.heldTc3_waits (hid : id = tget 0 s.group.rxNext slot) (h : (x.whole && s.rowsUsable slot x) = false) (n : Nat) :
    State.completeTc3 slot n (s.heldTc3 (xferKey slot id) rest x) = s.heldTc3 (xferKey slot id) rest x := by
  refine State.completeTc3_waits n fun y hy => ?_
  have hx := s.heldTc3_same (xferKey slot id) rest x
  have hy' : tget none (s.heldTc3 (xferKey slot id) rest x).group.tc3Rx (xferKey slot id) = some y := by
    rw [hid]
    rw [hid] at hy
    exact hy
  obtain rfl : x = y := Option.some.inj (hx.symm.trans hy')
  exact h

/-- Once it is whole and they may be used it completes: it is closed, the sender is told, and its rows are written where the window lets them in. -/
theorem State.heldTc3_completes (hid : id = tget 0 s.group.rxNext slot) (hwhole : x.whole = true) (hu : s.rowsUsable slot x = true)
    (hafter : tget none s.group.tc3Rx (xferKey slot ((id + 1) % 65536)) = none) (n : Nat) :
    let t := State.completeTc3 slot (n + 1) (s.heldTc3 (xferKey slot id) rest x)
    t.group.hubRx = rest ∧ tget none t.group.tc3Rx (xferKey slot id) = none ∧ tget 0 t.group.rxNext slot = (id + 1) % 65536 ∧
      t.group.sent = s.group.sent ++ [.copyAck s.groupSlot slot id (x.rows.all (fun r => s.windowCovers slot r.1))] ∧
      t.mem = x.rows.foldl (s.tc3RowIn slot) s.mem := by
  have hx : tget none (s.heldTc3 (xferKey slot id) rest x).group.tc3Rx (xferKey slot (tget 0 s.group.rxNext slot)) = some x := by
    rw [← hid]
    exact s.heldTc3_same _ rest x
  obtain ⟨hrx, htc3, hnext, hsent, hmem⟩ := (s.heldTc3 (xferKey slot id) rest x).finishTc3_completes slot id x
  have hfirst : State.completeTc3 slot (n + 1) (s.heldTc3 (xferKey slot id) rest x) =
      State.completeTc3 slot n ((s.heldTc3 (xferKey slot id) rest x).finishTc3 slot id x) := by
    rw [hid]
    rw [hid] at hx
    exact State.completeTc3_completes n hx hwhole hu
  have hlast : State.completeTc3 slot n ((s.heldTc3 (xferKey slot id) rest x).finishTc3 slot id x) =
      (s.heldTc3 (xferKey slot id) rest x).finishTc3 slot id x := by
    refine State.completeTc3_waits n fun y hy => ?_
    rw [hnext, tget_tset_same, htc3, tget_terase] at hy
    split at hy
    · cases hy
    next hne =>
      have hgone : tget none (s.heldTc3 (xferKey slot id) rest x).group.tc3Rx (xferKey slot ((id + 1) % 65536)) = none :=
        (tget_tset_ne none s.group.tc3Rx _ _ (some x) hne).trans hafter
      rw [hgone] at hy
      cases hy
  rw [hfirst, hlast]
  refine ⟨hrx, ?_, ?_, hsent, hmem⟩
  · rw [htc3, tget_terase, if_pos rfl]
  · rw [hnext, tget_tset_same]

end

/-! ### A transfer that is not whole in time (R326) -/

/-- At the destination it is dropped, and with it the numbers before it. -/
theorem tc3TransferTimeout_drops {s : State} {slot id : Nat} {x : Tc3Rx} (hslot : slot ≠ s.groupSlot)
    (hx : tget none s.group.tc3Rx (xferKey slot id) = some x) (hlate : x.firstTick + 2 ≤ s.clock.tickCount) {next : Nat}
    (hnext : next = if passed (tget 0 s.group.rxNext slot) id then tget 0 s.group.rxNext slot else (id + 1) % 65536)
    (hnone : tget none (terase (xferKey slot id) s.group.tc3Rx) (xferKey slot next) = none) :
    ∃ t, execTc3TransferTimeout slot id s = .next t ∧ t.group.tc3Rx = terase (xferKey slot id) s.group.tc3Rx ∧
      tget 0 t.group.rxNext slot = next ∧ t.mem = s.mem ∧ t.cores = s.cores := by
  unfold execTc3TransferTimeout
  rw [if_neg hslot]
  split
  next h => simp [hx] at h
  next y hy =>
    obtain rfl : x = y := Option.some.inj (hx.symm.trans hy)
    rw [if_pos hlate]
    extract_lets src s1
    have hrx : tget 0 s1.group.rxNext slot = next := by
      rw [hnext]
      show tget 0 (if passed (tget 0 s.group.rxNext slot) id = true then s.group.rxNext else tset 0 s.group.rxNext slot ((id + 1) % 65536)) slot = _
      split
      · rfl
      · exact tget_tset_same _ _ _ _
    have hwait : State.completeTc3 slot s1.group.tc3Rx.length s1 = s1 := by
      refine State.completeTc3_waits _ fun z hz => ?_
      rw [hrx] at hz
      exact absurd (hnone.symm.trans hz) (by simp)
    exact ⟨_, congrArg Host.Outcome.next hwait, rfl, hrx, rfl, rfl⟩

section
variable {s : State} {c : Copy} {cmd : Cmd} {o : OpenXfer}

/-- With one open transfer in one copy, that copy is the one that is late from the second tick on. -/
theorem State.copyLate_one (hc : s.group.copies = [c]) (ho : c.opened = [o]) :
    s.copyLate o.id = if o.sentTick + 2 ≤ s.clock.tickCount then some c else none := by
  unfold State.copyLate
  rw [hc, List.flatMap_singleton, ho]
  by_cases h : o.sentTick + 2 ≤ s.clock.tickCount
  · simp [h]
  · simp [h]

/-- A late transfer that has not been resent four times goes again under a new number, once its stacks may be used. -/
theorem State.resendCopy_again (hc : s.group.copies = [c]) (ho : c.opened = [o]) (hcmd : s.cmdOf c.tag = some cmd) (hr : o.resends < 4)
    (hu : s.unitsUsable (cmd.arg 0 8 + 512 * o.first) o.units = true) :
    let r := s.sendCopy c.slot (cmd.arg 0 8 + 512 * o.first) (cmd.arg 8 8 + 512 * o.first) o.units
    (s.resendCopy c o.id).mem = s.mem ∧
      (s.resendCopy c o.id).group.copies = [{ c with opened :=
        [{ id := r.1, first := o.first, units := o.units, resends := o.resends + 1, sentTick := s.clock.tickCount }] }] ∧
      (s.resendCopy c o.id).ioDies = r.2.ioDies := by
  intro r
  have hfind : c.opened.find? (fun x => x.id == o.id) = some o := by simp [ho]
  have hwithout : (c.without o.id).opened = [] := by simp [Copy.without, ho]
  have hcopies : r.2.group.copies = [c] := hc
  unfold State.resendCopy
  rw [hfind, hcmd]
  dsimp only
  rw [if_neg (by omega), if_neg (by simp [hu]), hwithout, List.nil_append, State.setCopy, if_neg (by simp)]
  refine ⟨rfl, ?_, rfl⟩
  show r.2.group.copies.map _ = _
  rw [hcopies, List.map_singleton, if_pos rfl]

/-- After four resends the command ends with its record. -/
theorem State.resendCopy_ends (hc : s.group.copies = [c]) (ho : c.opened = [o]) (hcmd : s.cmdOf c.tag = some cmd) (hr : 4 ≤ o.resends) :
    ∃ r, (s.resendCopy c o.id).mem = s.mem ∧ (s.resendCopy c o.id).group.copies = [] ∧
      (s.resendCopy c o.id).log.waiting = s.log.waiting ++ [r] ∧ r.status = 0x405 ∧ r.tag = c.tag := by
  have hfind : c.opened.find? (fun x => x.id == o.id) = some o := by simp [ho]
  have htag : cmd.tag = c.tag := by
    have := List.find?_some hcmd
    simpa using this
  unfold State.resendCopy
  rw [hfind, hcmd]
  dsimp only
  rw [if_pos hr, State.setCopy, if_pos (by simp)]
  extract_lets src s1
  rw [show s.cmdOf (c.without o.id).tag = some cmd from hcmd]
  refine ⟨recOf s1 cmd 0x405 0 ((c.without o.id).acked % 2 ^ 32), rfl, ?_, rfl, rfl, htag⟩
  show s.group.copies.filter _ = _
  rw [hc]
  simp [Copy.without]

end

/-! ### Outbound transfers (R324) -/

/-- A transfer that is whole and next on its route sends its increment along the far route. -/
theorem outboundTransferComplete_increments {io route id : Nat} {s : State} {x : InXfer} {r : Route} (hio : io < 12)
    (hx : tget none (s.ioDie io).ingress (xferKey route id) = some x) (hr : s.farRoute io route = some r) (hgot : x.got = x.count)
    (hlast : x.hasLast = true) (hid : id = tget 0 (s.ioDie io).ingressNext route) :
    ∃ t q, execOutboundTransferComplete io route id s = .next t ∧ t.fabric.packets = s.fabric.packets ++ [q] ∧ q.typ = 1 ∧ q.last = true ∧
      q.routeId = route ∧ q.dst = r.dst ∧ q.dcore = x.dcore ∧ q.dctr = x.dctr ∧ q.poison = x.poison ∧
      tget 0 (t.ioDie io).ingressNext route = (id + 1) % 65536 ∧ t.mem = s.mem := by
  unfold execOutboundTransferComplete
  rw [if_neg (by omega)]
  dsimp only
  rw [hx, hr]
  dsimp only
  rw [if_pos ⟨hgot, hlast, hid⟩]
  generalize hd : ({ s.ioDie io with ingress := _, ingressNext := _ } : IoDie) = d
  have hpackets := (s.setIoDie io d).inject_one (p :=
    { routeId := route, typ := 1, cls := 2, planned := true, poison := x.poison, last := true, src := r.src, dst := r.dst,
      dcore := x.dcore, dctr := x.dctr, plane := r.plane, place := ioPlace io, core := 0x30000 + io }) (by simp)
  have hnext : tget 0 ((s.setIoDie io d).ioDie io).ingressNext route = (id + 1) % 65536 := by
    rw [s.ioDie_setIoDie, if_pos rfl, ← hd]
    exact tget_tset_same _ _ _ _
  exact ⟨_, _, rfl, hpackets, rfl, rfl, rfl, rfl, rfl, rfl, rfl, hnext, rfl⟩

/-! ### The statement -/

/-- Settles O52: the crossing, the landing, the refusal, the two timeouts and the increment, each by its law above. -/
theorem crossPanelTransfers : Obligations.CrossPanelTransfers := by
  unfold Obligations.CrossPanelTransfers
  refine ⟨?crossing, ?landing, ?refusal, ?dropped, ?resent, ?outbound⟩
  case crossing =>
    intro io s p rest here hio hin ha hc hu
    obtain ⟨hhub, hegress⟩ := tc3Ingress_open hio hin ha hc hu
    refine ⟨fun hdir => ?_, fun dir e hdir he => ?_⟩
    · obtain ⟨q, hq, htyp, hcls, hplace, hto, -, hpay, hrest, hmem, hcores⟩ := s.cross_sets_out io p hubPlace 0 hin
      exact ⟨_, q, hhub hdir, hq, htyp, hcls, hplace, hto, hpay, hrest, hmem, hcores⟩
    · obtain ⟨hout, hgo⟩ := hegress dir e hdir he
      refine ⟨hout, fun hue => ?_⟩
      obtain ⟨hroom, hfull⟩ := hgo hue _ rfl
      refine ⟨fun h => ?_, hfull⟩
      obtain ⟨q, hq, htyp, hcls, hplace, hto, hvc, hpay, hrest, hmem, hcores⟩ :=
        s.cross_sets_out io p (ioPlace (engineIo e)) (6 + s.dateline (p.src - 0x1000) dir) hin
      exact ⟨_, q, hroom h, hq, htyp, hcls, hplace, hto, hvc, hpay, hrest, hmem, hcores⟩
  case landing =>
    intro s p rest slot key x x1 next after hrx ha hcount hgot hmax hroom hid
    have hpassed : passed next p.xferId = false := by rw [hid]; exact not_passed_self next
    have hexec : exec .tc3RowWrite s = .next (State.completeTc3 slot (s.heldTc3 key rest x1).group.tc3Rx.length (s.heldTc3 key rest x1)) :=
      tc3RowWrite_joins hrx ha hcount hgot hmax hroom hpassed
    obtain ⟨n, hn⟩ := s.heldTc3_length key rest x1
    refine ⟨fun hwait => ?_, fun hwhole hu hafter => ?_⟩
    · exact hexec.trans (congrArg Host.Outcome.next (State.heldTc3_waits hid hwait _))
    · rw [hn] at hexec
      obtain ⟨hrest, hclosed, hnext, hsent, hmem⟩ := State.heldTc3_completes (rest := rest) hid hwhole hu (by rw [hid]; exact hafter) n
      refine ⟨_, hexec, hrest, hclosed, hnext.trans (by rw [hid]), hsent, fun hall => ?_, fun hany => ?_⟩
      · exact hmem.trans (s.landRows_inside slot x1.rows s.mem hall)
      · exact hmem.trans (s.landRows_outside slot x1.rows s.mem hany)
  case refusal =>
    intro s p rest slot hrx ha hbad
    obtain ⟨hgroup, hmem, hseq, hfault⟩ := State.refuseTc3_records { s with group := { s.group with hubRx := rest } } p
    exact ⟨_, tc3RowWrite_refuses hrx ha hbad, hgroup, hmem, hseq, hfault⟩
  case dropped =>
    intro slot id s x hslot hx hlate rx next hnone
    exact tc3TransferTimeout_drops hslot hx hlate rfl hnone
  case resent =>
    rintro _ s c cmd o hc ho rfl hcmd
    have hexec : execTc3TransferTimeout s.groupSlot o.id s =
        if o.sentTick + 2 ≤ s.clock.tickCount then .next (s.resendCopy c o.id) else .next s := by
      unfold execTc3TransferTimeout
      rw [if_pos rfl, State.copyLate_one hc ho]
      by_cases hlate : o.sentTick + 2 ≤ s.clock.tickCount
      · rw [if_pos hlate, if_pos hlate]
      · rw [if_neg hlate, if_neg hlate]
    refine ⟨fun hearly => hexec.trans (if_neg (by omega)), fun hlate => ⟨fun hr hu => ?_, fun hr => ?_⟩⟩
    · obtain ⟨hmem, hcopies, hio⟩ := State.resendCopy_again hc ho hcmd hr hu
      exact ⟨_, hexec.trans (if_pos hlate), hmem, hcopies, hio⟩
    · obtain ⟨r, hmem, hcopies, hlog, hstatus, htag⟩ := State.resendCopy_ends hc ho hcmd hr
      exact ⟨_, r, hexec.trans (if_pos hlate), hmem, hcopies, hlog, hstatus, htag⟩
  case outbound => exact fun io route id s x r hio hx hr hgot hlast hid => outboundTransferComplete_increments hio hx hr hgot hlast hid

end Sys2Proof.Machine
end

section
/-! PROOF. What retiring a unit at once leaves of the step's failures, of the units out of service and, while the map stays, of the clusters that are dark
(01 R32; 10 R386; 14 R461). -/

namespace Sys2Proof.Machine

/-- The map in force. -/
def State.gridMap (s : State) : GridMap := { grid := s.units.gridClass, cols := s.units.mapCols, rows := s.units.mapRows }

/-- No failure of the step and no unit out of service is forgotten, and each cluster is as dark as before. -/
structure KeepsOut (s t : State) : Prop where
  faults : ∀ f ∈ s.step.faults, f ∈ t.step.faults
  atOnce : ∀ u ∈ s.units.atOnce, u ∈ t.units.atOnce
  dark : ∀ ci, (t.cluster ci).dark = (s.cluster ci).dark

namespace KeepsOut

variable {s t u : State}

theorem refl (s : State) : KeepsOut s s := ⟨fun _ h => h, fun _ h => h, fun _ => rfl⟩

theorem trans (h : KeepsOut s t) (h' : KeepsOut t u) : KeepsOut s u :=
  ⟨fun f hf => h'.faults f (h.faults f hf), fun v hv => h'.atOnce v (h.atOnce v hv), fun ci => (h'.dark ci).trans (h.dark ci)⟩

/-- A change of other parts of the state. -/
theorem of_eq (hstep : t.step = s.step) (hout : t.units.atOnce = s.units.atOnce) (hcl : t.clusters = s.clusters) : KeepsOut s t :=
  ⟨by simp [hstep], by simp [hout], fun ci => by simp [State.cluster, hcl]⟩

end KeepsOut

/-- `KeepsOut`, and the map stays in force. -/
structure KeepsMap (s t : State) : Prop extends KeepsOut s t where
  map : t.gridMap = s.gridMap

namespace KeepsMap

variable {s t u : State}

theorem refl (s : State) : KeepsMap s s := ⟨.refl s, rfl⟩

theorem trans (h : KeepsMap s t) (h' : KeepsMap t u) : KeepsMap s u := ⟨h.toKeepsOut.trans h'.toKeepsOut, h'.map.trans h.map⟩

theorem forEach {β : Type} {xs : List β} {f : β → State → State} (s : State) (h : ∀ x t, KeepsMap t (f x t)) : KeepsMap s (forEach xs f s) :=
  forEach_holds (KeepsMap s) xs f s (.refl s) fun x t ht => ht.trans (h x t)

end KeepsMap

/-! ### Sets of units -/

theorem mem_insertNat {x y : Nat} {ys : List Nat} : y ∈ insertNat x ys ↔ y = x ∨ y ∈ ys := by
  induction ys with
  | nil => simp [insertNat]
  | cons z zs ih =>
    unfold insertNat
    split
    · simp
    · split
      · next h => subst h; simp
      · simp only [List.mem_cons, ih]
        exact or_left_comm

/-- Adding units to a set keeps its members and puts the added ones in. -/
theorem mem_foldl_insertNat {y : Nat} (us m : List Nat) : y ∈ us.foldl (fun m v => insertNat v m) m ↔ y ∈ us ∨ y ∈ m := by
  induction us generalizing m with
  | nil => simp
  | cons u us ih =>
    rw [List.foldl_cons, ih, mem_insertNat, List.mem_cons]
    exact ⟨fun h => by tauto, fun h => by tauto⟩

/-! ### Functions of Machine/Records.lean and Machine/Map.lean -/

theorem State.addError_keepsMap (s : State) (e : ErrIn) : KeepsMap s (s.addError e) := by
  refine ⟨.of_eq (by simp) ?_ (by simp), ?_⟩
  · rw [s.addError_units]
  · rw [State.gridMap, s.addError_units]
    rfl

theorem State.addLedger_keepsMap (s : State) (unit action source detail : Nat) : KeepsMap s (s.addLedger unit action source detail) := by
  unfold State.addLedger
  dsimp only
  split
  · exact .refl s
  · split
    · exact s.addError_keepsMap _
    · exact ⟨.of_eq rfl rfl rfl, rfl⟩

theorem State.ledgerEntry_keepsMap (s : State) (u st source : Nat) : KeepsMap s (s.ledgerEntry u st source) := by
  unfold State.ledgerEntry
  split <;> exact s.addLedger_keepsMap _ _ _ _

theorem State.failStep_keepsMap (s : State) (frame status core detail : Nat) : KeepsMap s (s.failStep frame status core detail) := by
  cases h : s.isRunning with
  | true =>
    rw [State.failStep_running h]
    exact ⟨⟨fun f hf => List.mem_append_left _ hf, fun _ hv => hv, fun _ => rfl⟩, rfl⟩
  | false =>
    rw [State.failStep_idle h]
    exact .refl s

theorem State.failUser_keepsMap (s : State) (u : Nat) : KeepsMap s (s.failUser u) := by
  unfold State.failUser State.failWith
  split
  · split
    · exact (s.addError_keepsMap _).trans (State.failStep_keepsMap _ _ _ _ _)
    · exact .refl s
  · exact .refl s

theorem State.markAtOnce_keepsMap (s : State) (us : List Nat) (source : Nat) : KeepsMap s (s.markAtOnce us source) :=
  ⟨⟨fun _ hf => hf, fun _ hv => (mem_foldl_insertNat us _).2 (.inr hv), fun _ => rfl⟩, rfl⟩

/-- A loss between ticks that no spare repairs. -/
theorem State.spareLost_keepsMap (s : State) (u : Nat) : KeepsMap s (s.spareLost false u) := by
  unfold State.spareLost
  dsimp only
  split
  · rw [if_neg Bool.false_ne_true]
    split
    · exact .refl s
    · exact s.markAtOnce_keepsMap _ _
  · split <;> exact ⟨.of_eq rfl rfl rfl, rfl⟩

/-- A change of one cluster that leaves it as dark. -/
theorem State.modCluster_keepsMap (s : State) (ci : Nat) (f : Cluster → Cluster) (h : ∀ c, (f c).dark = c.dark) : KeepsMap s (s.modCluster ci f) := by
  refine ⟨⟨fun _ hf => hf, fun _ hv => hv, fun cj => ?_⟩, rfl⟩
  rw [State.modCluster, State.cluster_setCluster]
  split
  · next hc => rw [h, hc]
  · rfl

theorem State.dieReset_keepsMap (s : State) (u : Nat) : KeepsMap s (s.dieReset u) := by
  unfold State.dieReset
  split
  · split
    · unfold State.resetDie
      extract_lets _ _ _ _ t
      have ht : KeepsMap s t := ⟨.of_eq rfl rfl rfl, rfl⟩
      exact ht.trans (.forEach t fun ci v => v.modCluster_keepsMap ci Cluster.afterReset fun _ => rfl)
    · exact .refl s
  · exact .refl s

theorem State.discardPlan_keepsMap (s : State) : KeepsMap s s.discardPlan := by
  have h1 : KeepsMap s { s with plan := none, step := if s.isRunning then s.step else { s.step with state := .noPlan } } := by
    refine ⟨⟨fun f hf => ?_, fun _ hv => hv, fun _ => rfl⟩, rfl⟩
    show f ∈ (if s.isRunning then s.step else { s.step with state := .noPlan }).faults
    split <;> exact hf
  unfold State.discardPlan
  dsimp only
  split
  · exact h1.trans ⟨.of_eq rfl rfl rfl, rfl⟩
  · exact h1

/-! ### A change of the map -/

/-- No failure of the step and no unit out of service is forgotten; each cluster is as dark as before if the map is the same at the end. -/
structure KeepsUnlessMoved (s t : State) : Prop where
  faults : ∀ f ∈ s.step.faults, f ∈ t.step.faults
  atOnce : ∀ u ∈ s.units.atOnce, u ∈ t.units.atOnce
  dark : t.gridMap = s.gridMap → ∀ ci, (t.cluster ci).dark = (s.cluster ci).dark

theorem KeepsMap.unlessMoved {s t : State} (h : KeepsMap s t) : KeepsUnlessMoved s t := ⟨h.faults, h.atOnce, fun _ => h.dark⟩

theorem KeepsMap.andUnlessMoved {s t u : State} (h : KeepsMap s t) (h' : KeepsUnlessMoved t u) : KeepsUnlessMoved s u :=
  ⟨fun f hf => h'.faults f (h.faults f hf), fun v hv => h'.atOnce v (h.atOnce v hv),
    fun hm ci => (h'.dark (hm.trans h.map.symm) ci).trans (h.dark ci)⟩

theorem KeepsUnlessMoved.andKeepsMap {s t u : State} (h : KeepsUnlessMoved s t) (h' : KeepsMap t u) : KeepsUnlessMoved s u :=
  ⟨fun f hf => h'.faults f (h.faults f hf), fun v hv => h'.atOnce v (h.atOnce v hv),
    fun hm ci => (h'.dark ci).trans (h.dark (h'.map.symm.trans hm) ci)⟩

theorem State.noteLost_keepsMap (s : State) : KeepsMap s s.noteLost := by
  unfold State.noteLost
  refine .forEach s fun e t => ?_
  split
  · split
    · refine t.modCluster_keepsMap _ _ fun c => ?_
      split <;> rfl
    · exact .refl t
  · split
    · split
      · split
        · exact .refl t
        · exact ⟨.of_eq rfl rfl rfl, rfl⟩
      · exact .refl t
    · exact .refl t

/-- The map that is put in force is the one in force after it; nothing moves where it was in force before. -/
theorem State.applyMap_keepsUnlessMoved (s : State) (m : GridMap) : KeepsUnlessMoved s (s.applyMap m) := by
  unfold State.applyMap
  split
  · exact (KeepsMap.refl s).unlessMoved
  · next hm =>
    dsimp only
    generalize hu : ({ s.withMap m with mem := _, poison := _, clusters := _, thermal := _ } : State) = u
    have hstep : u.step = s.step := by rw [← hu]; rfl
    have hout : u.units.atOnce = s.units.atOnce := by rw [← hu]; rfl
    have hmap : u.gridMap = m := by rw [← hu]; rfl
    have hk := u.noteLost_keepsMap
    exact ⟨fun f hf => hk.faults f (hstep ▸ hf), fun v hv => hk.atOnce v (hout ▸ hv), fun h => absurd (hmap.symm.trans (hk.map.symm.trans h)) hm⟩

theorem State.newMap_keepsUnlessMoved (s : State) (m : GridMap) : KeepsUnlessMoved s (s.applyMap m).discardPlan :=
  (s.applyMap_keepsUnlessMoved m).andKeepsMap (State.discardPlan_keepsMap _)

theorem State.boot_keepsMap (s : State) (b : Boot) : KeepsMap s { s with boot := b } := ⟨.of_eq rfl rfl rfl, rfl⟩

theorem State.halt_keepsUnlessMoved (s : State) (code unit : Nat) (a : Bool) : KeepsUnlessMoved s (s.halt code unit a) :=
  (s.boot_keepsMap _).andUnlessMoved (State.newMap_keepsUnlessMoved _ _)

theorem State.haltIfCut_keepsUnlessMoved (s : State) (code unit : Nat) : KeepsUnlessMoved s (s.haltIfCut code unit) := by
  unfold State.haltIfCut
  split
  · exact (s.halt_keepsUnlessMoved code unit false).andKeepsMap (State.boot_keepsMap _ _)
  · exact (KeepsMap.refl s).unlessMoved

theorem State.settleMap_keepsUnlessMoved (s : State) (bad us : List Nat) : KeepsUnlessMoved s (s.settleMap false bad us) := by
  unfold State.settleMap
  dsimp only
  generalize hu : forEach us (fun u s => s.dieReset u) _ = u
  have hk : KeepsMap s u := by
    rw [← hu]
    exact .trans (.forEach _ fun v t => t.spareLost_keepsMap v) (.forEach _ fun v t => t.dieReset_keepsMap v)
  refine hk.andUnlessMoved ?_
  split
  · exact u.haltIfCut_keepsUnlessMoved _ _
  · split
    · exact u.newMap_keepsUnlessMoved _
    · split
      · exact u.discardPlan_keepsMap.unlessMoved
      · exact (KeepsMap.refl u).unlessMoved

theorem self_mem_withContained (u : Nat) : u ∈ withContained u := by
  unfold withContained
  split
  · simp
  · simp
  · split <;> simp
  · split <;> simp
  · simp

theorem State.retireAtOnce_keepsUnlessMoved (s : State) (u source : Nat) : KeepsUnlessMoved s (s.retireAtOnce u source) := by
  unfold State.retireAtOnce
  exact (((s.ledgerEntry_keepsMap _ _ _).trans (.forEach _ fun v t => t.failUser_keepsMap v)).trans
    (State.markAtOnce_keepsMap _ _ _)).andUnlessMoved (State.settleMap_keepsUnlessMoved _ _ _)

/-- A unit retired at once is out of service. -/
theorem State.mem_atOnce_retireAtOnce (s : State) (u source : Nat) : u ∈ (s.retireAtOnce u source).units.atOnce := by
  unfold State.retireAtOnce
  exact (State.settleMap_keepsUnlessMoved _ _ _).atOnce u ((mem_foldl_insertNat _ _).2 (.inl (self_mem_withContained u)))

end Sys2Proof.Machine
end

section
/-! PROOF. Power delivery: zones, phases, polls, seconds and minutes (12 R418 to R433). -/

namespace Sys2Proof.Machine

/-! ### Notices -/

/-- `t` differs from `s` in the units, the flash, the log and the notices given this second alone. -/
def OnlyNoticed (s t : State) : Prop := ∃ n u f l, t = { s with power := { s.power with noticed := n }, units := u, flash := f, log := l }

namespace OnlyNoticed

variable {s t u : State}

theorem refl (s : State) : OnlyNoticed s s := ⟨_, _, _, _, rfl⟩

theorem trans (h : OnlyNoticed s t) (h' : OnlyNoticed t u) : OnlyNoticed s u := by
  obtain ⟨_, _, _, _, rfl⟩ := h
  obtain ⟨_, _, _, _, rfl⟩ := h'
  exact ⟨_, _, _, _, rfl⟩

theorem of_recordsOnly (h : RecordsOnly s t) : OnlyNoticed s t := by
  obtain ⟨_, _, _, rfl⟩ := h
  exact ⟨_, _, _, _, rfl⟩

end OnlyNoticed

theorem State.envelopeNotice_onlyNoticed (s : State) (reason index : Nat) : OnlyNoticed s (s.envelopeNotice reason index) := by
  unfold State.envelopeNotice
  split
  · exact .refl s
  · exact .trans ⟨_, _, _, _, rfl⟩ (.of_recordsOnly (State.event_recordsOnly _ _ _ _))

/-- A notice given on a condition. -/
theorem State.noticeIf_onlyNoticed (s : State) (c : Prop) [Decidable c] (reason index : Nat) :
    OnlyNoticed s (if c then s.envelopeNotice reason index else s) := by
  split
  · exact s.envelopeNotice_onlyNoticed reason index
  · exact .refl s

/-! ### Zones (R431) -/

/-- A protective drop lowers one cluster's frequency point. -/
theorem State.pointOf_protectiveDrop (s : State) (ci mhz cj : Nat) (h : s.power.profile ≠ 3) :
    (s.protectiveDrop ci mhz).pointOf cj = if cj = ci then min mhz (s.pointOf ci) else s.pointOf cj := by
  have hc : (s.protectiveDrop ci mhz).cluster cj = if cj = ci
      then { (s.cluster ci).noteMhz (s.pointOf ci) with point := some (min mhz (s.pointOf ci)), protective := true } else s.cluster cj :=
    s.cluster_setCluster _ _ _
  have hp : (s.protectiveDrop ci mhz).power = s.power := rfl
  rw [State.pointOf, hp, if_neg h, hc]
  split
  · rfl
  · rw [State.pointOf, if_neg h]

@[simp] theorem State.protectiveDrop_power (s : State) (ci mhz : Nat) : (s.protectiveDrop ci mhz).power = s.power := rfl

/-- Protective drops of some clusters to f_floor lower those and no others. -/
theorem pointOf_floorDrops (cs : List Nat) (cj : Nat) (s : State) (h : s.power.profile ≠ 3) :
    (forEach cs (fun ci s => s.protectiveDrop ci (profileFloor s.power.profile)) s).pointOf cj =
      if cj ∈ cs then min (profileFloor s.power.profile) (s.pointOf cj) else s.pointOf cj := by
  induction cs generalizing s with
  | nil => simp
  | cons ci cs ih =>
    rw [forEach_cons, ih _ (by simpa using h), s.pointOf_protectiveDrop ci _ cj h, State.protectiveDrop_power]
    by_cases hi : cj = ci
    · subst hi
      simp
    · simp [hi]

/-- A zone's warning lowers each of its clusters to f_floor, and the count of polls that ends the drop begins. -/
theorem zoneCurrentWarning_drops {z : Nat} (hz : z < 16) (s : State) :
    ∃ t, execZoneCurrentWarning z s = .next t ∧ tget none t.power.zones z = some 0 ∧ t.mem = s.mem ∧
      ∀ ci, ci < 24 * gridRows s.units.gridClass → s.clusterZone ci = z → s.power.profile < 3 →
        t.pointOf ci = min (profileFloor s.power.profile) (s.pointOf ci) := by
  unfold execZoneCurrentWarning
  rw [if_neg (by omega)]
  refine ⟨_, rfl, ?_⟩
  generalize hcs : s.clusters_.filter _ = cs
  dsimp only
  generalize hu : forEach cs _ s = u
  have hpower : u.power = s.power := by
    rw [← hu]
    exact forEach_keeps State.power cs _ s fun _ _ => rfl
  have hmem : u.mem = s.mem := by
    rw [← hu]
    exact forEach_keeps State.mem cs _ s fun _ _ => rfl
  obtain ⟨n, v, f, l, ht⟩ := State.envelopeNotice_onlyNoticed
    { u with power := { u.power with zones := tset none u.power.zones z (some 0) } } 8 z
  rw [ht]
  refine ⟨tget_tset_same none u.power.zones z (some 0), hmem, fun ci hci hzone hprofile => ?_⟩
  have hin : ci ∈ cs := by
    rw [← hcs, List.mem_filter, State.clusters_, List.mem_range]
    exact ⟨hci, by simp [hzone]⟩
  have hdrop := pointOf_floorDrops cs ci s (by omega)
  rw [hu, if_pos hin] at hdrop
  exact hdrop

/-! ### Phases (R421, R422) -/

theorem State.cluster_modCluster_same (s : State) (ci : Nat) (f : Cluster → Cluster) : (s.modCluster ci f).cluster ci = f (s.cluster ci) :=
  (s.cluster_setCluster ci _ ci).trans (if_pos rfl)

/-- The first lost phase of a cluster is noted; nothing of the step changes. -/
theorem State.loseFirstPhase_notes (s : State) (ci ph : Nat) :
    ((s.loseFirstPhase ci ph).cluster ci).lost = [ph] ∧ ((s.loseFirstPhase ci ph).cluster ci).dark = (s.cluster ci).dark ∧
      (s.loseFirstPhase ci ph).step = s.step := by
  unfold State.loseFirstPhase
  extract_lets u s1 derate s2 s3
  have hs1 : s1.cluster ci = { s.cluster ci with lost := [ph] } := s.cluster_modCluster_same ci _
  have hs2 : s2.cluster ci = { (s1.cluster ci).noteMhz (s1.pointOf ci) with point := some (min (s1.highPoint ci) (s1.pointOf ci)), protective := true } :=
    s1.cluster_modCluster_same ci _
  have hs3 : RecordsOnly s2 s3 := s2.countEvent_recordsOnly _ _
  have hc : s3.cluster ci = s2.cluster ci := by rw [State.cluster, hs3.clusters]; rfl
  refine ⟨?_, ?_, hs3.step⟩
  · show (s3.cluster ci).lost = [ph]
    rw [hc, hs2, hs1]
    rfl
  · show (s3.cluster ci).dark = _
    rw [hc, hs2, hs1]
    rfl

/-- A second lost phase makes the cluster dark, as long as the map stays, fails a running step and takes the die out of service. -/
theorem State.loseSecondPhase_darkens (s : State) (ci ph : Nat) :
    ((s.loseSecondPhase ci ph).gridMap = s.gridMap → ((s.loseSecondPhase ci ph).cluster ci).dark = true) ∧
      unitId 2 (s.clusterSite ci) 0 ∈ (s.loseSecondPhase ci ph).units.atOnce ∧
      (s.isRunning = true → ∃ f ∈ (s.loseSecondPhase ci ph).step.faults, f.status = 0x409) := by
  unfold State.loseSecondPhase
  extract_lets die s1 s2 src s3
  have hs1 : (s1.cluster ci).dark = true := congrArg Cluster.dark (s.cluster_modCluster_same ci _)
  have hs2 : KeepsMap s1 s2 := s1.addError_keepsMap _
  have hs3 : KeepsMap s2 s3 := ⟨.of_eq rfl rfl rfl, rfl⟩
  have hs4 : KeepsMap s3 (s3.failStep s.step.frame 0x409 0xFFFF 0) := s3.failStep_keepsMap _ _ _ _
  generalize hu : s3.failStep s.step.frame 0x409 0xFFFF 0 = u at hs4 ⊢
  have hk : KeepsMap s1 u := (hs2.trans hs3).trans hs4
  have hret := u.retireAtOnce_keepsUnlessMoved die 4
  refine ⟨fun hmap => ?_, u.mem_atOnce_retireAtOnce die 4, fun hrun => ?_⟩
  · have hmap' : s1.gridMap = s.gridMap := rfl
    rw [hret.dark (hmap.trans (hmap'.symm.trans hk.map.symm)), hk.dark, hs1]
  · have hrun3 : s3.isRunning = true := by
      show s2.isRunning = true
      rw [State.isRunning, State.addError_step]
      exact hrun
    refine ⟨{ frame := s.step.frame, status := 0x409, core := 0xFFFF, detail := 0 }, hret.faults _ ?_, rfl⟩
    rw [← hu, State.failStep_running hrun3]
    exact List.mem_append_right _ (List.mem_singleton_self _)

/-- A phase lost in a cluster that is not dark is its first or its second. -/
theorem phaseLost_loses {s : State} {ci ph : Nat} (hci : ci < 288) (hph : ph < 8) (hin : ci < 24 * gridRows s.units.gridClass)
    (hdark : (s.cluster ci).dark = false) (hnew : (s.cluster ci).lost.contains ph = false) :
    execPhaseLost ci ph s = .next (if (s.cluster ci).lost = [] then s.loseFirstPhase ci ph else s.loseSecondPhase ci ph) := by
  unfold execPhaseLost State.losePhase
  have hin' : s.clusters_.contains ci = true := by simp [State.clusters_, hin]
  rw [if_neg (by omega)]
  dsimp only
  rw [if_neg (by simp only [hdark, hnew, hin', Bool.not_true, Bool.false_eq_true, or_self, not_false_iff]), apply_ite Host.Outcome.next]

end Sys2Proof.Machine
end

section
/-! PROOF. Polls, seconds and minutes of power delivery (12 R418 to R433). -/

namespace Sys2Proof.Machine

/-! ### DERATED dies (R423) -/

/-- A die DERATED for its time is due to be retired. -/
theorem deratedExpiry_due {site : Nat} {s : State} (hsite : site < 156) (ht : tget 0 s.units.deratedAt site ≠ 0) :
    ∃ t, execDeratedExpiry site s = .next t ∧ site ∈ t.units.expired ∧ tget 0 t.units.deratedAt site = 0 ∧ t.mem = s.mem := by
  unfold execDeratedExpiry
  rw [if_neg (by omega)]
  dsimp only
  rw [if_pos ht]
  exact ⟨_, rfl, mem_insertNat.2 (.inl rfl), tget_tset_same 0 s.units.deratedAt site 0, rfl⟩

/-! ### Polls (R418, R419) -/

/-- What the hub holds of a converter: its power, its current, and the polls in a row that it has missed. -/
def Power.reading (p : Power) (key : Nat) : Nat × Nat × Nat := (tget 0 p.power key, tget 0 p.current key, tget 0 p.missing key)

/-- A poll of the converter `key` leaves memory, the count of polls and what is held of every other converter alone. -/
structure Polled (key : Nat) (s t : State) : Prop where
  mem : t.mem = s.mem
  polls : t.power.polls = s.power.polls
  others : ∀ k ≠ key, t.power.reading k = s.power.reading k

/-- The reading that a poll of a converter leaves, of an answer `r` and the polls `n` missed before: a good answer is taken; a fault or no answer is counted. -/
def pollOutcome (r : Option (Nat × Nat × Bool)) (n : Nat) (t : Nat × Nat × Nat) : Prop :=
  match r with
  | some (p, c, false) => t = (p, c, 0)
  | _ => t.2.2 = n + 1

theorem OnlyNoticed.reading {s t : State} (h : OnlyNoticed s t) (key : Nat) : t.power.reading key = s.power.reading key := by
  obtain ⟨_, _, _, _, rfl⟩ := h
  rfl

theorem OnlyNoticed.mem {s t : State} (h : OnlyNoticed s t) : t.mem = s.mem := by
  obtain ⟨_, _, _, _, rfl⟩ := h
  rfl

theorem OnlyNoticed.polls {s t : State} (h : OnlyNoticed s t) : t.power.polls = s.power.polls := by
  obtain ⟨_, _, _, _, rfl⟩ := h
  rfl

theorem State.pollOne_polled (readings : List PmbusAnswer) (key : Nat) (s : State) :
    Polled key s (s.pollOne readings key) ∧
      pollOutcome (validAnswer readings key) (tget 0 s.power.missing key) ((s.pollOne readings key).power.reading key) := by
  unfold State.pollOne
  extract_lets p kept n took missed noted
  have hnoted : ∀ u, OnlyNoticed u (noted u) := by
    intro u
    unfold noted
    split
    · exact (u.envelopeNotice_onlyNoticed _ _).trans (.of_recordsOnly (State.addError_recordsOnly _ _))
    · exact .refl u
  have hmissed : ∀ q : Power, (missed q).polls = q.polls ∧ (∀ k ≠ key, (missed q).reading k = q.reading k) ∧ ((missed q).reading key).2.2 = n := by
    intro q
    unfold missed
    extract_lets seen
    split
    · exact ⟨rfl, fun k hk => by simp [Power.reading, hk], by simp [Power.reading]⟩
    · exact ⟨rfl, fun k hk => by simp [Power.reading, hk], by simp [Power.reading]⟩
  have hcounted : ∀ q : Power, q.polls = p.polls → (∀ k ≠ key, q.reading k = p.reading k) →
      Polled key s (noted { s with power := missed q }) ∧ ((noted { s with power := missed q }).power.reading key).2.2 = n := by
    intro q hpolls hothers
    obtain ⟨hp, ho, hn⟩ := hmissed q
    have h := hnoted { s with power := missed q }
    exact ⟨⟨h.mem, h.polls.trans (hp.trans hpolls), fun k hk => (h.reading k).trans ((ho k hk).trans (hothers k hk))⟩, by rw [h.reading]; exact hn⟩
  have htook : ∀ r k, k ≠ key → (took r).reading k = p.reading k := fun r k hk => by simp [took, Power.reading, hk]
  split
  next r hr =>
    rw [hr]
    obtain ⟨pw, cur, bad⟩ := r
    cases bad with
    | true =>
      obtain ⟨hk, hn⟩ := hcounted (took (pw, cur, true)) rfl (htook _)
      rw [if_pos rfl]
      extract_lets s1 src
      have hcleared : ∀ c, Polled key s { s1 with power := { s1.power with cleared := c } } := fun c => ⟨hk.mem, hk.polls, hk.others⟩
      split
      · exact ⟨hcleared _, hn⟩
      · exact ⟨hk, hn⟩
    | false =>
      rw [if_neg Bool.false_ne_true]
      refine ⟨⟨rfl, rfl, fun k hk => ?_⟩, ?_⟩
      · simp [took, Power.reading, hk, p]
      · simp [took, Power.reading, pollOutcome]
  next hr =>
    rw [hr]
    exact hcounted p rfl fun _ _ => rfl

/-- A zone's poll writes no more than the zone's count. -/
theorem State.pollZone_zones (z : Nat) (s : State) : ∃ t, State.pollZone z s = { s with power := { s.power with zones := t } } := by
  unfold State.pollZone
  split
  · exact ⟨_, rfl⟩
  · exact ⟨_, rfl⟩

/-- The state after each converter has been polled. -/
def State.polledAll (s : State) (readings : List PmbusAnswer) : State := forEach (s.power.intake ++ pmb1Keys) (State.pollOne readings) s

/-- A poll counts, and what it holds of the converters afterwards is what polling each has left. -/
theorem pmbusPoll_reads (readings : List PmbusAnswer) (s : State) :
    ∃ t, execPmbusPoll readings s = .next t ∧ t.power.polls = (s.polledAll readings).power.polls + 1 ∧ t.mem = (s.polledAll readings).mem ∧
      ∀ key, t.power.reading key = (s.polledAll readings).power.reading key := by
  refine ⟨_, rfl, ?_⟩
  have hz : ∀ {α : Type} (g : State → α), (∀ u t, g { u with power := { u.power with zones := t } } = g u) → ∀ v,
      g (forEach (List.range 16) State.pollZone v) = g v := by
    intro α g hg v
    refine forEach_keeps g _ _ v fun z u => ?_
    obtain ⟨t, ht⟩ := State.pollZone_zones z u
    rw [ht, hg]
  exact ⟨hz (fun u => u.power.polls) (fun _ _ => rfl) _, hz State.mem (fun _ _ => rfl) _, fun key => hz (fun u => u.power.reading key) (fun _ _ => rfl) _⟩

theorem polledAll_polls (readings : List PmbusAnswer) (s : State) :
    (s.polledAll readings).power.polls = s.power.polls ∧ (s.polledAll readings).mem = s.mem :=
  ⟨forEach_keeps (fun u => u.power.polls) _ _ s fun key u => (u.pollOne_polled readings key).1.polls,
    forEach_keeps State.mem _ _ s fun key u => (u.pollOne_polled readings key).1.mem⟩

/-- What the turn of one element brings about, and every turn keeps, holds after the whole. -/
theorem forEach_establishes {β : Type} (p : State → Prop) {x : β} {xs : List β} (f : β → State → State) (s : State) (hx : x ∈ xs)
    (h0 : ∀ s, p (f x s)) (h : ∀ y s, p s → p (f y s)) : p (forEach xs f s) := by
  obtain ⟨a, b, rfl⟩ := List.append_of_mem hx
  have hsplit : forEach (a ++ x :: b) f s = forEach b f (f x (forEach a f s)) := by simp [forEach]
  rw [hsplit]
  exact forEach_holds p b f _ (h0 _) h

/-- What no turn of a list's elements changes. -/
theorem forEach_keeps_mem {α β : Type} (g : State → α) (xs : List β) (f : β → State → State) (s : State) (h : ∀ x ∈ xs, ∀ s, g (f x s) = g s) :
    g (forEach xs f s) = g s := by
  induction xs generalizing s with
  | nil => rfl
  | cons x xs ih =>
    rw [forEach_cons, ih _ fun y hy => h y (List.mem_cons_of_mem x hy)]
    exact h x List.mem_cons_self s

theorem le_of_mem_pmb1Keys {key : Nat} (h : key ∈ pmb1Keys) : 128 ≤ key := by
  simp only [pmb1Keys, List.mem_append, List.mem_map, List.mem_range, List.mem_singleton] at h
  omega

/-- A converter of the panel's own that answers is read. -/
theorem polledAll_reading {readings : List PmbusAnswer} {key : Nat} {r : PmbusAnswer} (s : State) (hkey : key ∈ pmb1Keys)
    (hr : readings.find? (fun r => r.key == key && r.pec) = some r) :
    (s.polledAll readings).power.reading key = (linear11 r.power, linear11 r.current, 0) := by
  have hgood : validAnswer readings key = some (linear11 r.power, linear11 r.current, false) := by
    have := le_of_mem_pmb1Keys hkey
    simp [validAnswer, hr]
    omega
  have hpoll : ∀ u : State, (u.pollOne readings key).power.reading key = (linear11 r.power, linear11 r.current, 0) := by
    intro u
    have h := (u.pollOne_polled readings key).2
    rw [hgood] at h
    exact h
  refine forEach_establishes (fun u => u.power.reading key = _) _ s (List.mem_append_right _ hkey) hpoll fun k u hu => ?_
  by_cases hk : key = k
  · subst hk
    exact hpoll u
  · rw [(u.pollOne_polled readings k).1.others key hk, hu]

/-- The one converter of the intake is polled once. -/
theorem polledAll_intake {readings : List PmbusAnswer} {key : Nat} {s : State} (hin : s.power.intake = [key]) (hkey : key < 128) :
    pollOutcome (validAnswer readings key) (tget 0 s.power.missing key) ((s.polledAll readings).power.reading key) := by
  have hrest : (s.polledAll readings).power.reading key = (s.pollOne readings key).power.reading key := by
    rw [State.polledAll, hin]
    refine forEach_keeps_mem (fun u => u.power.reading key) pmb1Keys _ (s.pollOne readings key) fun k hk u => ?_
    have := le_of_mem_pmb1Keys hk
    exact (u.pollOne_polled readings k).1.others key (by omega)
  rw [hrest]
  exact (s.pollOne_polled readings key).2

/-- A poll (R418, R419). -/
theorem pmbusPoll_polls (readings : List PmbusAnswer) (s : State) :
    ∃ t, execPmbusPoll readings s = .next t ∧ t.power.polls = s.power.polls + 1 ∧ t.mem = s.mem ∧
      (∀ key r, key ∈ pmb1Keys → readings.find? (fun r => r.key == key && r.pec) = some r →
        tget 0 t.power.power key = linear11 r.power ∧ tget 0 t.power.current key = linear11 r.current ∧ tget 0 t.power.missing key = 0) ∧
      (∀ key, s.power.intake = [key] → key < 128 →
        (readings.find? (fun r => r.key == key && r.pec) = none → tget 0 t.power.missing key = tget 0 s.power.missing key + 1) ∧
        (∀ r, readings.find? (fun r => r.key == key && r.pec) = some r →
          tget 0 t.power.missing key = (if statusFault r.status then tget 0 s.power.missing key + 1 else 0))) := by
  obtain ⟨t, hexec, hpolls, hmem, hread⟩ := pmbusPoll_reads readings s
  obtain ⟨hpolls', hmem'⟩ := polledAll_polls readings s
  refine ⟨t, hexec, by rw [hpolls, hpolls'], hmem.trans hmem', fun key r hkey hr => ?_, fun key hin hkey => ?_⟩
  · have h := (hread key).trans (polledAll_reading s hkey hr)
    simpa [Power.reading] using h
  · have h := polledAll_intake (readings := readings) hin hkey
    rw [← hread key] at h
    refine ⟨fun hr => ?_, fun r hr => ?_⟩
    · rw [validAnswer, hr] at h
      exact h
    · have hv : validAnswer readings key = some (linear11 r.power, linear11 r.current, statusFault r.status) := by simp [validAnswer, hr, hkey]
      rw [hv] at h
      cases hf : statusFault r.status with
      | true =>
        rw [hf] at h
        exact h
      | false =>
        rw [hf] at h
        exact congrArg (fun x => x.2.2) h

/-! ### Seconds (R418, R426) -/

/-- The state as the present second has ended, before its averages are taken. -/
def State.atSecondEnd (s : State) : State := (s.advanceTo s.secondEnd).closeClockSecond

/-- Closing the clocks' second writes the clusters alone. -/
theorem State.closeClockSecond_clusters (s : State) : ∃ c, s.closeClockSecond = { s with clusters := c } := by
  unfold State.closeClockSecond
  refine forEach_holds (fun t => ∃ c, t = { s with clusters := c }) _ _ s ⟨_, rfl⟩ ?_
  rintro ci t ⟨c, rfl⟩
  exact ⟨_, rfl⟩

/-- The end of a second moves the clock up to it and closes the clusters' counts. -/
theorem State.atSecondEnd_eq (s : State) : ∃ c, s.atSecondEnd = { s with clock := s.clock.advance s.secondEnd, clusters := c } := by
  obtain ⟨c, hc⟩ := (s.advanceTo s.secondEnd).closeClockSecond_clusters
  exact ⟨c, hc⟩

/-- A second's average of the power summed over its polls, in W and rounded up; with no poll the last one stands. -/
def State.average (s : State) (sum last : Nat) : Nat :=
  if s.power.polls = 0 then last else (sum + s.power.polls * 65536 - 1) / (s.power.polls * 65536)

/-- Requesting a stretch writes the clock alone. -/
theorem State.requestStretch_clock (s : State) : ∃ c, s.requestStretch = { s with clock := c } := by
  unfold State.requestStretch
  split
  · exact ⟨_, rfl⟩
  · split
    · exact ⟨_, rfl⟩
    · exact ⟨_, rfl⟩

/-- What the end of a second leaves in the power controller. -/
theorem powerSecond_ends (s : State) :
    ∃ t, execPowerSecond s = .next t ∧ t.mem = s.mem ∧ t.power.pin = s.average s.power.sumPin s.power.pin ∧
      t.power.rail = s.average s.power.sumRail s.power.rail ∧ t.power.polls = 0 ∧ t.power.sumPin = 0 ∧ t.power.lastSecond = s.secondEnd ∧
      t.power.seconds = s.power.seconds + 1 ∧ t.power.energy = s.power.energy + t.power.pin ∧
      t.power.demand = s.powerDemand t.power.pin t.power.rail (s.controlCeiling s.secondEnd) := by
  obtain ⟨c, hc⟩ := s.atSecondEnd_eq
  have hdemand : ∀ pin rail ceiling, s.atSecondEnd.powerDemand pin rail ceiling = s.powerDemand pin rail ceiling := by
    rw [hc]
    exact fun _ _ _ => rfl
  have hceiling : s.atSecondEnd.controlCeiling s.secondEnd = s.controlCeiling s.secondEnd := by
    rw [hc]
    rfl
  have hmem : s.atSecondEnd.mem = s.mem := by rw [hc]
  unfold execPowerSecond
  extract_lets e s0 p avg pin rail d judged exceeds bad run pend past fl s1 s2 s3 s4 s5
  have hp : p = s.power := by
    show s.atSecondEnd.power = s.power
    rw [hc]
  have hd : d = s.powerDemand pin rail (s.controlCeiling s.secondEnd) := (hdemand _ _ _).trans (by rw [← hceiling]; rfl)
  have h2 : OnlyNoticed s1 s2 := s1.noticeIf_onlyNoticed _ 1 0
  have h3 : OnlyNoticed s2 s3 := s2.noticeIf_onlyNoticed _ 2 0
  have h4 : OnlyNoticed s3 s4 := s3.noticeIf_onlyNoticed _ 3 0
  have h5 : OnlyNoticed s4 s5 := s4.noticeIf_onlyNoticed _ 6 0
  obtain ⟨n, u, f, l, h⟩ := ((h2.trans h3).trans h4).trans h5
  obtain ⟨k, hk⟩ := s5.requestStretch_clock
  refine ⟨_, rfl, ?_⟩
  rw [hk, h]
  clear_value p
  subst hp
  exact ⟨hmem, rfl, rfl, rfl, rfl, rfl, rfl, rfl, hd⟩

/-- Under a profile's cap the demand is the greater of the two stretches needed, and falls at most F / 8 a second (R426). -/
theorem State.powerDemand_capped {s : State} {cap : Nat} (hcap : profileCap s.power.profile = some cap) (pin rail : Nat) (c : Option Nat) :
    s.powerDemand pin rail c = min (2 ^ 32 - 1) (max
      (max (needStretch s.frameTicks s.clock.stretch rail cap) (c.elim 0 (needStretch s.frameTicks s.clock.stretch pin)))
      (s.clock.stretch - s.frameTicks / 8)) := by
  unfold State.powerDemand
  rw [hcap]
  dsimp only
  have hfall : ∀ d st e : Nat, (if d + e < st then st - e else d) = max d (st - e) := by
    intro d st e
    split <;> omega
  cases c <;> simp only [hfall, Option.elim_none, Option.elim_some]

/-! ### Minutes (R433) -/

/-- A minute's record joins those of the last 1,440, and the sums begin afresh. -/
theorem energyMinute_records (s : State) :
    ∃ t r, execEnergyMinute s = .next t ∧ t.power.records = (s.power.records ++ [r]).drop ((s.power.records ++ [r]).length - 1440) ∧
      r.start = s.power.minuteStart ∧ r.energy = s.power.energy ∧ r.railEnergy = s.power.railEnergy ∧ r.peak = s.power.peak ∧
      t.power.energy = 0 ∧ t.power.seconds = 0 ∧ t.mem = s.mem := by
  unfold execEnergyMinute
  extract_lets p t part fl r all s1
  have hall : all = s.power.records ++ [r] := rfl
  refine ⟨_, r, rfl, ?_, rfl, rfl, rfl, rfl, rfl, rfl, rfl⟩
  rw [← hall]

/-! ### The statement -/

/-- Settles O55: zones, phases, expiry, polls, seconds and minutes, each by its law above. -/
theorem powerDelivery : Obligations.PowerDelivery := by
  unfold Obligations.PowerDelivery
  refine ⟨?zone, ?phase, ?expiry, ?poll, ?demand, ?second, ?minute⟩
  case zone => exact fun z s hz => zoneCurrentWarning_drops hz s
  case phase =>
    intro ci ph s hci hph hin hdark
    refine ⟨fun hlost => ?_, fun hlost hnew => ?_⟩
    · obtain ⟨hl, hd, hs⟩ := s.loseFirstPhase_notes ci ph
      have hexec := phaseLost_loses hci hph hin hdark (ph := ph) (by rw [hlost]; rfl)
      rw [if_pos hlost] at hexec
      exact ⟨_, hexec, hl, hd.trans hdark, hs⟩
    · obtain ⟨hd, hout, hf⟩ := s.loseSecondPhase_darkens ci ph
      have hexec := phaseLost_loses hci hph hin hdark hnew
      rw [if_neg hlost] at hexec
      refine ⟨_, hexec, fun hmap => hd ?_, hout, hf⟩
      simp only [Prod.mk.injEq] at hmap
      obtain ⟨hgrid, hcols, hrows⟩ := hmap
      rw [State.gridMap, hgrid, hcols, hrows]
      rfl
  case expiry => exact fun site s hsite ht => deratedExpiry_due hsite ht
  case poll => exact fun rs s => pmbusPoll_polls rs s
  case demand =>
    intro s f st mean need hpolls
    obtain ⟨t, hexec, -, hpin, hrail, -, -, -, -, -, hdemand⟩ := powerSecond_ends s
    refine ⟨t, hexec, hpin.trans (if_neg (by omega)), hrail.trans (if_neg (by omega)), fun cap hcap => ⟨fun hc => ?_, fun lim hc => ?_⟩⟩
    · rw [hdemand, State.powerDemand_capped hcap, hc, Option.elim_none, Nat.max_zero]
      rfl
    · rw [hdemand, State.powerDemand_capped hcap, hc]
      rfl
  case second =>
    intro s
    obtain ⟨t, hexec, hmem, hpin, -, hpolls, hsum, hlast, hseconds, henergy, -⟩ := powerSecond_ends s
    exact ⟨t, hexec, hpolls, hsum, hlast, hpin, hseconds, henergy, hmem⟩
  case minute => exact energyMinute_records

end Sys2Proof.Machine
end

section
/-! PROOF. The group: what its messages, beacons and losses do (02 R43, R67; 08 R330 to R334; 09 R352; 11 R400). -/

namespace Sys2Proof.Machine

/-! ### Roles -/

theorem State.not_worker_of_manager {s : State} (h : s.isManager = true) : s.isWorker = false := by
  simp_all [State.isManager, State.isWorker]

theorem State.not_manager_of_worker {s : State} (h : s.isWorker = true) : s.isManager = false := by
  simp_all [State.isManager, State.isWorker]

theorem State.not_leads_of_worker {s : State} (h : s.isWorker = true) : s.leads = false := by
  simp [State.leads, s.not_manager_of_worker h]

/-! ### Messages -/

/-- What a manager hears of a joined worker. -/
theorem groupMessage_joined (slot : Nat) {s : State} (h : s.isManager = true) :
    execGroupMessageReceive (.joined slot) s = .next (s.managerTakes (.joined slot)) := by
  simp [execGroupMessageReceive, State.holdsMsg, h, s.not_worker_of_manager h]

/-- A worker that has room to relay a STEP_START message, or none below it, takes it. -/
theorem groupMessage_stepStart (idx tick : Nat) {s : State} (hw : s.isWorker = true)
    (hroom : s.hasBelow = true → s.relayRoom (.stepStart idx tick) = true) :
    execGroupMessageReceive (.stepStart idx tick) s = .next (s.workerHub (.stepStart idx tick)) := by
  have hheld : s.holdsMsg (.stepStart idx tick) = false := by
    cases hb : s.hasBelow <;> simp_all [State.holdsMsg, goesUp]
  simp [execGroupMessageReceive, hheld, hw, s.not_manager_of_worker hw]

/-- Relaying a message downward adds it to what is sent and changes nothing else. -/
theorem State.workerHub_below (m : GroupMsg) {s : State} (hup : goesUp m = false) (hl : s.group.managerLost = false) :
    s.workerHub m = s.workerTakes m ∨ s.workerHub m = (s.workerTakes m).send m := by
  simp only [State.workerHub, hup, hl, Bool.false_eq_true, if_false]
  cases s.hasBelow
  · exact .inl rfl
  · exact .inr rfl

/-- An idle worker's answer to STEP_START is its start, or the report of what bars it. -/
theorem State.workerTakes_stepStart (idx tick : Nat) {s : State} {p : Plan} (hp : s.plan = some p) (hi : s.step.state = .idle) :
    s.workerTakes (.stepStart idx tick) = s.workerStart p tick { s.step with
      stepIndex := idx, frameBase := idx * p.frames % 2 ^ 64, replay := false, lastOverrun := [],
      clockRuns := if idx = s.step.stepIndex then s.step.clockRuns else [] } := by
  simp [State.workerTakes, hp, hi]

/-- What bars a worker's start is reported, and no step begins. -/
theorem stepStart_barred (idx tick : Nat) {s : State} {p : Plan} (hw : s.isWorker = true) (hl : s.group.managerLost = false)
    (hp : s.plan = some p) (hi : s.step.state = .idle) (hroom : s.hasBelow = true → s.relayRoom (.stepStart idx tick) = true)
    (hb : s.workerBars p ≠ 0) :
    ∃ t, execGroupMessageReceive (.stepStart idx tick) s = .next t ∧ t.step = s.step ∧ t.cores = s.cores ∧
      .failure s.groupSlot 0 (s.workerBars p) 0xFFFF 0 ∈ t.group.sent := by
  refine ⟨_, groupMessage_stepStart idx tick hw hroom, ?_⟩
  have htakes : s.workerTakes (.stepStart idx tick) = s.send (.failure s.groupSlot 0 (s.workerBars p) 0xFFFF 0) := by
    rw [s.workerTakes_stepStart idx tick hp hi, State.workerStart, if_neg hb]
  obtain h | h := s.workerHub_below (.stepStart idx tick) rfl hl <;> rw [h, htakes] <;> exact ⟨rfl, rfl, by simp⟩

/-- A worker that nothing bars starts its run, which waits for the tick that the message names. -/
theorem stepStart_runs (idx tick : Nat) {s : State} {p : Plan} (hw : s.isWorker = true) (hl : s.group.managerLost = false)
    (hp : s.plan = some p) (hi : s.step.state = .idle) (hroom : s.hasBelow = true → s.relayRoom (.stepStart idx tick) = true)
    (hb : s.workerBars p = 0) :
    ∃ t, execGroupMessageReceive (.stepStart idx tick) s = .next t ∧ t.step.state = .running ∧ t.step.phase = .wait ∧
      t.step.startAt = some tick ∧ t.step.stepIndex = idx ∧ t.step.frameBase = idx * p.frames % 2 ^ 64 ∧ t.group.window = none ∧
      t.mem = s.mem ∧ t.cores = s.cores := by
  refine ⟨_, groupMessage_stepStart idx tick hw hroom, ?_⟩
  have htakes := s.workerTakes_stepStart idx tick hp hi
  rw [State.workerStart, if_pos hb] at htakes
  obtain h | h := s.workerHub_below (.stepStart idx tick) rfl hl <;> rw [h, htakes] <;>
    exact ⟨rfl, rfl, rfl, rfl, rfl, rfl, rfl, rfl⟩

/-- The outcome of a relayed command leaves the list of those relayed and makes its record, with RELAYED and SLOT. -/
theorem State.relayDone_found {s : State} {slot seq : Nat} {c : Cmd} (status detail result : Nat)
    (h : s.cmds.inflight.find? (fun c => c.dest == slot && c.seq == seq && s.cmds.relayed.contains c.tag) = some c) :
    s.relayDone slot seq status detail result = { s with
      cmds := { s.cmds with relayed := s.cmds.relayed.filter (· != c.tag) },
      log := { s.log with waiting := s.log.waiting ++ [{ recOf s c status detail result with slot := slot, flags := 4 }] } } := by
  unfold State.relayDone
  rw [h]
  rfl

/-! ### Beacons -/

/-- Realigning writes no part of the state but the time of the next tick. -/
theorem State.realign_eq (s : State) : ∃ n, s.realign = { s with clock := { s.clock with nextTick := n } } := by
  unfold State.realign
  split
  · exact ⟨_, rfl⟩
  · exact ⟨_, rfl⟩

/-- Whether a beacon follows the last one within 2 ms, so that it counts in a row with it (R331; log entry 70). -/
def State.beaconInRow (s : State) : Bool := s.group.lastBeacon.any (fun b => decide (s.now < b + 2000000))

/-- The rate trim that a beacon gives (log entry 120). -/
def State.beaconRate (s : State) (stamp roundTrip received : Nat) : Int :=
  s.rateOf (if s.beaconInRow then s.group.firstBeacon else none) (beaconTime stamp roundTrip) (16 * ((received : Int) - s.clock.added))

/-- The offset in ns, rounded, of the manager's time to the worker's count at a beacon's receipt. -/
def beaconOffset (stamp roundTrip received : Nat) : Int := (beaconTime stamp roundTrip + 8 - 16 * received) / 16

/-- A worker after it has counted a beacon whose rate is within bounds and taken the rate. -/
def State.beaconCounted (s : State) (stamp roundTrip received : Nat) : State :=
  State.setTrim { s with group := { s.group with
    beacons := if s.beaconInRow then s.group.beacons + 1 else 1, lastBeacon := some s.now, rateOk := true,
    firstBeacon := if s.beaconInRow then s.group.firstBeacon
      else some (beaconTime stamp roundTrip, 16 * ((received : Int) - s.clock.added)) } } (s.beaconRate stamp roundTrip received)

/-- Reading an optional value by cases, with `false` for none, is `Option.any`. Stated of any predicate `p`: with the beacon's bound written out, the kernel
would evaluate the bound. -/
theorem match_eq_any (o : Option Nat) (p : Nat → Bool) : (match o with | some b => p b | none => false) = o.any p := by cases o <;> rfl

/-- What a beacon whose rate is within bounds does at a worker: the one step of its timebase, after the third in a row; a slew, once it has stepped or joined; else
no more than the count and the rate. -/
theorem timeBeacon_worker (stamp roundTrip received : Nat) {s : State} (hw : s.isWorker = true) (hl : s.group.managerLost = false)
    (hlow : -50000 ≤ s.beaconRate stamp roundTrip received) (hhigh : s.beaconRate stamp roundTrip received ≤ 50000) :
    execTimeBeacon stamp roundTrip received s =
      let u := s.beaconCounted stamp roundTrip received
      let d := beaconOffset stamp roundTrip received
      let here := ((s.now : Int) + d).toNat
      if s.group.selfJoined = false ∧ s.group.stepped = false ∧ 3 ≤ u.group.beacons then
        .next (State.realign (State.stepTimebase { u with group := { u.group with stepped := true, lastBeacon := some here } } here))
      else if s.group.selfJoined = true ∨ s.group.stepped = true then .next { u with clock := u.clock.slewBy d }
      else .next u := by
  unfold execTimeBeacon
  rw [if_neg (by simp [s.not_leads_of_worker hw]), if_neg (by simp [hw, hl])]
  extract_lets row n time own rate ok s0 src s1 d s2
  have hrow : row = s.beaconInRow := match_eq_any s.group.lastBeacon fun b => decide (s.now < b + 2000000)
  clear_value row
  subst hrow
  have hok : ok = true := decide_eq_true ⟨hlow, hhigh⟩
  have hs0 : s0 = s := if_pos (.inl hok)
  clear_value ok s0
  subst hok hs0
  simp only [Bool.not_true, Bool.false_eq_true, if_false, Bool.not_eq_true', ge_iff_le]
  rfl

/-- A joined worker takes a beacon's rate and slews toward its time; its count stays. -/
theorem timeBeacon_joined (stamp roundTrip received : Nat) {s : State} (hw : s.isWorker = true) (hl : s.group.managerLost = false)
    (hlow : -50000 ≤ s.beaconRate stamp roundTrip received) (hhigh : s.beaconRate stamp roundTrip received ≤ 50000)
    (hj : s.group.selfJoined = true) :
    ∃ t, execTimeBeacon stamp roundTrip received s = .next t ∧ t.clock.trim = s.beaconRate stamp roundTrip received ∧
      t.clock.slew = beaconOffset stamp roundTrip received ∧ t.now = s.now ∧
      t.group.beacons = (if s.beaconInRow then s.group.beacons + 1 else 1) := by
  exact ⟨_, (timeBeacon_worker stamp roundTrip received hw hl hlow hhigh).trans ((if_neg (by simp [hj])).trans (if_pos (.inl hj))),
    rfl, rfl, rfl, rfl⟩

/-- The third beacon in a row steps the timebase of a worker that has not stepped it to the manager's time. -/
theorem timeBeacon_steps (stamp roundTrip received : Nat) {s : State} (hw : s.isWorker = true) (hl : s.group.managerLost = false)
    (hlow : -50000 ≤ s.beaconRate stamp roundTrip received) (hhigh : s.beaconRate stamp roundTrip received ≤ 50000)
    (hj : s.group.selfJoined = false) (hs : s.group.stepped = false) (hr : s.beaconInRow = true) (hb : 2 ≤ s.group.beacons) :
    ∃ t, execTimeBeacon stamp roundTrip received s = .next t ∧ t.group.stepped = true ∧
      t.clock.trim = s.beaconRate stamp roundTrip received ∧ t.clock.slew = 0 ∧
      t.now = ((s.now : Int) + beaconOffset stamp roundTrip received).toNat := by
  have hcount : 3 ≤ (s.beaconCounted stamp roundTrip received).group.beacons := by
    show 3 ≤ if s.beaconInRow then s.group.beacons + 1 else 1
    rw [if_pos hr]
    omega
  refine ⟨_, (timeBeacon_worker stamp roundTrip received hw hl hlow hhigh).trans (if_pos ⟨hj, hs, hcount⟩), ?_⟩
  generalize hu : State.stepTimebase _ _ = u
  obtain ⟨n, hn⟩ := u.realign_eq
  rw [hn, ← hu]
  exact ⟨rfl, rfl, rfl, rfl⟩

/-! ### Joining, and the loss of a manager or worker -/

/-- A worker that meets R331 joins and says so. -/
theorem workerJoin_joins {s : State} (hw : s.isWorker = true) (hj : s.group.selfJoined = false) (hup : s.bundlesUp = true)
    (hb : 3 ≤ s.group.beacons) (hs : s.group.stepped = true) (hr : s.group.rateOk = true) (hl : s.group.managerLost = false)
    (hlow : -20 ≤ s.clock.slew) (hhigh : s.clock.slew ≤ 20) (ht : s.tickAligned = true) :
    execWorkerJoin s = .next (State.send { s with group := { s.group with selfJoined := true, joining := true } } (.joined s.groupSlot)) := by
  unfold execWorkerJoin
  exact if_pos ⟨hw, by simp [hj], by simp [hl], hup, hb, hs, hr, ⟨hlow, hhigh⟩, ht⟩

/-- A lost manager is recorded, and stops a running step. -/
theorem managerLost_stops {s : State} {b : Nat} (hb : s.group.lastBeacon = some b) (hw : s.isWorker = true) (hl : s.group.managerLost = false) :
    ∃ t, execManagerLost s = .next t ∧ t.group.managerLost = true ∧ b + 8000000 ≤ t.now ∧ t.units.seq = s.units.seq + 1 ∧
      (s.isRunning = true → t.step.faults = s.step.faults ++ [{ frame := s.step.frame, status := 0x406, core := 0xFFFF, detail := 0 }]) := by
  unfold execManagerLost
  rw [hb]
  dsimp only
  rw [if_pos ⟨hw, by simp [hl]⟩]
  refine ⟨_, rfl, ?_⟩
  generalize he : State.addError _ _ = u
  have hgroup : u.group.managerLost = true := by rw [← he, State.addError_group]
  have hnow : b + 8000000 ≤ u.now := by
    rw [← he]
    simp only [State.now, State.addError_clock]
    exact Nat.le_max_right _ _
  have hseq : u.units.seq = s.units.seq + 1 := by rw [← he, State.addError_seq]; rfl
  have hstep : u.step = s.step := by rw [← he, State.addError_step]; rfl
  cases hrun : s.isRunning with
  | true =>
    rw [State.failStep_running (by rw [State.isRunning, hstep]; exact hrun)]
    exact ⟨hgroup, hnow, hseq, fun _ => by rw [hstep]; rfl⟩
  | false =>
    rw [State.failStep_idle (by rw [State.isRunning, hstep]; exact hrun)]
    exact ⟨hgroup, hnow, hseq, fun h => by simp at h⟩

/-- A silent worker stops the group's step and leaves those that have joined. -/
theorem workerSilent_stops {s : State} {slot : Nat} (hl : s.leads = true) (hj : s.group.joined.contains slot = true) (hr : s.isRunning = true)
    (hs : s.step.stop = none) :
    ∃ t n, execWorkerSilent slot s = .next t ∧ t.step.stop = some n ∧ t.group.sent = s.group.sent ++ [.stepStop slot 0x405 n] ∧
      t.group.joined = s.group.joined.filter (· != slot) ∧
      t.step.reports = s.step.reports ++ [(slot, { frame := s.step.frame, status := 0x405, core := 0xFFFF, detail := 0 })] := by
  unfold execWorkerSilent
  rw [if_pos ⟨hl, hj⟩]
  dsimp only
  generalize hu : s.advanceTo _ = u
  have hleads : u.leads = true := by rw [← hu]; exact hl
  have hrun : u.isRunning = true := by rw [← hu]; exact hr
  have hstop : u.step.stop = none := by rw [← hu]; exact hs
  unfold State.orderStop
  rw [if_neg (by simp [hleads, hrun]), if_neg (by simp [hstop]), ← hu]
  exact ⟨_, _, rfl, rfl, rfl, rfl, rfl⟩

/-! ### The statement -/

/-- Settles O53: each clause is the law of one command above. -/
theorem groupActs : Obligations.GroupActs := by
  unfold Obligations.GroupActs
  refine ⟨?joined, ?stepStart, ?relay, ?beacon, ?beaconAtWorker, ?join, ?lost, ?silent, ?healthUp, ?gather⟩
  case joined => exact fun slot s hm => groupMessage_joined slot hm
  case stepStart =>
    intro idx tick s p hw hl hp hi hroom
    exact ⟨stepStart_barred idx tick hw hl hp hi hroom, stepStart_runs idx tick hw hl hp hi hroom⟩
  case relay =>
    intro slot seq status detail result s c hm hc
    show execCommandRelay slot seq status detail result s = _
    rw [execCommandRelay, if_pos hm, State.relayDone_found status detail result hc]
  case beacon => exact fun stamp roundTrip received s hl => if_pos hl
  case beaconAtWorker =>
    intro stamp roundTrip received s row time own rate d hw hl hlow hhigh
    exact ⟨timeBeacon_joined stamp roundTrip received hw hl hlow hhigh, timeBeacon_steps stamp roundTrip received hw hl hlow hhigh⟩
  case join => exact fun s hw hj hup hb hs hr hl hlow hhigh ht => workerJoin_joins hw hj hup hb hs hr hl hlow hhigh ht
  case lost => exact fun s b hb hw hl => managerLost_stops hb hw hl
  case silent => exact fun slot s hl hj hr hs => workerSilent_stops hl hj hr hs
  case healthUp => exact fun s hw => if_pos hw
  case gather =>
    intro s hw hl
    show execHealthGather s = _
    rw [execHealthGather, if_neg (by simp [hw]), if_pos hl]

end Sys2Proof.Machine
end

section
/-! PROOF. Lane retirement on a panel that shows no grid class (08 R313; 14 R461, R462). A lost lane has the hub look at its own links; with both lost it halts, and
the halt puts the map of no grid class in force. That changes no memory of a panel whose registers hold this map already, but they need not. -/

namespace Sys2Proof.Machine

/-- A panel with no grid class that holds one byte of row memory, in the canonical form. Both I/O dies of the hub are retired, so that it is cut from its links, and a
compute site, which the map's registers do not show yet. Port 0 is ACTIVE on lanes of which none is retired. -/
def cutPanel : State :=
  { State.reset with
    mem := [(0, 1)], ports := [(0, { state := 4 })],
    units := { table := [(unitId 2 0 0, { state := 2 }), (unitId 3 6 0, { state := 2 }), (unitId 3 9 0, { state := 2 })] } }

/-- The panel's memory and unit table are sound, and no grid class is shown. -/
theorem cutPanel_sound : MemSound cutPanel ∧ tabWf {} cutPanel.units.table = true ∧ cutPanel.units.gridClass = 0 := ⟨⟨rfl, rfl⟩, rfl, rfl⟩

/-- The halt of the cut hub forms a map whose registers differ from those in force, and what belongs to no logical die of the new map goes. -/
theorem cutPanel_retireLane_mem : (cutPanel.retireLane 0 0).mem = [] := rfl

/-- Refutes O51: the second clause says that retiring a lane changes no memory of a panel with no grid class. On `cutPanel` it halts the hub, whose new map drops the
row memory that the old one held. -/
theorem not_linksCarry : ¬ Obligations.LinksCarry := by
  unfold Obligations.LinksCarry
  rintro ⟨-, hretire, -⟩
  obtain ⟨t, ht, -, hmem, -⟩ := hretire 0 0 cutPanel (by decide) (by decide) rfl rfl
  have hexec : exec (.laneRetire 0 0) cutPanel = .next (cutPanel.retireLane 0 0) := rfl
  obtain rfl : cutPanel.retireLane 0 0 = t := by
    rw [hexec] at ht
    exact Host.Outcome.next.inj ht
  have hkept : (cutPanel.retireLane 0 0).mem = cutPanel.mem := hmem (.inl rfl)
  rw [cutPanel_retireLane_mem] at hkept
  cases hkept

end Sys2Proof.Machine
end

section
/-! PROOF. The control lane, and STEP_START, STEP_REPLAY and STEP_COMMIT in it (02 R64 to R70; 09 R350). -/

namespace Sys2Proof.Machine

/-! ### The control lane -/

/-- A command of the control lane goes to no other lane. -/
theorem controlOps_lane : ∀ op ∈ controlOps, queryOps.contains op = false ∧ transferOps.contains op = false := by decide

/-- A control command whose slot is the next to be accepted and whose lane is free runs at once, and then the transfers that wait may start. -/
theorem acceptAs_control {slot op : Nat} {s : State} (hop : op ∈ controlOps) (ha : Accepts slot op s) (hl : LaneFree slot s) :
    acceptAs op slot s = .next (lanesOn (runControl (theCmd s slot) (inLane s slot))) := by
  obtain ⟨hslot, hacc, hhead, hopcode, hpass⟩ := ha
  obtain ⟨hlane, hdest, hreset, hopen⟩ := hl
  obtain ⟨hquery, htransfer⟩ := controlOps_lane op hop
  have hboot : (s.takeSlot slot).boot.resetTag = none := hreset
  have hempty : (s.takeSlot slot).cmds.lane = [] := hlane
  have hdispatch : (s.takeSlot slot).dispatch (s.slotCmd slot) = lanesOn (runControl (theCmd s slot) (inLane s slot)) := by
    unfold State.dispatch
    rw [hopcode, hquery, htransfer, hboot, hempty, if_neg Bool.false_ne_true, if_neg Bool.false_ne_true, if_neg (by simp)]
    simp only [State.runLanes, List.nil_append, List.length_singleton, State.runLane, hopen, Bool.false_eq_true, if_false, State.startControl,
      if_pos hdest]
    rfl
  simp [acceptAs, State.acceptSlot, hacc, hhead, hopcode, hpass, hdispatch, Nat.not_le.mpr hslot]

/-- A command that starts keeps its opcode. -/
@[simp] theorem State.started_opcode (s : State) (c : Cmd) : (s.started c).opcode = c.opcode := by
  unfold State.started
  split <;> rfl

/-- The command of an accepted slot has the opcode that the slot holds. -/
theorem theCmd_opcode {slot op : Nat} {s : State} (ha : Accepts slot op s) : (theCmd s slot).opcode = op := by
  obtain ⟨-, -, -, hopcode, -⟩ := ha
  rw [theCmd, State.started_opcode, hopcode]

/-! ### The step's transfers -/

/-- Where an address of HBM lies depends on the aliases alone. -/
theorem State.resolveHbm_congr {s t : State} (ha : t.aliases = s.aliases) (a : Nat) : t.resolveHbm a = s.resolveHbm a := by
  simp only [State.resolveHbm, ha]

/-- How a range of HBM is cut depends on the part and the aliases alone. -/
theorem State.hbmPieces_congr {s t : State} (hf : t.fuses = s.fuses) (ha : t.aliases = s.aliases) (n a hi : Nat) :
    t.hbmPieces n a hi = s.hbmPieces n a hi := by
  induction n generalizing a with
  | zero => rfl
  | succ n ih => simp only [State.hbmPieces, State.cutAt, State.resolveHbm_congr ha, hf, ha, ih]

/-- The transfer of a descriptor depends on the plan, the map, the part, the aliases and the step's place in the order. -/
theorem State.stepXfer_congr {s t : State} (hp : t.plan = s.plan) (hu : t.units = s.units) (hf : t.fuses = s.fuses) (ha : t.aliases = s.aliases)
    (hs : t.step.seq = s.step.seq) (write : Bool) (i : Nat) (d : Descr) : t.stepXfer write i d = s.stepXfer write i d := by
  simp only [State.stepXfer, State.regionById, State.piecesOf, State.hbmPieces_congr hf ha, hp, hu, ha, hs]

/-- Saying that a group's step is under way writes the group alone. -/
theorem State.takeGroup_eq (s : State) : ∃ g, s.takeGroup = { s with group := g } := by
  unfold State.takeGroup
  split
  · exact ⟨_, rfl⟩
  · exact ⟨_, rfl⟩

/-- The step as a run of it starts under a command (R65, R66, R70). -/
def runStarted (s : State) (c : Cmd) (st : Step) : Step :=
  { st with
    state := .running, phase := .inputs, frame := 0, tag := c.tag, opcode := c.opcode, startAt := none, flip := none, flipTag := none,
    faults := [], reports := [], stop := none, seq := c.seq, acceptedAt := s.now }

/-- The transfers of a step's inputs, first to last. -/
def inputXfers (s : State) (ds : List Descr) : List Xfer := ((List.range ds.length).zip ds).flatMap (fun d => s.stepXfer true d.1 d.2)

/-- What the transfers of the inputs are depends on no more than those of each descriptor. -/
theorem inputXfers_congr {s t : State} (hp : t.plan = s.plan) (hu : t.units = s.units) (hf : t.fuses = s.fuses) (ha : t.aliases = s.aliases)
    (hs : t.step.seq = s.step.seq) (ds : List Descr) : inputXfers t ds = inputXfers s ds :=
  List.flatMap_congr fun d _ => State.stepXfer_congr hp hu hf ha hs true d.1 d.2

/-- The panel as a run of the step starts: the step, and the transfers of its inputs behind those that run. -/
def runOpened (s : State) (c : Cmd) (st : Step) : State :=
  { s with
    step := runStarted s c st
    cmds := { s.cmds with xfers := s.cmds.xfers ++ inputXfers { s with step := runStarted s c st } st.inputs } }

/-- Starting a run opens it, and writes the group besides. -/
theorem State.beginRun_eq (s : State) (c : Cmd) (st : Step) : ∃ g, s.beginRun c st = { runOpened s c st with group := g } := by
  obtain ⟨g, hg⟩ := State.takeGroup_eq { s with step := runStarted s c st, group := { s.group with done := [], live := false } }
  have hx : s.beginRun c st = State.openStep { s with step := runStarted s c st, group := g } true st.inputs := by
    rw [← hg]
    rfl
  exact ⟨g, hx.trans (congrArg (fun xs : List Xfer => ({ s with
    step := runStarted s c st, group := g, cmds := { s.cmds with xfers := s.cmds.xfers ++ xs } } : State))
    (inputXfers_congr (by rfl) (by rfl) (by rfl) (by rfl) (by rfl) st.inputs))⟩

/-! ### STEP_START -/

/-- The step that STEP_START describes, not yet run (R64, R66). -/
def stepDescribed (s : State) (c : Cmd) (p : Plan) : Step :=
  { s.step with
    stepIndex := c.arg 8 8, frameBase := c.arg 8 8 * p.frames % 2 ^ 64, inputs := (descrs c).take (c.arg 0x14 2),
    outputs := (descrs c).drop (c.arg 0x14 2), autoCommit := (c.arg 0x10 4).testBit 0, replay := false, lastOverrun := [],
    clockRuns := if c.arg 8 8 = s.step.stepIndex then s.step.clockRuns else [] }

/-- A STEP_START that nothing bars starts the step that it describes and closes the state-load window (R65, R336). -/
theorem runStepStart_runs {s : State} {c : Cmd} {p : Plan} (hf : s.startFail c = none) (hp : s.plan = some p) :
    ∃ g : Group, runStepStart c s = { runOpened s c (stepDescribed s c p) with group := { g with window := none } } := by
  obtain ⟨g, hg⟩ := s.beginRun_eq c (stepDescribed s c p)
  refine ⟨g, ?_⟩
  simp only [runStepStart, hf, hp]
  exact congrArg (fun x : State => { x with group := { x.group with window := none } }) hg

/-! ### STEP_REPLAY -/

/-- Of several checks of which none fails there is no first that does. -/
theorem first_eq_none {xs : List (Nat × Nat × Nat)} (h : ∀ x ∈ xs, x.1 = 0) : first xs = none := by
  unfold first
  rw [List.find?_eq_none]
  intro x hx
  simp [h x hx]

/-- A STEP_REPLAY of the step that has completed or failed, barred by no condition, runs it again as a replay (R70). -/
theorem runStepReplay_runs {s : State} {c : Cmd} {p : Plan} (hgate : s.gate false = 0) (hst : s.shownState = .awaitCommit ∨ s.shownState = .failed)
    (hp : s.plan = some p) (hidx : c.arg 0 8 = s.step.stepIndex) (hcond : (s.runConditions p).1 = 0) (hlast : s.lastChecks p = 0) :
    runStepReplay c s = s.beginRun c { s.step with replay := true, lastOverrun := s.overruns } := by
  have hfirst : first [s.panelCheck p, noSlot (s.lastChecks p, 0)] = none :=
    first_eq_none (by simp [State.panelCheck, noSlot, hcond, hlast])
  obtain hst | hst := hst <;> simp [runStepReplay, hgate, hst, hp, hidx, hfirst]

/-- Settles O33: either command runs in its lane, and starts a run of the step. -/
theorem stepStartsAndReplays : Obligations.StepStartsAndReplays := by
  unfold Obligations.StepStartsAndReplays
  refine ⟨?start, ?replay⟩
  case start =>
    intro slot s p c t ha hl hf hp
    have hrun : runControl c t = runStepStart c t := by simp [runControl, theCmd_opcode ha, c]
    obtain ⟨g, hg⟩ := runStepStart_runs hf (show t.plan = some p from hp)
    refine ⟨_, acceptAs_control (by decide) ha hl, ?_⟩
    rw [hrun, hg]
    exact ⟨rfl, rfl, rfl, rfl, rfl, rfl, rfl, rfl, rfl, rfl, rfl, rfl, rfl,
      congrArg (s.cmds.xfers ++ ·) (inputXfers_congr (by rfl) (by rfl) (by rfl) (by rfl) (by rfl) _)⟩
  case replay =>
    intro slot s p c t ha hl hgate hst hp hidx hcond hlast
    have hrun : runControl c t = runStepReplay c t := by simp [runControl, theCmd_opcode ha, c]
    obtain ⟨g, hg⟩ := t.beginRun_eq c { t.step with replay := true, lastOverrun := t.overruns }
    refine ⟨_, acceptAs_control (by decide) ha hl, ?_⟩
    rw [hrun, runStepReplay_runs hgate hst hp hidx hcond hlast, hg]
    exact ⟨rfl, rfl, rfl, rfl, rfl, rfl, rfl, rfl, rfl, rfl,
      congrArg (s.cmds.xfers ++ ·) (inputXfers_congr (by rfl) (by rfl) (by rfl) (by rfl) (by rfl) _)⟩

/-! ### STEP_COMMIT -/

/-- A completed step named by its index has its flip fixed, and nothing else of the panel changes but what the group is told (R69). -/
theorem runStepCommit_fixes {s : State} {c : Cmd} (hgate : s.gate true = 0) (hst : s.shownState = .awaitCommit) (hidx : c.arg 0 8 = s.step.stepIndex) :
    ∃ g, runStepCommit c s = { s with step := { s.step with flip := some s.flipBound, flipTag := some c.tag }, group := g } := by
  simp only [runStepCommit, hgate, hst, hidx, ne_eq, not_true_eq_false, if_false, State.fixFlip]
  split
  · exact ⟨_, rfl⟩
  · exact ⟨_, rfl⟩

/-- A completed step is not committed under another index (R69). -/
theorem runStepCommit_otherIndex {s : State} {c : Cmd} (hgate : s.gate true = 0) (hst : s.shownState = .awaitCommit)
    (hidx : c.arg 0 8 ≠ s.step.stepIndex) : runStepCommit c s = answered s c 0x107 (c.at 0) 0 := by
  simp only [runStepCommit, hgate, hst, ne_eq, not_true_eq_false, if_false, if_pos hidx]
  rfl

/-- The status of STEP_COMMIT in each other step state (Table 2.5). -/
theorem runStepCommit_otherState {s : State} {c : Cmd} (hgate : s.gate true = 0) (hst : s.shownState ≠ .awaitCommit) :
    runStepCommit c s = answered s c (match s.shownState with | .noPlan => 0x204 | .running => 0x203 | _ => 0x209) 0 0 := by
  simp only [runStepCommit, hgate, ne_eq, not_true_eq_false, if_false]
  cases h : s.shownState with
  | awaitCommit => exact absurd h hst
  | noPlan | idle | running | failed | failedFinal => rfl

/-- Settles O34: the command runs in its lane, by the three laws above. -/
theorem stepCommitFixesFlip : Obligations.StepCommitFixesFlip := by
  unfold Obligations.StepCommitFixesFlip
  intro slot s c t ha hl hgate
  have hrun : runControl c t = runStepCommit c t := by simp [runControl, theCmd_opcode ha, c]
  have hexec : exec (.stepCommit slot) s = .next (lanesOn (runStepCommit c t)) := hrun ▸ acceptAs_control (by decide) ha hl
  refine ⟨?fixes, ?otherIndex, ?otherState⟩
  case fixes =>
    intro hst hidx
    obtain ⟨g, hg⟩ := runStepCommit_fixes hgate hst hidx
    exact ⟨_, hexec, by rw [hg]; exact ⟨rfl, rfl, rfl, rfl⟩⟩
  case otherIndex =>
    intro hst hidx
    rw [hexec, runStepCommit_otherIndex hgate hst hidx]
  case otherState =>
    rintro st rfl hst
    exact hexec.trans (congrArg (fun x => Host.Outcome.next (lanesOn x)) (runStepCommit_otherState hgate hst))

end Sys2Proof.Machine
end

section
/-! PROOF. A cycle-limit overrun of a core in frame 0 while the step stands in another frame (02 R59; 15 R487, Table 15.4). An error record takes the step's frame where its
event names frame 0, so the record shows the core's frame only where the two agree. -/

namespace Sys2Proof.Machine

/-- A panel whose step runs frame 1, and whose core 0 has been left in frame 0 and has one cycle in its frame-table entry. -/
def frameLagging : State :=
  { State.reset with cores := [(0, { mode := .running, limit := 1 })], step := { state := .running, frame := 1 } }

/-- The overrun's record names the frame of the step, not that of the core. -/
theorem frameLagging_record :
    ((frameLagging.limitOverrun 0).units.errors.getLast?.map fun e => (e.code, e.cls, e.frame)) = some (0x110, 2, 1) ∧
      (frameLagging.core 0).frame = 0 := by
  decide +kernel

/-- Refutes O25: on `frameLagging` the overrun is recorded with FRAME 1, and the statement gives the record the frame of the core, which is 0. -/
theorem not_cycleLimitFailsStep : ¬ Obligations.CycleLimitFailsStep := by
  unfold Obligations.CycleLimitFailsStep
  intro h
  obtain ⟨-, hoverrun⟩ := h 0 frameLagging (by decide)
  obtain ⟨t, ht, -, -, -, -, -, -, -, -, -, hrecord⟩ := hoverrun rfl rfl (by decide) rfl
  have hexec : exec (.cycleLimitOverrun 0) frameLagging = .next (frameLagging.limitOverrun 0) := rfl
  obtain rfl : frameLagging.limitOverrun 0 = t := Host.Outcome.next.inj (hexec.symm.trans ht)
  obtain ⟨hstep, hcore⟩ := frameLagging_record
  rw [hcore] at hrecord
  exact absurd (hstep.symm.trans hrecord) (by decide)

end Sys2Proof.Machine
end

section
/-! PROOF. Loading a plan: what the checks refuse, what a load writes, and how a group's images go down the tree (02 R85, R86; 08 R332; 13 Table 13.4). -/

namespace Sys2Proof.Machine

/-! ### The checks of Table 2.11 -/

/-- A check fails with no status 0, which would say success. -/
def Refuses (o : Option (Nat × Nat)) : Prop := ∀ f, o = some f → f.1 ≠ 0

theorem refuses_none : Refuses none := fun _ h => by cases h

theorem refuses_some {n d : Nat} (hn : n ≠ 0) : Refuses (some (n, d)) := fun _ h => by cases h; exact hn

theorem Refuses.or {a b : Option (Nat × Nat)} (ha : Refuses a) (hb : Refuses b) : Refuses (a.or b) := by
  cases a with
  | none => exact hb
  | some x => exact ha

theorem Refuses.ite {p : Prop} [Decidable p] {a b : Option (Nat × Nat)} (ha : Refuses a) (hb : Refuses b) : Refuses (if p then a else b) := by
  split
  · exact ha
  · exact hb

theorem refuses_failAt {status : Nat} (bad : List Nat) (h : status ≠ 0) : Refuses (failAt status bad) := by
  cases bad with
  | nil => exact refuses_none
  | cons b bs => exact refuses_some h

theorem refuses_check56 (s : State) (img : Img) : Refuses (s.check56 img) := by
  unfold State.check56
  exact .ite (.ite (refuses_some (by decide)) refuses_none) (.ite refuses_none (refuses_some (by decide)))

theorem refuses_check9 (img : Img) : Refuses (check9 img) :=
  .ite (refuses_failAt _ (by decide)) (.ite (refuses_failAt _ (by decide)) (refuses_failAt _ (by decide)))

theorem refuses_check10 (img : Img) : Refuses (check10 img) :=
  .or (refuses_failAt _ (by decide)) (.or (refuses_failAt _ (by decide)) (refuses_failAt _ (by decide)))

/-- A plan image that fails a check is refused with that check's status. -/
theorem State.planChecks_refuses (s : State) (img : Img) : Refuses (s.planChecks img) := by
  have hone : ∀ (ok : Bool) (st : Nat), st ≠ 0 → Refuses (if ok then none else some (st, 0)) := fun _ _ h => .ite refuses_none (refuses_some h)
  unfold State.planChecks
  exact .or (hone _ _ (by decide)) <| .or (hone _ _ (by decide)) <| .or (refuses_failAt _ (by decide)) <|
    .or (.ite refuses_none (refuses_some (by decide))) <| .or (refuses_check56 s img) <| .or (refuses_failAt _ (by decide)) <|
    .or (refuses_failAt _ (by decide)) <| .or (refuses_check9 img) <| .or (refuses_check10 img) <| .or (refuses_failAt _ (by decide)) <|
    .or (hone _ _ (by decide)) (hone _ _ (by decide))

/-! ### What a load writes -/

/-- `t` differs from `s` in the units, the memory and its poison, the clusters and the thermal part alone. -/
def MapOnly (s t : State) : Prop := ∃ u m p c h, t = { s with units := u, mem := m, poison := p, clusters := c, thermal := h }

namespace MapOnly

variable {s t u : State}

theorem write (s : State) (u : Units) (m : List Host.Cell) (p : List Nat) (c : Tab Cluster) (h : Thermal) :
    MapOnly s { s with units := u, mem := m, poison := p, clusters := c, thermal := h } := ⟨u, m, p, c, h, rfl⟩

theorem refl (s : State) : MapOnly s s := write s _ _ _ _ _

theorem trans (h : MapOnly s t) (h' : MapOnly t u) : MapOnly s u := by
  obtain ⟨_, _, _, _, _, rfl⟩ := h
  obtain ⟨_, _, _, _, _, rfl⟩ := h'
  exact write s _ _ _ _ _

theorem forEach {β : Type} {xs : List β} {f : β → State → State} (s : State) (h : ∀ x t, MapOnly t (f x t)) : MapOnly s (forEach xs f s) :=
  forEach_holds (MapOnly s) xs f s (.refl s) fun x t ht => ht.trans (h x t)

theorem settings (h : MapOnly s t) : t.settings = s.settings := by obtain ⟨_, _, _, _, _, rfl⟩ := h; rfl
theorem straps (h : MapOnly s t) : t.straps = s.straps := by obtain ⟨_, _, _, _, _, rfl⟩ := h; rfl
theorem log (h : MapOnly s t) : t.log = s.log := by obtain ⟨_, _, _, _, _, rfl⟩ := h; rfl
theorem cmds (h : MapOnly s t) : t.cmds = s.cmds := by obtain ⟨_, _, _, _, _, rfl⟩ := h; rfl
theorem group (h : MapOnly s t) : t.group = s.group := by obtain ⟨_, _, _, _, _, rfl⟩ := h; rfl

end MapOnly

theorem State.noteLost_mapOnly (s : State) : MapOnly s s.noteLost := by
  unfold State.noteLost
  refine .forEach s fun e t => ?_
  split
  · split
    · exact .write t _ _ _ _ _
    · exact .refl t
  · split
    · split
      · split
        · exact .refl t
        · exact .write t _ _ _ _ _
      · exact .refl t
    · exact .refl t

/-- What a site holds may move with it; no part of the panel but these knows of the map. -/
theorem State.applyMap_mapOnly (s : State) (m : GridMap) : MapOnly s (s.applyMap m) := by
  unfold State.applyMap
  split
  · exact .refl s
  · exact .trans (.write s _ _ _ _ _) (State.noteLost_mapOnly _)

theorem State.loadMap_mapOnly (s : State) : MapOnly s s.loadMap :=
  .trans (s.applyMap_mapOnly _) (.write _ _ _ _ _ _)

/-- The cores that a load leaves: each holds the program that the image gives it last. -/
def loadedCores (ps : List (Nat × List (BitVec 64))) : Tab Core := ps.foldl (fun t c => tset {} t c.1 { prog := c.2 }) []

/-- A loaded core holds the last of its programs, and nothing where there is none. -/
theorem tget_loadedCores (ps : List (Nat × List (BitVec 64))) (d : Nat) :
    tget {} (loadedCores ps) d = ((ps.filter (fun q => q.1 == d)).getLast?.map fun p => ({ prog := p.2 } : Core)).getD {} := by
  induction ps using List.reverseRecOn with
  | nil => rfl
  | append_singleton ps q ih =>
    rw [loadedCores, List.foldl_concat, ← loadedCores, tget_tset, ih, List.filter_append]
    by_cases hq : q.1 = d
    · simp [hq]
    · simp [hq, Ne.symm hq]

/-- The step as a load leaves it (R85). -/
def stepLoaded (st : Step) : Step :=
  { st with state := .idle, phase := .inputs, faults := [], reports := [], stop := none, replay := false, lastOverrun := [],
            startAt := none, flip := none, flipTag := none }

/-- The state `m` with what a load at `s` writes: the plan, the aliases, the cores and the step. -/
def loadedFrom (s m : State) (img : Img) : State :=
  { m with plan := some (planOf img), aliases := newAliases s.aliases (planOf img), cores := loadedCores (programsOf img), step := stepLoaded s.step }

/-- Besides these a load writes what a map and rows may write. -/
theorem State.applyPlan_eq (s : State) (img : Img) : ∃ m, MapOnly s m ∧ s.applyPlan img = loadedFrom s m img := by
  have hmap : MapOnly s (forEach (constantsOf img) (fun c s => s.writeRow (memRowAddr c.1 c.2.1) c.2.2 false) s.loadMap) :=
    .trans s.loadMap_mapOnly (.forEach _ fun c t => .write t _ _ _ _ _)
  refine ⟨_, hmap, ?_⟩
  obtain ⟨_, _, _, _, _, ht⟩ := hmap
  rw [State.applyPlan, ht]
  rfl

/-! ### One panel's load -/

/-- The state with the load of a command begun (R85; log entry 122). -/
def State.withLoading (s : State) (tag : Nat) : State := { s with cmds := { s.cmds with loading := some tag } }

/-- The aliases after a load: an old one with the same sides keeps its mapping (R77). -/
theorem loadedFrom_aliases (s m : State) (img : Img) (tag : Nat) :
    ((loadedFrom s m img).withLoading tag).aliases = newAliases s.aliases (planOf img) := rfl

/-- A core after a load: the last of its programs, and nothing where there is none. -/
theorem loadedFrom_core (s m : State) (img : Img) (tag d : Nat) :
    ((loadedFrom s m img).withLoading tag).core d =
      (((programsOf img).filter (fun q => q.1 == d)).getLast?.map fun p => ({ prog := p.2 } : Core)).getD {} :=
  tget_loadedCores (programsOf img) d

/-- An image that passes every check is loaded, and its command is under way. -/
theorem runPlanLoad_loads {s : State} {c : Cmd} {img : Img} (hgate : s.loadGate = 0) (hal : c.arg 0 8 % 64 = 0) (hlead : s.leads = false)
    (himg : s.hostBytes (c.arg 0 8) (c.arg 8 8) = img) (hpass : s.planChecks img = none) :
    runPlanLoad c s = (s.applyPlan img).withLoading c.tag := by
  simp only [runPlanLoad, hgate, hal, hlead, himg, State.loadImage, hpass, ne_eq, not_true_eq_false, Bool.false_eq_true, if_false, if_true]
  rfl

/-- An image that fails a check is refused with the check's status and DETAIL. -/
theorem runPlanLoad_fails {s : State} {c : Cmd} {img : Img} {f : Nat × Nat} (hgate : s.loadGate = 0) (hal : c.arg 0 8 % 64 = 0)
    (hlead : s.leads = false) (himg : s.hostBytes (c.arg 0 8) (c.arg 8 8) = img) (hfail : s.planChecks img = some f) :
    runPlanLoad c s = answered (s.noteRefusal f.1) c f.1 f.2 0 := by
  have hf : f.1 ≠ 0 := s.planChecks_refuses _ f hfail
  simp only [runPlanLoad, hgate, hal, hlead, himg, State.loadImage, hfail, ne_eq, not_true_eq_false, Bool.false_eq_true, if_false, if_neg hf]
  rfl

/-! ### Images in the tree -/

/-- The state with messages sent into the management tree, one after another. -/
def State.sentAll (s : State) (ms : List GroupMsg) : State :=
  { s with group := { s.group with sent := s.group.sent ++ ms, sentAt := s.group.sentAt ++ ms.map (fun _ => s.now) } }

theorem State.sentAll_nil (s : State) : s.sentAll [] = s := by simp [State.sentAll]

theorem State.sentAll_sentAll (s : State) (ms ns : List GroupMsg) : (s.sentAll ms).sentAll ns = s.sentAll (ms ++ ns) := by
  simp [State.sentAll, State.now]

theorem State.send_eq_sentAll (s : State) (m : GroupMsg) : s.send m = s.sentAll [m] := rfl

/-- Turns that each send what depends on no message sent before send it all. -/
theorem forEach_sentAll {β : Type} (xs : List β) (f : β → State → State) (ms : β → List GroupMsg) (s : State)
    (h : ∀ x ns, f x (s.sentAll ns) = (s.sentAll ns).sentAll (ms x)) : forEach xs f s = s.sentAll (xs.flatMap ms) := by
  suffices hall : ∀ ns, forEach xs f (s.sentAll ns) = s.sentAll (ns ++ xs.flatMap ms) by
    have := hall []
    rwa [State.sentAll_nil, List.nil_append] at this
  induction xs with
  | nil => simp
  | cons x xs ih =>
    intro ns
    rw [forEach_cons, h, State.sentAll_sentAll, ih, List.flatMap_cons, List.append_assoc]

/-- The tree depends on the settings, the role and the manager's slot alone. -/
theorem State.treeEdge_congr {s t : State} (hs : t.settings = s.settings) (hr : t.straps = s.straps) (hm : t.group.manager = s.group.manager) (g : Nat) :
    t.treeEdge g = s.treeEdge g := by
  have hset : ∀ k, t.setting k = s.setting k := fun k => by rw [State.setting, State.setting, hs, hr]
  have hsizes : t.groupSizes = s.groupSizes := List.map_congr_left fun i _ => hset _
  have hslot : t.groupSlot = s.groupSlot := hset _
  have hcoord : ∀ g i, t.coord g i = s.coord g i := fun g i => by simp only [State.coord, hsizes]
  have hnext : ∀ m h g, t.treeNext m h g = s.treeNext m h g := fun m h g => by
    simp only [State.treeNext, hcoord, hsizes]
  have hpath : ∀ n m g h, t.treePath m g n h = s.treePath m g n h := by
    intro n m g h
    induction n generalizing h with
    | zero => rfl
    | succ n ih => simp only [State.treePath, hnext, ih]
  have hmanager : t.managerSlot = s.managerSlot := by
    unfold State.managerSlot State.isManager
    rw [hslot, hr, hm]
  unfold State.treeEdge
  rw [hslot, hmanager, hpath, hnext]

/-- The tree edges that images take toward their slots. -/
def State.planEdges (s : State) (imgs : List (Nat × List Byte)) : List Nat :=
  imgs.foldl (fun es x => match s.treeEdge x.1 with | some e => insertNat e es | none => es) []

/-- The images that go down one edge, the same image once, with the slots that share it. -/
def State.edgeMessages (s : State) (imgs : List (Nat × List Byte)) (e : Nat) : List GroupMsg :=
  let mine := imgs.filter (fun x => s.treeEdge x.1 == some e)
  (mine.foldl (fun bs x => if bs.contains x.2 then bs else bs ++ [x.2]) []).map
    fun b => .planImage ((mine.filter (fun x => x.2 == b)).map (·.1)) b

/-- Distributing images sends each edge its messages, and does nothing else. -/
theorem State.distribute_eq (s : State) (imgs : List (Nat × List Byte)) :
    s.distribute imgs = s.sentAll ((s.planEdges imgs).flatMap (s.edgeMessages imgs)) := by
  refine forEach_sentAll _ _ (s.edgeMessages imgs) s fun e ns => ?_
  have hedge : ∀ g, (s.sentAll ns).treeEdge g = s.treeEdge g := State.treeEdge_congr rfl rfl rfl
  simp only [hedge]
  rw [forEach_sentAll (ms := fun b => [.planImage (((imgs.filter (fun x => s.treeEdge x.1 == some e)).filter (fun x => x.2 == b)).map (·.1)) b])]
  · exact congrArg _ List.map_eq_flatMap.symm
  · intro b ns'
    rw [State.send_eq_sentAll]

/-- What the turn of one element puts into a list, and every turn keeps there, the whole leaves in it. -/
theorem mem_foldl_of_turn {α β : Type} {f : List α → β → List α} {a : α} {x : β} {xs : List β} (hx : x ∈ xs) (hput : ∀ as, a ∈ f as x)
    (hkept : ∀ as y, a ∈ as → a ∈ f as y) (init : List α) : a ∈ xs.foldl f init := by
  obtain ⟨ys, zs, rfl⟩ := List.append_of_mem hx
  rw [List.foldl_append, List.foldl_cons]
  generalize hm : f _ x = m
  have ha : a ∈ m := hm ▸ hput _
  clear hm hx
  induction zs generalizing m with
  | nil => exact ha
  | cons z zs ih => exact ih _ (hkept m z ha)

/-- An edge that leads to the slot of an image is among those that images take. -/
theorem mem_planEdges {s : State} {imgs : List (Nat × List Byte)} {x : Nat × List Byte} {e : Nat} (hx : x ∈ imgs) (he : s.treeEdge x.1 = some e) :
    e ∈ s.planEdges imgs := by
  refine mem_foldl_of_turn hx (fun es => ?_) (fun es y h => ?_) []
  · rw [he]
    exact mem_insertNat.2 (.inl rfl)
  · split
    · exact mem_insertNat.2 (.inr h)
    · exact h

/-- Listing each image once leaves none out. -/
theorem mem_distinctImages {mine : List (Nat × List Byte)} {x : Nat × List Byte} (hx : x ∈ mine) :
    x.2 ∈ mine.foldl (fun bs x => if bs.contains x.2 then bs else bs ++ [x.2]) [] := by
  refine mem_foldl_of_turn hx (fun bs => ?_) (fun bs y h => ?_) []
  · split
    · next h => simpa using h
    · exact List.mem_append_right _ (List.mem_singleton_self _)
  · split
    · exact h
    · exact List.mem_append_left _ h

/-- An image whose slot lies beyond an edge goes down it, in a message that names the slot. -/
theorem planImage_mem_sent {s : State} {imgs : List (Nat × List Byte)} {g e : Nat} {b : List Byte} (hx : (g, b) ∈ imgs) (he : s.treeEdge g = some e) :
    ∃ slots, g ∈ slots ∧ GroupMsg.planImage slots b ∈ (s.distribute imgs).group.sent := by
  have hmine : (g, b) ∈ imgs.filter (fun x => s.treeEdge x.1 == some e) := List.mem_filter.2 ⟨hx, by simp [he]⟩
  refine ⟨_, List.mem_map_of_mem (f := (·.1)) (List.mem_filter (p := fun x => x.2 == b).2 ⟨hmine, beq_self_eq_true b⟩), ?_⟩
  rw [State.distribute_eq]
  exact List.mem_append_right _ (List.mem_flatMap.2 ⟨e, mem_planEdges hx he, List.mem_map_of_mem (mem_distinctImages hmine)⟩)

/-- At the manager, every other slot lies beyond an edge of the tree. -/
theorem State.treeEdge_of_manager {s : State} (h : s.isManager = true) {g : Nat} (hg : g ≠ s.groupSlot) : ∃ e, s.treeEdge g = some e := by
  have hroot : s.managerSlot = s.groupSlot := if_pos h
  refine ⟨_, if_pos ⟨hg, ?_⟩⟩
  rw [hroot, State.treePath]
  exact List.elem_cons_self

/-! ### A group's load -/

/-- A group's load is its manager's. -/
theorem runPlanLoad_group {s : State} {c : Cmd} (hgate : s.loadGate = 0) (hal : c.arg 0 8 % 64 = 0) (hlead : s.leads = true) :
    runPlanLoad c s = s.groupLoad c := by
  simp [runPlanLoad, hgate, hal, hlead]

/-- The manager's own image fails a check: the record names the manager's slot (R86). -/
theorem State.groupLoad_fails {s : State} {c : Cmd} {imgs : List Img} {f : Nat × Nat}
    (himgs : splitImages s.groupCount (s.hostBytes (c.arg 0 8) (c.arg 8 8)) = imgs) (hfail : s.planChecks (imgs.getD s.groupSlot []) = some f) :
    s.groupLoad c = (s.noteRefusal f.1).completeSlot c f.1 s.groupSlot f.2 := by
  rw [State.groupLoad, himgs, hfail]

/-- The manager as its own load has been written: it awaits the outcomes of the slots and keeps their images (R332). -/
def groupLoading (s m : State) (c : Cmd) (imgs : List Img) : State :=
  let t := loadedFrom s m (imgs.getD s.groupSlot [])
  { t with group := { t.group with loadWait := some (c.tag, []), images := (imgs.zip (List.range imgs.length)).map (fun p => (p.2, p.1)) } }

/-- The other slots of the group, each with its image. -/
def otherImages (s : State) (imgs : List Img) : List (Nat × Img) :=
  ((List.range s.groupCount).filter (· != s.groupSlot)).map (fun g => (g, imgs.getD g []))

/-- The manager's own image passes, and every slot has joined: the manager loads, and the images go out (R332). -/
theorem State.groupLoad_sends {s : State} {c : Cmd} {imgs : List Img}
    (himgs : splitImages s.groupCount (s.hostBytes (c.arg 0 8) (c.arg 8 8)) = imgs) (hjoined : s.allJoined = true)
    (hpass : s.planChecks (imgs.getD s.groupSlot []) = none) :
    ∃ m, MapOnly s m ∧ s.groupLoad c = (groupLoading s m c imgs).distribute (otherImages s imgs) := by
  obtain ⟨m, hm, hload⟩ := s.applyPlan_eq (imgs.getD s.groupSlot [])
  refine ⟨m, hm, ?_⟩
  rw [State.groupLoad, himgs, hpass]
  dsimp only
  rw [hjoined, hload]
  rfl

/-- Every other slot of the group is sent its image, in a message that names it. -/
theorem planImage_sent {s m : State} {c : Cmd} {imgs : List Img} (hm : MapOnly s m) (hlead : s.leads = true) {g : Nat} (hg : g < s.groupCount)
    (hslot : g ≠ s.groupSlot) :
    ∃ slots, g ∈ slots ∧
      GroupMsg.planImage slots (imgs.getD g []) ∈ ((groupLoading s m c imgs).distribute (otherImages s imgs)).group.sent := by
  rw [State.leads, Bool.and_eq_true] at hlead
  obtain ⟨hmanager, -⟩ := hlead
  obtain ⟨e, he⟩ := State.treeEdge_of_manager hmanager hslot
  have hroot : (groupLoading s m c imgs).group.manager = s.group.manager := by rw [← hm.group]; rfl
  have hedge : (groupLoading s m c imgs).treeEdge g = some e := (State.treeEdge_congr (t := groupLoading s m c imgs) hm.settings hm.straps hroot g).trans he
  have himage : (g, imgs.getD g []) ∈ otherImages s imgs :=
    List.mem_map.2 ⟨g, List.mem_filter.2 ⟨List.mem_range.2 hg, by simpa using hslot⟩, rfl⟩
  exact planImage_mem_sent himage hedge

/-! ### How a load ends -/

/-- With no load under way a tick ends none. -/
theorem State.finishLoad_of_none {s : State} (h : s.cmds.loading = none) : s.finishLoad = s := by
  have hcmds : ({ s.cmds with loading := none } : Cmds) = s.cmds := by rw [← h]
  simp [State.finishLoad, h, hcmds]

/-- A load that has begun completes with success (R85). -/
theorem State.finishLoad_of_some {s : State} {tag : Nat} {c : Cmd} (h : s.cmds.loading = some tag) (hc : s.cmdOf tag = some c) :
    s.finishLoad = answered { s with cmds := { s.cmds with loading := none } } c 0 0 0 := by
  unfold State.finishLoad
  rw [h, Option.bind_some, hc]
  rfl

/-- Discarding the plan writes the plan, the step and the group. -/
theorem State.discardPlan_eq (s : State) : ∃ st g, s.discardPlan = { s with plan := none, step := st, group := g } := by
  unfold State.discardPlan
  dsimp only
  split
  · exact ⟨_, _, rfl⟩
  · exact ⟨_, _, rfl⟩

/-- The coolant-loss response ends a load that has begun with 0x020C and no plan, and keeps the aliases (R450, Table 13.4). -/
theorem State.stopLoad_of_some {s : State} {tag : Nat} {c : Cmd} (h : s.cmds.loading = some tag) (hc : s.cmdOf tag = some c) :
    ∃ r, s.stopLoad.log.waiting = s.log.waiting ++ [r] ∧ r.tag = c.tag ∧ r.status = 0x20C ∧ s.stopLoad.cmds.loading = none ∧
      s.stopLoad.plan = none ∧ s.stopLoad.aliases = s.aliases := by
  obtain ⟨st, g, hd⟩ := State.discardPlan_eq { s with
    cmds := { s.cmds with loading := none }, group := { s.group with loadWait := none, images := [] } }
  unfold State.stopLoad
  rw [h, Option.some_or, Option.bind_some, hc]
  dsimp only
  rw [hd]
  exact ⟨_, rfl, rfl, rfl, rfl, rfl, rfl⟩

/-- Settles O32: the command runs in its lane; what a load writes, what it sends, and how it ends are the laws above. -/
theorem planLoads : Obligations.PlanLoads := by
  unfold Obligations.PlanLoads
  refine ⟨?alone, ?group, ?ends, fun s h => State.finishLoad_of_none h⟩
  case alone =>
    intro slot s c t img ha hl hgate hal hlead
    have hrun : runControl c t = runPlanLoad c t := by simp [runControl, theCmd_opcode ha, c]
    have himg : t.hostBytes (c.arg 0 8) (c.arg 8 8) = img := rfl
    refine ⟨_, acceptAs_control (by decide) ha hl, ?_⟩
    rw [hrun]
    refine ⟨fun hpass => ?_, fun f hfail => runPlanLoad_fails hgate hal hlead himg hfail⟩
    rw [runPlanLoad_loads hgate hal hlead himg hpass]
    obtain ⟨m, hm, hload⟩ := t.applyPlan_eq img
    rw [hload]
    have haliases : t.aliases = s.aliases := rfl
    refine ⟨rfl, ?_, rfl, rfl, fun p hp => ?_, fun d hd => ?_, hm.settings, rfl, congrArg Log.waiting hm.log⟩
    · rw [loadedFrom_aliases, haliases]
    · rw [loadedFrom_core, hp]
      rfl
    · rw [loadedFrom_core, List.filter_eq_nil_iff.2 fun q hq => by simpa using hd q hq]
      rfl
  case group =>
    intro slot s c t imgs own ha hl hgate hal hlead hjoined
    have hrun : runControl c t = t.groupLoad c := by simp [runControl, theCmd_opcode ha, c, runPlanLoad_group hgate hal hlead]
    have himgs : splitImages t.groupCount (t.hostBytes (c.arg 0 8) (c.arg 8 8)) = imgs := rfl
    refine ⟨_, acceptAs_control (by decide) ha hl, ?_⟩
    rw [hrun]
    refine ⟨fun hpass => ?_, fun f hfail => State.groupLoad_fails himgs hfail⟩
    obtain ⟨m, hm, hload⟩ := State.groupLoad_sends himgs hjoined hpass
    rw [hload]
    refine ⟨by rw [State.distribute_eq]; rfl, by rw [State.distribute_eq]; rfl, fun g hg hslot => planImage_sent hm hlead hg hslot⟩
  case ends => exact fun tag c s h hc => ⟨State.finishLoad_of_some h hc, State.stopLoad_of_some h hc⟩

end Sys2Proof.Machine
end

section
/-! PROOF. Running the lanes takes back no record that waits to be written: whatever commands start, the records that waited before them wait still, in their order
(09 R350, R360). -/

namespace Sys2Proof.Machine

/-- The records that wait in `s` wait in `t`, others behind them. -/
def LogGrows (s t : State) : Prop := s.log.waiting <+: t.log.waiting

namespace LogGrows

variable {s t u : State}

theorem of_log (h : t.log = s.log) : LogGrows s t := by rw [LogGrows, h]

theorem refl (s : State) : LogGrows s s := of_log rfl

theorem trans (h : LogGrows s t) (h' : LogGrows t u) : LogGrows s u := List.IsPrefix.trans h h'

/-- What grows from a state grows from every state with the same log. -/
theorem after (h : LogGrows t u) (hlog : t.log = s.log) : LogGrows s u := (of_log hlog).trans h

theorem mem (h : LogGrows s t) {r : Rec} (hr : r ∈ s.log.waiting) : r ∈ t.log.waiting := h.subset hr

theorem ite {p : Prop} [Decidable p] (ht : LogGrows s t) (hu : LogGrows s u) : LogGrows s (if p then t else u) := by
  split
  · exact ht
  · exact hu

theorem forEach {β : Type} {xs : List β} {f : β → State → State} (s : State) (h : ∀ x t, LogGrows t (f x t)) : LogGrows s (forEach xs f s) :=
  forEach_holds (LogGrows s) xs f s (.refl s) fun x t ht => ht.trans (h x t)

end LogGrows

theorem MapOnly.logGrows {s t : State} (h : MapOnly s t) : LogGrows s t := .of_log h.log

/-! ### Records -/

theorem State.pushRec_logGrows (s : State) (r : Rec) : LogGrows s (s.pushRec r) := List.prefix_append _ _

theorem State.event_logGrows (s : State) (code detail : Nat) (fault : Bool) : LogGrows s (s.event code detail fault) :=
  .ite (List.prefix_refl _) (s.pushRec_logGrows _)

theorem State.addError_logGrows (s : State) (e : ErrIn) : LogGrows s (s.addError e) := by
  unfold State.addError
  dsimp only
  split
  · exact .of_log rfl
  · generalize hs1 : ({ s with units := _ } : State) = s1
    have hlog : s1.log = s.log := by rw [← hs1]
    exact (s1.event_logGrows _ _ _).after hlog

theorem State.noteRefusal_logGrows (s : State) (status : Nat) : LogGrows s (s.noteRefusal status) := .ite (s.addError_logGrows _) (.refl s)

theorem State.failStep_logGrows (s : State) (frame status core detail : Nat) : LogGrows s (s.failStep frame status core detail) :=
  .ite (.of_log rfl) (.refl s)

theorem State.failWith_logGrows (s : State) (e : ErrIn) (detail : Nat) : LogGrows s (s.failWith e detail) :=
  .ite ((s.addError_logGrows _).trans (State.failStep_logGrows _ _ _ _ _)) (.refl s)

theorem State.completeAt_logGrows (s : State) (c : Cmd) (t status slot detail result xferWord flags : Nat) :
    LogGrows s (s.completeAt c t status slot detail result xferWord flags) := s.pushRec_logGrows _

theorem State.complete_logGrows (s : State) (c : Cmd) (status detail result : Nat) : LogGrows s (s.complete c status detail result) :=
  s.pushRec_logGrows _

theorem State.completeSlot_logGrows (s : State) (c : Cmd) (status slot detail : Nat) : LogGrows s (s.completeSlot c status slot detail) :=
  s.pushRec_logGrows _

/-- A completion record behind records that have grown. -/
theorem LogGrows.complete {s t : State} (h : LogGrows s t) (c : Cmd) (status detail result : Nat) : LogGrows s (t.complete c status detail result) :=
  h.trans (t.complete_logGrows c status detail result)

/-- A completion record with a slot behind records that have grown. -/
theorem LogGrows.completeSlot {s t : State} (h : LogGrows s t) (c : Cmd) (status slot detail : Nat) :
    LogGrows s (t.completeSlot c status slot detail) :=
  h.trans (t.completeSlot_logGrows c status slot detail)

/-! ### Settings -/

theorem State.syncPorts_logGrows (s : State) : LogGrows s s.syncPorts :=
  .forEach s fun _ _ => .ite (.of_log rfl) (.ite (.of_log rfl) (.refl _))

theorem State.commitProfile_logGrows (s : State) (p : Nat) : LogGrows s (s.commitProfile p) :=
  .ite (.of_log rfl) (.ite (.of_log rfl) (.of_log rfl))

theorem State.applySettings_logGrows (s : State) (es : List StagedEntry) : LogGrows s (s.applySettings es) := by
  unfold State.applySettings
  extract_lets s1 _thermal s0 s2 s3 _power s4
  have h1 : LogGrows s s1 := .forEach s fun _ _ => .of_log rfl
  have h0 : LogGrows s1 s0 := .ite (.of_log rfl) (.refl s1)
  have h2 : LogGrows s0 s2 := .ite (s0.commitProfile_logGrows _) (.refl s0)
  have h3 : LogGrows s2 s3 := .ite (.of_log rfl) (.refl s2)
  have h4 : LogGrows s3 s4 := .ite (.of_log rfl) (.refl s3)
  exact (h1.trans (h0.trans (h2.trans (h3.trans h4)))).trans (.ite s4.syncPorts_logGrows (.refl s4))

theorem runStage_logGrows (c : Cmd) (s : State) : LogGrows s (runStage c s) :=
  .ite (s.complete_logGrows _ _ _ _) (.ite (s.complete_logGrows _ _ _ _) (.ite (s.complete_logGrows _ _ _ _) (.complete (.of_log rfl) _ _ _ _)))

theorem runProof_logGrows (c : Cmd) (s : State) : LogGrows s (runProof c s) := by
  refine .ite (s.complete_logGrows _ _ _ _) ?_
  split
  · exact s.complete_logGrows _ _ _ _
  · exact .complete (.of_log rfl) _ _ _ _

theorem runCommit_logGrows (c : Cmd) (s : State) : LogGrows s (runCommit c s) := by
  unfold runCommit
  extract_lets es
  refine .ite (s.complete_logGrows _ _ _ _) ?_
  split
  · exact s.complete_logGrows _ _ _ _
  · have happly (st : Settings) : LogGrows s (State.applySettings { s with settings := st } es) := (State.applySettings_logGrows _ es).after rfl
    refine .ite ((happly _).complete _ _ _ _) ?_
    exact .ite (s.complete_logGrows _ _ _ _) (.ite (.of_log rfl) (.of_log rfl))

/-! ### Plans and steps -/

theorem State.applyPlan_logGrows (s : State) (img : Img) : LogGrows s (s.applyPlan img) := by
  obtain ⟨m, hm, hload⟩ := s.applyPlan_eq img
  rw [hload]
  exact hm.logGrows

theorem State.distribute_logGrows (s : State) (imgs : List (Nat × List Byte)) : LogGrows s (s.distribute imgs) := by
  rw [State.distribute_eq]
  exact .of_log rfl

theorem State.groupLoad_logGrows (s : State) (c : Cmd) : LogGrows s (s.groupLoad c) := by
  unfold State.groupLoad
  extract_lets imgs slots s1
  split
  · exact .completeSlot (s.noteRefusal_logGrows _) _ _ _ _
  · refine .ite (s.completeSlot_logGrows _ _ _ _) ?_
    have hload : LogGrows s s1 := s.applyPlan_logGrows _
    clear_value s1
    exact hload.trans ((State.distribute_logGrows _ _).after rfl)

theorem State.loadImage_logGrows (s : State) (img : Img) : LogGrows s (s.loadImage img).2 := by
  unfold State.loadImage
  split
  · exact s.noteRefusal_logGrows _
  · exact s.applyPlan_logGrows _

theorem runPlanLoad_logGrows (c : Cmd) (s : State) : LogGrows s (runPlanLoad c s) :=
  .ite (s.complete_logGrows _ _ _ _) (.ite (s.complete_logGrows _ _ _ _) (.ite (s.groupLoad_logGrows c)
    (.ite (s.loadImage_logGrows _) (.complete (s.loadImage_logGrows _) _ _ _ _))))

theorem State.beginRun_logGrows (s : State) (c : Cmd) (st : Step) : LogGrows s (s.beginRun c st) := by
  obtain ⟨g, hg⟩ := s.beginRun_eq c st
  rw [hg]
  exact .of_log rfl

theorem runStepStart_logGrows (c : Cmd) (s : State) : LogGrows s (runStepStart c s) := by
  unfold runStepStart
  split
  · exact s.completeSlot_logGrows _ _ _ _
  · exact s.beginRun_logGrows _ _

theorem State.fixFlip_logGrows (s : State) (tag : Option Nat) : LogGrows s (s.fixFlip tag) := .ite (.of_log rfl) (.of_log rfl)

theorem runStepCommit_logGrows (c : Cmd) (s : State) : LogGrows s (runStepCommit c s) := by
  refine .ite (s.complete_logGrows _ _ _ _) ?_
  split
  case h_3 => exact .ite (s.complete_logGrows _ _ _ _) (s.fixFlip_logGrows _)
  all_goals exact s.complete_logGrows _ _ _ _

theorem runStepReplay_logGrows (c : Cmd) (s : State) : LogGrows s (runStepReplay c s) := by
  refine .ite (s.complete_logGrows _ _ _ _) ?_
  dsimp only
  split
  case h_5 | h_6 =>
    split
    · exact s.complete_logGrows _ _ _ _
    · refine .ite (s.complete_logGrows _ _ _ _) ?_
      split
      · exact s.completeSlot_logGrows _ _ _ _
      · exact s.beginRun_logGrows _ _
  all_goals exact s.complete_logGrows _ _ _ _

/-! ### Transfers -/

theorem State.endStepXfer_logGrows (s : State) (x : Xfer) : LogGrows s (s.endStepXfer x) := .ite (s.failWith_logGrows _ _) (.refl s)

theorem State.endXfer_logGrows (s : State) (x : Xfer) : LogGrows s (s.endXfer x) := by
  unfold State.endXfer
  dsimp only
  split
  · split
    · exact (State.endStepXfer_logGrows _ x).after rfl
    · exact (State.completeAt_logGrows _ _ _ _ _ _ _ _ _).after rfl
  · exact .of_log rfl

theorem State.abortXfer_logGrows (s : State) (x : Xfer) (status err : Nat) : LogGrows s (s.abortXfer x status err) :=
  (State.endXfer_logGrows (s.dropPieces x) _).after rfl

theorem State.startXfer_logGrows (s : State) (c : Cmd) (write : Bool) : LogGrows s (s.startXfer c write) := by
  unfold State.startXfer
  split
  · exact s.complete_logGrows _ _ _ _
  · exact .ite (s.completeAt_logGrows _ _ _ _ _ _ _ _) (.of_log rfl)

theorem State.sendCopies_logGrows (c : Cmd) (ks : List Nat) (s : State) : LogGrows s (State.sendCopies c ks s).2 := by
  induction ks generalizing s with
  | nil => exact .refl s
  | cons k ks ih => exact ih (s.sendCopy _ _ _ _).2

theorem runGroupCopy_logGrows (c : Cmd) (s : State) : LogGrows s (runGroupCopy c s) := by
  unfold runGroupCopy
  split
  · exact s.complete_logGrows _ _ _ _
  · exact .ite (s.complete_logGrows _ _ _ _) (State.sendCopies_logGrows _ _ _)

theorem runTransfer_logGrows (c : Cmd) (s : State) : LogGrows s (runTransfer c s) := by
  unfold runTransfer
  split
  · exact s.startXfer_logGrows _ _
  · exact s.startXfer_logGrows _ _
  · exact runGroupCopy_logGrows _ _
  · exact .refl s

/-! ### Ports, resets and security -/

theorem State.relayDone_logGrows (s : State) (slot seq status detail result : Nat) : LogGrows s (s.relayDone slot seq status detail result) := by
  unfold State.relayDone
  split
  · exact .refl s
  · exact State.completeAt_logGrows _ _ _ _ _ _ _ _ _

theorem State.answerRelay_logGrows (s : State) (seq status detail result : Nat) : LogGrows s (s.answerRelay seq status detail result) :=
  .ite (s.relayDone_logGrows _ _ _ _ _) (.of_log rfl)

theorem State.answer_logGrows (s : State) (c : Cmd) (status detail result : Nat) : LogGrows s (s.answer c status detail result) :=
  .ite (s.answerRelay_logGrows _ _ _ _) (s.complete_logGrows _ _ _ _)

theorem State.settleRetrains_logGrows (s : State) : LogGrows s s.settleRetrains := by
  unfold State.settleRetrains
  refine LogGrows.after (LogGrows.forEach _ fun r t => ?_) rfl
  refine .ite (t.answerRelay_logGrows _ _ _ _) ?_
  split
  · exact .refl t
  · exact t.complete_logGrows _ _ _ _

theorem State.portState_logGrows (s : State) (p st : Nat) : LogGrows s (s.portState p st) := by
  unfold State.portState
  extract_lets q s1
  have h1 : LogGrows s s1 := (State.event_logGrows (s.modPort p _) _ _ _).after rfl
  exact .ite (.refl s) (.ite (h1.trans (s1.failWith_logGrows _ _)) h1)

theorem State.startTraining_logGrows (s : State) (p : Nat) : LogGrows s (s.startTraining p) :=
  ((State.portState_logGrows (s.modPort p _) p 2).after rfl).trans (State.settleRetrains_logGrows _)

theorem runZlRetrain_logGrows (c : Cmd) (s : State) : LogGrows s (runZlRetrain c s) := by
  unfold runZlRetrain
  dsimp only
  refine .trans ?_ (State.settleRetrains_logGrows _)
  exact (LogGrows.forEach _ fun p t => t.startTraining_logGrows p).after rfl

theorem runWindowOpen_logGrows (c : Cmd) (s : State) : LogGrows s (runWindowOpen c s) := by
  unfold runWindowOpen
  split
  · exact s.answer_logGrows _ _ _ _
  · exact (State.answer_logGrows _ _ _ _ _).after rfl

theorem runWindowClose_logGrows (c : Cmd) (s : State) : LogGrows s (runWindowClose c s) := by
  unfold runWindowClose
  exact (State.answer_logGrows _ _ _ _ _).after rfl

theorem runComputeReset_logGrows (c : Cmd) (s : State) : LogGrows s (runComputeReset c s) := .ite (s.complete_logGrows _ _ _ _) (.of_log rfl)

theorem runPanelReset_logGrows (c : Cmd) (s : State) : LogGrows s (runPanelReset c s) := by
  unfold runPanelReset
  dsimp only
  generalize hs1 : forEach _ _ ({ s with cmds := _ } : State) = s1
  have h1 : LogGrows s s1 := hs1 ▸ (LogGrows.forEach _ fun x t => t.abortXfer_logGrows x _ _).after rfl
  exact .complete (h1.trans (.forEach s1 fun d t => t.complete_logGrows _ _ _ _)) _ _ _ _

theorem runKeyAdd_logGrows (c : Cmd) (s : State) : LogGrows s (runKeyAdd c s) := by
  unfold runKeyAdd
  split
  · exact s.complete_logGrows _ _ _ _
  · exact .ite (.complete (.of_log rfl) _ _ _ _) (.complete (s.noteRefusal_logGrows _) _ _ _ _)

theorem runDebugUnlock_logGrows (c : Cmd) (s : State) : LogGrows s (runDebugUnlock c s) := by
  unfold runDebugUnlock
  split
  · exact s.complete_logGrows _ _ _ _
  · exact .ite (.complete (.of_log rfl) _ _ _ _) (.ite (.complete (.of_log rfl) _ _ _ _) (.complete (s.noteRefusal_logGrows _) _ _ _ _))

theorem runFwUpdate_logGrows (c : Cmd) (s : State) : LogGrows s (runFwUpdate c s) := by
  unfold runFwUpdate
  extract_lets img
  split
  · exact .complete (s.noteRefusal_logGrows _) _ _ _ _
  · exact .complete (.of_log rfl) _ _ _ _

/-! ### The lanes -/

theorem runControl_logGrows (c : Cmd) (s : State) : LogGrows s (runControl c s) := by
  unfold runControl
  split
  · exact runStage_logGrows c s
  · exact runProof_logGrows c s
  · exact runCommit_logGrows c s
  · exact runPlanLoad_logGrows c s
  · exact runStepStart_logGrows c s
  · exact runStepCommit_logGrows c s
  · exact runStepReplay_logGrows c s
  · exact runKeyAdd_logGrows c s
  · exact runDebugUnlock_logGrows c s
  · exact runFwUpdate_logGrows c s
  · exact runComputeReset_logGrows c s
  · exact runPanelReset_logGrows c s
  · exact runZlRetrain_logGrows c s
  · exact runWindowOpen_logGrows c s
  · exact runWindowClose_logGrows c s
  · exact .refl s

theorem State.relayOut_logGrows (s : State) (c : Cmd) : LogGrows s (s.relayOut c) := by
  unfold State.relayOut
  dsimp only
  exact .ite ((runControl_logGrows _ _).after rfl) (.of_log rfl)

theorem State.startControl_logGrows (s : State) (c : Cmd) : LogGrows s (s.startControl c) := by
  unfold State.startControl
  dsimp only
  exact .ite ((runControl_logGrows _ _).after rfl) ((State.relayOut_logGrows _ _).after rfl)

theorem State.runLane_logGrows (n : Nat) (s : State) : LogGrows s (State.runLane n s) := by
  induction n generalizing s with
  | zero => exact .refl s
  | succ n ih =>
    unfold State.runLane
    split
    · exact .refl s
    · refine .ite (.refl s) (.trans ?_ (ih _))
      exact (State.startControl_logGrows _ _).after rfl

theorem State.runTransfers_logGrows (cs : List Cmd) (s : State) : LogGrows s (State.runTransfers cs s) := by
  induction cs generalizing s with
  | nil => exact .refl s
  | cons c cs ih =>
    unfold State.runTransfers
    refine .ite (.refl s) (.ite (ih s) (.trans ?_ (ih _)))
    exact (runTransfer_logGrows _ _).after rfl

/-- What waits to be written before the lanes run waits after. -/
theorem State.runLanes_logGrows (s : State) : LogGrows s s.runLanes := (State.runLane_logGrows _ s).trans (State.runTransfers_logGrows _ _)

end Sys2Proof.Machine
end

section
/-! PROOF. A tick at which a manager's step has failed and its group grows (02 R49, R61; 10 R379). The tick takes pending commits before it looks at the run, so a
panel that led no group before the tick may lead one when its failed run is looked at. Its failure is then ordered as a stop of the group, two periods on, and the run
does not end at this tick. -/

namespace Sys2Proof.Machine

/-- The COMMIT that waits for the tick, and the STEP_START whose run has failed. -/
def growingCommit : Cmd := { opcode := 0x103, tag := 8, flags := 0, len := 8, payAddr := 0, dest := 0xFFFF, payload := [], seq := 1 }
def growingStart : Cmd := { opcode := 0x202, tag := 9, flags := 0, len := 24, payAddr := 0, dest := 0xFFFF, payload := [], seq := 2 }

/-- A manager of a group of one with a step in its frames, which has failed with 0x040B and whose plan is discarded. At the tick of 10,500,000 ns a COMMIT is due that
sets the group's first size to 2, which no plan bars. -/
def growingGroup : State :=
  { State.reset with
    straps := { role := 1, profile := 0, boot := 0, hlw := false, id := 0 }
    clock := { timebase := 10120000, counting := true, lastTick := 10000000, nextTick := some 10500000 }
    settings := { pendingCommit := some { entries := [{ key := keyGroupSize 0, op := 0, rsv := 0, value := 2 }], tick := 10400000, tag := some 8 } }
    step := { state := .running, phase := .frames, tag := 9, faults := [{ frame := 1, status := 0x40B, core := 0xFFFF, detail := 0 }] }
    cmds := { inflight := [growingCommit, growingStart] } }

/-- Places in the order of acceptance whose records wait after a step. -/
def seqsWaiting (o : Out) : List Nat :=
  match o with
  | .next t => t.log.waiting.map (·.seq)
  | _ => []

/-- The tick answers the COMMIT alone. -/
theorem growingGroup_tick : seqsWaiting (exec .frameTick growingGroup) = [1] := by decide +kernel

/-- Refutes O49: by its first clause the run of `growingGroup`, which leads no group, ends at the tick with the record of its STEP_START. The tick makes the record of
the COMMIT alone, and the lanes that run last take back none. -/
theorem not_ticksAndSteps : ¬ Obligations.TicksAndSteps := by
  unfold Obligations.TicksAndSteps
  rintro ⟨htick, -⟩
  obtain ⟨-, -, -, -, -, -, v, -, hexec, -, -, -, -, -, -, -, -, -, hfailed⟩ := htick growingGroup 10500000 rfl
  obtain ⟨-, r, hr, hseq, -, -⟩ := hfailed growingStart rfl (by decide) (by decide +kernel) rfl rfl rfl rfl rfl
  have hwaits : r.seq ∈ seqsWaiting (exec .frameTick growingGroup) := by
    rw [hexec]
    exact List.mem_map_of_mem (v.runLanes_logGrows.mem hr)
  rw [growingGroup_tick, hseq] at hwaits
  exact absurd hwaits (by decide)

end Sys2Proof.Machine
end

section
/-! PROOF. What raising a fault and consuming poison write: error records, the log and the running step's failures (04 R212, R215; 15 R489, R491). -/

namespace Sys2Proof.Machine

/-- `t` differs from `s` in the error records, the log and the running step's failures alone. -/
def FailuresOnly (s t : State) : Prop :=
  ∃ es n d r l fs, t = { s with
    units := { s.units with errors := es, seq := n, dropped := d, raised := r }, log := l, step := { s.step with faults := fs } }

namespace FailuresOnly

variable {s t u : State}

theorem write (s : State) (es : List ErrRec) (n d : Nat) (r : Bool) (l : Log) (fs : List StepFault) :
    FailuresOnly s { s with
      units := { s.units with errors := es, seq := n, dropped := d, raised := r }, log := l, step := { s.step with faults := fs } } :=
  ⟨es, n, d, r, l, fs, rfl⟩

theorem refl (s : State) : FailuresOnly s s := write s _ _ _ _ _ _

theorem trans (h : FailuresOnly s t) (h' : FailuresOnly t u) : FailuresOnly s u := by
  obtain ⟨_, _, _, _, _, _, rfl⟩ := h
  obtain ⟨_, _, _, _, _, _, rfl⟩ := h'
  exact write s _ _ _ _ _ _

theorem forEach {β : Type} {xs : List β} {f : β → State → State} (s : State) (h : ∀ x t, FailuresOnly t (f x t)) : FailuresOnly s (forEach xs f s) :=
  forEach_holds (FailuresOnly s) xs f s (.refl s) fun x t ht => ht.trans (h x t)

theorem mem (h : FailuresOnly s t) : t.mem = s.mem := by obtain ⟨_, _, _, _, _, _, rfl⟩ := h; rfl
theorem poison (h : FailuresOnly s t) : t.poison = s.poison := by obtain ⟨_, _, _, _, _, _, rfl⟩ := h; rfl
theorem cores (h : FailuresOnly s t) : t.cores = s.cores := by obtain ⟨_, _, _, _, _, _, rfl⟩ := h; rfl
theorem fabric (h : FailuresOnly s t) : t.fabric = s.fabric := by obtain ⟨_, _, _, _, _, _, rfl⟩ := h; rfl
theorem plan (h : FailuresOnly s t) : t.plan = s.plan := by obtain ⟨_, _, _, _, _, _, rfl⟩ := h; rfl
theorem stepState (h : FailuresOnly s t) : t.step.state = s.step.state := by obtain ⟨_, _, _, _, _, _, rfl⟩ := h; rfl
theorem siteOf (h : FailuresOnly s t) (d : Nat) : t.siteOf d = s.siteOf d := by obtain ⟨_, _, _, _, _, _, rfl⟩ := h; rfl

theorem core (h : FailuresOnly s t) (c : Nat) : t.core c = s.core c := by unfold State.core; rw [h.cores]
theorem isRunning (h : FailuresOnly s t) : t.isRunning = s.isRunning := by unfold State.isRunning; rw [h.stepState]

end FailuresOnly

theorem State.event_eq (s : State) (code detail : Nat) (fault : Bool) : ∃ l, s.event code detail fault = { s with log := l } := by
  unfold State.event
  split <;> exact ⟨_, rfl⟩

theorem State.addError_failuresOnly (s : State) (e : ErrIn) : FailuresOnly s (s.addError e) := by
  unfold State.addError
  extract_lets full kept units s1 s2
  split
  · exact .write s _ _ _ _ _ _
  · obtain ⟨l, hl⟩ := s1.event_eq 0xE001 s1.units.errors.length (e.cls == 1)
    show FailuresOnly s { s2 with units := { s2.units with raised := true } }
    rw [show s2 = { s1 with log := l } from hl]
    exact .write s _ _ _ _ _ _

theorem State.failStep_failuresOnly (s : State) (frame status core detail : Nat) : FailuresOnly s (s.failStep frame status core detail) := by
  unfold State.failStep
  split
  · exact .write s _ _ _ _ _ _
  · exact .refl s

theorem State.poisonRead_failuresOnly (s : State) (core : Nat) (e : ErrIn) : FailuresOnly s (s.poisonRead core e) := by
  unfold State.poisonRead
  split
  · exact (s.addError_failuresOnly _).trans (State.failStep_failuresOnly _ _ _ _ _)
  · exact .refl s

theorem State.consumePoison_failuresOnly (s : State) (core cycle : Nat) (t : Target) : FailuresOnly s (s.consumePoison core cycle t) := by
  unfold State.consumePoison
  split
  · exact s.poisonRead_failuresOnly _ _
  · exact .refl s

theorem State.accRead_failuresOnly (s : State) (c cycle : Nat) (rows : List Nat) : FailuresOnly s (s.accRead c cycle rows) :=
  .forEach s fun _ t => t.poisonRead_failuresOnly _ _

@[simp] theorem State.accRead_nil (s : State) (c cycle : Nat) : s.accRead c cycle [] = s := rfl

/-! ### Core faults -/

/-- A core's own fault is latched in the core; else it leaves records and the step's failure (R215). -/
theorem State.coreFault_own (s : State) (c : Nat) (kind : CoreFaultKind) (pc : Nat) (word : BitVec 64) (cycle reporter : Nat) :
    FailuresOnly (s.setCore c ((s.core c).latchFault kind pc word cycle)) (s.coreFault c kind pc word cycle reporter none) := by
  unfold State.coreFault
  exact (State.addError_failuresOnly _ _).trans (State.failStep_failuresOnly _ _ _ _ _)

/-- A fault that a receiving die raises is latched by its agent, and the core stops; else it leaves records and the step's failure (R215). -/
theorem State.coreFault_agent (s : State) (c : Nat) (kind : CoreFaultKind) (pc : Nat) (word : BitVec 64) (cycle reporter place : Nat) :
    ∃ l, FailuresOnly ((s.setCore c { s.core c with mode := .faulted }).latchAgent place l) (s.coreFault c kind pc word cycle reporter (some place)) := by
  unfold State.coreFault
  exact ⟨_, (State.addError_failuresOnly _ _).trans (State.failStep_failuresOnly _ _ _ _ _)⟩

/-- While a step runs a core fault is one of its failures (R216). -/
theorem State.coreFault_fails {s : State} (hrun : s.isRunning = true) (c : Nat) (kind : CoreFaultKind) (pc : Nat) (word : BitVec 64)
    (cycle reporter : Nat) :
    { frame := (s.core c).frame, status := coreFaultStatus kind, core := c, detail := coreDetail (s.core c).frame c } ∈
      (s.coreFault c kind pc word cycle reporter none).step.faults := by
  unfold State.coreFault
  extract_lets k s1 s2
  have h2 : s2.isRunning = true := by
    rw [((s1.addError_failuresOnly _).isRunning : s2.isRunning = s1.isRunning)]
    exact hrun
  rw [State.failStep_running h2]
  exact List.mem_append_right _ (List.mem_singleton.2 rfl)

end Sys2Proof.Machine
end

section
/-! PROOF. What the accesses of a cluster's instructions leave of the plan and the step's state, and a cluster with none to come (06 R221 to R229). -/

namespace Sys2Proof.Machine

/-! ### The plan and the step's state -/

/-- What the protection of resident rows depends on (R78). -/
def State.guard (s : State) : Option Plan × StepState := (s.plan, s.step.state)

theorem FailuresOnly.guard {s t : State} (h : FailuresOnly s t) : t.guard = s.guard := by unfold State.guard; rw [h.plan, h.stepState]

theorem State.isRunning_of_guard {s t : State} (h : t.guard = s.guard) : t.isRunning = s.isRunning :=
  congrArg (fun g : Option Plan × StepState => g.2 == .running) h

theorem State.residentRows_of_guard {s t : State} (h : t.guard = s.guard) (m : Nat) : t.residentRows m = s.residentRows m := by
  have hplan : t.plan = s.plan := congrArg Prod.fst h
  unfold State.residentRows
  rw [hplan]

@[simp] theorem State.guard_setCore (s : State) (c : Nat) (k : Core) : (s.setCore c k).guard = s.guard := rfl

@[simp] theorem State.guard_readAct (s : State) (c i : Nat) (a : Act) : (s.readAct c i a).guard = s.guard := by
  unfold State.readAct
  split <;> exact (s.consumePoison_failuresOnly _ _ _).guard

@[simp] theorem State.guard_writeAct (s : State) (c i : Nat) (a : Act) : (s.writeAct c i a).guard = s.guard := by
  unfold State.writeAct
  split
  · rfl
  · exact (s.accRead_failuresOnly _ _ _).guard

theorem State.guard_cycleAt (s : State) (ci x : Nat) : (s.cycleAt ci x).guard = s.guard := by
  unfold State.cycleAt
  extract_lets cls s1 s2
  have h1 : s1.guard = s.guard := forEach_keeps State.guard _ _ _ fun _ _ => forEach_keeps _ _ _ _ fun _ _ => State.guard_readAct _ _ _ _
  have h2 : s2.guard = s1.guard := forEach_keeps State.guard _ _ _ fun _ _ => forEach_keeps _ _ _ _ fun _ _ => State.guard_writeAct _ _ _ _
  refine (forEach_keeps State.guard _ _ _ fun c t => ?_).trans (h2.trans h1)
  exact (State.accRead_failuresOnly _ _ _ _).guard.trans (t.guard_setCore _ _)

/-- What every cycle of a cluster keeps, its cycles together keep. -/
theorem State.runWhile_keeps {α : Type} (g : State → α) (ci : Nat) (until_ : State → Nat) (n : Nat) (s : State)
    (h : ∀ s x, g (s.cycleAt ci x) = g s) : g (State.runWhile ci until_ n s) = g s := by
  induction n generalizing s with
  | zero => rfl
  | succ n ih =>
    unfold State.runWhile
    split
    · rfl
    · split
      · rw [ih, h]
      · rfl

theorem State.guard_atIssue (s : State) (c : Nat) (w : BitVec 64) : (s.atIssue c w).guard = s.guard :=
  State.runWhile_keeps State.guard _ _ _ s fun s x => s.guard_cycleAt _ x

/-! ### A cluster with no access to come -/

/-- No instruction of a cluster's cores is under way. -/
def State.idleCluster (s : State) (ci : Nat) : Prop := ∀ d, d / 8 = ci → (s.core d).timing.jobs = []

theorem mem_clusterCores {d ci : Nat} : d ∈ clusterCores ci ↔ d / 8 = ci := by
  simp only [clusterCores, List.mem_map, List.mem_range]
  constructor
  · rintro ⟨i, hi, rfl⟩; omega
  · exact fun h => ⟨d % 8, by omega, by omega⟩

theorem State.idleCluster.actsLeft {s : State} {ci : Nat} (h : s.idleCluster ci) : s.actsLeft ci = 0 := by
  have hjobs : (clusterCores ci).flatMap (fun c => (s.core c).timing.jobs.map (·.acts.length)) = [] :=
    List.flatMap_eq_nil_iff.2 fun c hc => by rw [h c (mem_clusterCores.1 hc)]; rfl
  unfold State.actsLeft
  rw [hjobs]
  rfl

theorem State.idleCluster.runTo {s : State} {ci : Nat} (h : s.idleCluster ci) (x : Nat) : s.runTo ci x = s := by
  unfold State.runTo
  rw [h.actsLeft]
  rfl

theorem State.idleCluster.runCore {s : State} {c : Nat} (h : s.idleCluster (c / 8)) : s.runCore c = s := by
  unfold State.runCore
  rw [h.actsLeft]
  rfl

end Sys2Proof.Machine
end

section
/-! PROOF. A core after it issues an instruction that leaves only its scoreboard behind, and the end of a frame (04 R130, R173; 05 R186). -/

namespace Sys2Proof.Machine

/-- A word that issues runs its meaning, with names for the panel and the core in its issue cycle. -/
theorem issue_at {c : Nat} {w : BitVec 64} {s u : State} {k : Core} (run : State → Core → Nat → State) (h : Issues c w s)
    (hu : s.atIssue c w = u) (hk : u.core c = k) : issue c w s run = .next (run u k (k.issueAt w)) := by
  subst hk hu
  exact issue_next run h

/-- Whatever an issued instruction puts on the scoreboard, of the core's other fields the loop rule's and the cycle count alone have moved. -/
theorem onlyAdvanced_issued (k : Core) (cyc : Nat) (t : Timing) : OnlyAdvanced k { k.issued cyc with timing := t } :=
  ⟨⟨rfl, rfl⟩, fun _ => rfl, fun _ => rfl, ⟨rfl, rfl, rfl⟩, ⟨rfl, rfl, rfl, rfl⟩, ⟨rfl, rfl, rfl, rfl, rfl, rfl, rfl, rfl⟩, rfl, rfl⟩

/-- A unit reads as occupied until the cycle that it was occupied to. -/
@[simp] theorem Core.unitAt_occupy (k : Core) (u t : Nat) : (k.occupy u t).unitAt u = t := tget_tset_same _ _ _ _

/-! ### ENDF -/

/-- ENDF follows the loop rule, and the core drains (R186). -/
theorem endf_issues {c : Nat} {s : State} (h : Issues c (wordOf 0x03 0) s) :
    ∃ cyc, exec (.endf c 0) s = .next ((s.atIssue c (wordOf 0x03 0)).setCore c
      { ((s.atIssue c (wordOf 0x03 0)).core c).issued cyc with mode := .draining }) := by
  refine ⟨((s.atIssue c (wordOf 0x03 0)).core c).issueAt (wordOf 0x03 0), ?_⟩
  show execEndf c 0 s = _
  unfold execEndf
  rw [issue_next _ h, if_neg (by simp)]

/-- At the last word of a body with trips left the loop rule goes back to the body's first word (R185). -/
theorem loopNext_repeats {a : Nat} {l : Loop} (ls : List Loop) (ha : a = l.lend) (hl : 2 ≤ l.left) : (loopNext a (l :: ls)).1 = l.lstart := by
  unfold loopNext
  rw [if_pos ha, if_pos (by omega)]

/-- A draining core with every access made and every reply slot free retires, in a cycle short of its limit (R57, R59, R173). -/
theorem endfRetire_retires {c : Nat} {s : State} (hmode : ((s.runCore c).core c).mode = .draining) (hslots : ((s.runCore c).core c).slots = [])
    (hheld : s.clockHeld c = false) (hlimit : ((s.runCore c).core c).retireAt < ((s.runCore c).core c).limit) :
    exec (.endfRetire c) s = .next ((s.runCore c).setCore c
      { (s.runCore c).core c with mode := .gated, cycle := ((s.runCore c).core c).retireAt }) := by
  show execEndfRetire c s = _
  unfold execEndfRetire
  extract_lets s0 k0 s1
  have hs1 : s1 = s0 := if_neg fun h => absurd h.1 (Nat.not_le.2 hlimit)
  rw [if_pos ⟨hmode, hslots, by simp [hheld]⟩, hs1]
  show Host.Outcome.next (s0.setCore c { k0 with mode := if k0.mode = .draining then .gated else k0.mode, cycle := k0.retireAt }) = _
  rw [if_pos hmode]

/-- A reply slot in use keeps ENDF from retiring (R173). -/
theorem endfRetire_waits {c : Nat} {s : State} (hslots : ((s.runCore c).core c).slots ≠ []) : exec (.endfRetire c) s = .next s := by
  show execEndfRetire c s = _
  unfold execEndfRetire
  exact if_neg fun h => hslots h.2.1

/-- Settles O9: ENDF's issue is the loop rule and the mode; its retirement is `endfRetire_retires`, and with no access to come no time passes before it. -/
theorem endfThenRetires : Obligations.EndfThenRetires := by
  unfold Obligations.EndfThenRetires
  refine ⟨fun c s h => ?_, fun c s hmode hslots hheld hlimit => endfRetire_retires hmode hslots hheld hlimit,
    fun c s hidle => State.idleCluster.runCore hidle, fun c s hslots => endfRetire_waits hslots⟩
  obtain ⟨cyc, hexec⟩ := endf_issues h
  exact ⟨_, hexec, ⟨rfl, rfl⟩, rfl, fun _ => rfl, fun _ => rfl, ⟨rfl, rfl, rfl⟩, ⟨rfl, rfl, rfl, rfl⟩,
    fun l ls hloops hend hleft => by
      show (loopNext _ _).1 = _
      rw [hloops]
      exact loopNext_repeats ls hend hleft⟩

end Sys2Proof.Machine
end

section
/-! PROOF. TMAC: its reads, its issue, and the accumulator rows that it leaves (04 R146 to R156; 05 R193, R194; 06 R228). -/

namespace Sys2Proof.Machine

/-! ### Accumulator rows (R147, R148) -/

/-- Elements written one after another from a key on read as written; every other key reads as before. -/
theorem tget_foldl_tset (a : Nat) (es : List (BitVec 32)) (b : Nat) (t : Tab (BitVec 32)) (key : Nat) :
    tget 0 ((es.zip (List.range' b es.length)).foldl (fun t p => tset 0 t (a + p.2) p.1) t) key =
      if a + b ≤ key ∧ key < a + b + es.length then es.getD (key - (a + b)) 0 else tget 0 t key := by
  induction es generalizing b t with
  | nil => simp [show ¬(a + b ≤ key ∧ key < a + b) by omega]
  | cons e es ih =>
    rw [List.length_cons, List.range'_succ, List.zip_cons_cons, List.foldl_cons, ih, tget_tset]
    by_cases hkey : key = a + b
    · rw [if_neg (by omega), if_pos hkey, if_pos (by omega), hkey, Nat.sub_self]
      rfl
    · by_cases hin : a + b ≤ key ∧ key < a + b + (es.length + 1)
      · rw [if_pos (by omega), if_pos hin, show key - (a + b) = key - (a + (b + 1)) + 1 by omega]
        rfl
      · rw [if_neg (by omega), if_neg hkey, if_neg hin]

theorem contains_insertNat (x y : Nat) (ys : List Nat) : (insertNat x ys).contains y = (y == x || ys.contains y) := by
  rw [Bool.eq_iff_iff]
  simp [mem_insertNat]

/-- A row written reads as written, and every other row as before. -/
theorem Core.accElem_setAccRow (k : Core) {es : List (BitVec 32)} (hes : es.length = 64) (r r' : Nat) {n : Nat} (hn : n < 64) :
    (k.setAccRow r es).accElem r' n = if r' = r then es.getD n 0 else k.accElem r' n := by
  have hacc := tget_foldl_tset (r * 64) es 0 k.acc (r' * 64 + n)
  rw [hes, ← List.range_eq_range'] at hacc
  unfold Core.accElem Core.setAccRow
  dsimp only
  rw [hacc, contains_insertNat]
  by_cases hr : r' = r
  · subst hr
    rw [if_pos (by simp), if_pos (by omega), if_pos rfl, show r' * 64 + n - (r' * 64 + 0) = n by omega]
  · rw [if_neg (by omega : ¬(r * 64 + 0 ≤ r' * 64 + n ∧ _)), if_neg hr]
    simp [hr]

/-! ### What a TMAC leaves -/

theorem Core.jobDone_tmac (k : Core) {j : Job} (x : Nat) (h : j.unit = 2) : k.jobDone j x = k.tmacDone j := by
  unfold Core.jobDone
  rw [h]
  rfl

/-- The core with activation row m through (R147). -/
def Core.tmacThrough (j : Job) (isInt : Bool) (o : TmacOp) (k : Core) (m : Nat) : Core :=
  { k.setAccRow (o.acc + m) (j.tmacRow k isInt o m) with
    accBad := if j.tmacBad k o m then insertNat (o.acc + m) k.accBad else eraseNat (o.acc + m) k.accBad }

/-- A TMAC ends as its rows go through, first to last (R146). -/
theorem Core.tmacDone_eq (k : Core) {j : Job} {isInt : Bool}
    (hpair : pairAcc (tmacOp j.word j.g0).afmt (tmacOp j.word j.g0).asc j.wbuf.fmt j.wbuf.scaled = some isInt) :
    k.tmacDone j = (List.range (tmacOp j.word j.g0).m).foldl (Core.tmacThrough j isInt (tmacOp j.word j.g0)) k := by
  unfold Core.tmacDone
  dsimp only
  rw [hpair]
  rfl

@[simp] theorem Job.length_tmacRow (j : Job) (k : Core) (isInt : Bool) (o : TmacOp) (m : Nat) : (j.tmacRow k isInt o m).length = 64 := by
  simp [Job.tmacRow]

/-- The row that comes of an activation row depends on the accumulator row that it enters alone. -/
theorem Job.tmacRow_congr (j : Job) {k k' : Core} (isInt : Bool) (o : TmacOp) (m : Nat)
    (h : ∀ n, n < 64 → k'.accElem (o.acc + m) n = k.accElem (o.acc + m) n) : j.tmacRow k' isInt o m = j.tmacRow k isInt o m := by
  unfold Job.tmacRow
  exact List.map_congr_left fun n hn => by rw [h n (List.mem_range.1 hn)]

/-- The first `n` rows of a TMAC are through: they hold what came of them, and nothing but the accumulator has changed. -/
structure RowsThrough (j : Job) (isInt : Bool) (o : TmacOp) (k : Core) (n : Nat) (k' : Core) : Prop where
  rows : ∀ m, m < n → ∀ i, i < 64 → k'.accElem (o.acc + m) i = (j.tmacRow k isInt o m).getD i 0
  valid : ∀ m, m < n → k'.accValid.contains (o.acc + m) = true
  others : ∀ r i, (r < o.acc ∨ o.acc + n ≤ r) → i < 64 → k'.accElem r i = k.accElem r i
  frame : ∃ a v b, k' = { k with acc := a, accValid := v, accBad := b }

theorem RowsThrough.succ {j : Job} {isInt : Bool} {o : TmacOp} {k k' : Core} {n : Nat} (h : RowsThrough j isInt o k n k') :
    RowsThrough j isInt o k (n + 1) (k'.tmacThrough j isInt o n) := by
  have hrow : j.tmacRow k' isInt o n = j.tmacRow k isInt o n :=
    j.tmacRow_congr isInt o n fun i hi => h.others _ i (.inr (Nat.le_refl _)) hi
  have hread : ∀ r i, i < 64 → (k'.tmacThrough j isInt o n).accElem r i =
      if r = o.acc + n then (j.tmacRow k isInt o n).getD i 0 else k'.accElem r i := fun r i hi => by
    rw [← hrow]
    exact k'.accElem_setAccRow (j.length_tmacRow k' isInt o n) _ r hi
  have hvalid : ∀ r, (k'.tmacThrough j isInt o n).accValid.contains r = (r == o.acc + n || k'.accValid.contains r) :=
    fun r => contains_insertNat _ r _
  refine ⟨fun m hm i hi => ?_, fun m hm => ?_, fun r i hr hi => ?_, ?_⟩
  · rw [hread _ i hi]
    by_cases hmn : m = n
    · subst hmn
      exact if_pos rfl
    · rw [if_neg (by omega)]
      exact h.rows m (by omega) i hi
  · rw [hvalid]
    by_cases hmn : m = n
    · simp [hmn]
    · rw [h.valid m (by omega), Bool.or_true]
  · rw [hread r i hi, if_neg (by omega)]
    exact h.others r i (by omega) hi
  · obtain ⟨a, v, b, hk'⟩ := h.frame
    exact ⟨(k'.tmacThrough j isInt o n).acc, (k'.tmacThrough j isInt o n).accValid, (k'.tmacThrough j isInt o n).accBad, by rw [hk']; rfl⟩

theorem rowsThrough_foldl (j : Job) (isInt : Bool) (o : TmacOp) (k : Core) (n : Nat) :
    RowsThrough j isInt o k n ((List.range n).foldl (Core.tmacThrough j isInt o) k) := by
  induction n with
  | zero => exact ⟨fun m hm => absurd hm (Nat.not_lt_zero m), fun m hm => absurd hm (Nat.not_lt_zero m), fun _ _ _ _ => rfl, _, _, _, rfl⟩
  | succ n ih =>
    rw [List.range_succ, List.foldl_append]
    exact ih.succ

/-! ### Reads (R228) -/

theorem segPerRow_pos (f : Nat) : 0 < segPerRow f := by
  unfold segPerRow perRow
  split <;> decide

/-- Index `q` is among the groups of size `p` that `m` items fill exactly when its first item is one of them. -/
theorem lt_groups {q m p : Nat} (hp : 0 < p) (h : q * p < m) : q < (m - 1) / p + 1 :=
  Nat.lt_succ_of_le ((Nat.le_div_iff_mul_le hp).2 (by omega))

/-- Segment row `sg` of group `q` is read in cycle t + qP + sg. -/
theorem mem_tmacActs (x : Nat) {q sg : Nat} {o : TmacOp} {segs : Nat} (hq : q * segPerRow o.afmt < o.m) (hsg : sg < segs) :
    ({ cyc := x + q * segPerRow o.afmt + sg, write := false, cluster := false, row := o.a + sg * o.stride + q, key := segKey q sg } : Act) ∈
      tmacActs x o segs :=
  List.mem_flatMap.2 ⟨q, List.mem_range.2 (lt_groups (segPerRow_pos _) hq), List.mem_append_left _ (List.mem_map.2 ⟨sg, List.mem_range.2 hsg, rfl⟩)⟩

/-! ### Issue (R146, R193, R194) -/

/-- Settles O14: each clause is the branch of TMAC's meaning that its hypotheses leave, `mem_tmacActs`, or what the rows of a TMAC leave as they go through. -/
theorem tmacAccumulates : Obligations.TmacAccumulates := by
  unfold Obligations.TmacAccumulates
  refine ⟨fun c body s isInt => ?_, fun x q sg o segs => mem_tmacActs x, fun k j x isInt => ?_, fun c body s isInt => ?_⟩
  · intro w u k o own b segs h hbad hpair hm hrange
    have hlegal : ¬tmacBad w = true := by simp [hbad]
    have hpaired : ¬(pairAcc o.afmt o.asc b.fmt b.scaled).isNone = true := by simp [hpair]
    have hinside : ¬(o.m ≠ 0 ∧ tmacRangeBad o segs = true) := by simp [hrange]
    show ∃ k' j, execTmac c body s = _ ∧ _
    unfold execTmac
    rw [issue_at _ h (u := u) (k := k) rfl rfl]
    clear_value u k
    refine ⟨_, _, congrArg Host.Outcome.next ((if_neg hlegal).trans <| (if_neg hpaired).trans <| (if_neg hinside).trans (if_neg hm)),
      onlyAdvanced_issued _ _ _, rfl, rfl, rfl, rfl, rfl, rfl, rfl, ?_⟩
    exact (Nat.le_max_right _ _).trans_eq (tget_tset_same _ _ _ _).symm
  · intro o k' hunit hpair
    have hdone : k' = (List.range o.m).foldl (Core.tmacThrough j isInt o) k := by
      show k.jobDone j x = _
      rw [k.jobDone_tmac x hunit, k.tmacDone_eq hpair]
    obtain ⟨hrows, hvalid, hothers, a, v, b, hframe⟩ := rowsThrough_foldl j isInt o k o.m
    rw [← hdone] at hrows hvalid hothers hframe
    refine ⟨fun m hm => ⟨hrows m hm, hvalid m hm⟩, hothers, ?_⟩
    rw [hframe]
    exact ⟨rfl, rfl, rfl, fun _ => rfl, fun _ => rfl, ⟨rfl, rfl, rfl⟩, ⟨rfl, rfl, rfl, rfl, rfl, rfl, rfl, rfl⟩, rfl, rfl⟩
  · intro w u k o own b h hbad hpair hm
    have hlegal : ¬tmacBad w = true := by simp [hbad]
    have hpaired : ¬(pairAcc o.afmt o.asc b.fmt b.scaled).isNone = true := by simp [hpair]
    have hempty : ¬(o.m ≠ 0 ∧ tmacRangeBad o (tmacSegs o b) = true) := by simp [hm]
    show ∃ k', execTmac c body s = _ ∧ _
    unfold execTmac
    rw [issue_at _ h (u := u) (k := k) rfl rfl]
    clear_value u k
    refine ⟨_, congrArg Host.Outcome.next ((if_neg hlegal).trans <| (if_neg hpaired).trans <| (if_neg hempty).trans (if_pos hm)),
      onlyAdvanced_issued _ _ _, rfl, ?_⟩
    show tget 0 (tset 0 k.timing.unit 2 (k.issueAt w + max 1 o.m)) 2 = k.issueAt w + 1
    rw [tget_tset_same, hm]
    rfl

end Sys2Proof.Machine
end

section
/-! PROOF. Rows and their marks: a read after a write (06 R34, R230). -/

namespace Sys2Proof.Machine

@[simp] theorem length_fitBytes (n : Nat) (bs : List Byte) : (fitBytes n bs).length = n := by
  simp only [fitBytes, List.length_append, List.length_take, List.length_replicate]
  omega

@[simp] theorem State.readRow_writeRow_same (s : State) (a : Nat) (bs : List Byte) (p : Bool) : (s.writeRow a bs p).readRow a = fitBytes 512 bs := by
  have h := readBytes_writeBytes_same s.mem a (fitBytes 512 bs)
  rwa [length_fitBytes] at h

theorem mem_eraseNat {x y : Nat} {ys : List Nat} : y ∈ eraseNat x ys ↔ y ≠ x ∧ y ∈ ys := by simp [eraseNat, and_comm]

@[simp] theorem State.isPoisoned_writeRow_same (s : State) (a : Nat) (bs : List Byte) (p : Bool) : (s.writeRow a bs p).isPoisoned a = p := by
  show (if p then insertNat a s.poison else eraseNat a s.poison).contains a = p
  cases p
  · simp [mem_eraseNat]
  · simp [mem_insertNat]

end Sys2Proof.Machine
end

section
/-! PROOF. TDRAIN: its accesses, its issue, what it writes, and the resident rows that it may not write (04 R157 to R162; 05 R195 to R197). -/

namespace Sys2Proof.Machine

/-! ### Accesses (R157, R159, R228) -/

theorem mem_insertAct {a b : Act} {as : List Act} : a ∈ insertAct b as ↔ a = b ∨ a ∈ as := by
  induction as with
  | nil => simp [insertAct]
  | cons c cs ih =>
    unfold insertAct
    split
    · exact List.mem_cons
    · simp only [List.mem_cons, ih]
      tauto

theorem mem_foldl_insertAct {a : Act} (bs as : List Act) : a ∈ bs.foldl (fun as b => insertAct b as) as ↔ a ∈ bs ∨ a ∈ as := by
  induction bs generalizing as with
  | nil => simp
  | cons b bs ih =>
    rw [List.foldl_cons, ih, mem_insertAct, List.mem_cons]
    tauto

/-- The write of a drain's value row, and of its scale row: 8 cycles after the last accumulator row that it holds is read. -/
def DrainOp.valueAct (o : DrainOp) (cyc q : Nat) : Act :=
  { cyc := cyc + min (q * segPerRow o.dfmt + segPerRow o.dfmt - 1) (o.rows - 1) + 8, write := true, cluster := false, row := o.dst + q, key := valueKey q }
def DrainOp.scaleAct (o : DrainOp) (cyc q : Nat) : Act :=
  { cyc := cyc + min (256 * q + 255) (o.rows - 1) + 8, write := true, cluster := false, row := o.ds + q, key := drainScaleKey q }

/-- A drain writes its value rows and, with scales, its scale rows; its other accesses are reads. -/
theorem mem_drainActs {cyc : Nat} {o : DrainOp} {a : Act} (ha : a.write = true) :
    a ∈ drainActs cyc o ↔ (∃ q, q < (o.rows - 1) / segPerRow o.dfmt + 1 ∧ o.valueAct cyc q = a) ∨
      (o.dsc = true ∧ ∃ q, q < (o.rows - 1) / 256 + 1 ∧ o.scaleAct cyc q = a) := by
  unfold drainActs
  extract_lets p vals scs rds
  have hvals : a ∈ vals ↔ ∃ q, q < (o.rows - 1) / segPerRow o.dfmt + 1 ∧ o.valueAct cyc q = a := by
    simp only [vals, List.mem_map, List.mem_range]
    rfl
  have hscs : a ∈ scs ↔ o.dsc = true ∧ ∃ q, q < (o.rows - 1) / 256 + 1 ∧ o.scaleAct cyc q = a := by
    simp only [scs, List.mem_ite_nil_right, List.mem_map, List.mem_range]
    rfl
  have hrds : a ∉ rds := by
    unfold rds
    split
    · rintro h
      obtain ⟨q, -, rfl⟩ := List.mem_map.1 h
      exact absurd ha Bool.false_ne_true
    · exact List.not_mem_nil
  rw [mem_foldl_insertAct, List.mem_append, hvals, hscs, or_iff_left hrds, or_comm]

/-- What a drain writes it writes at its targets (R162). -/
theorem row_mem_drainTargets {cyc : Nat} {o : DrainOp} {a : Act} (h : a ∈ drainActs cyc o) (ha : a.write = true) : a.row ∈ drainTargets o := by
  unfold drainTargets
  obtain ⟨q, hq, rfl⟩ | ⟨hdsc, q, hq, rfl⟩ := (mem_drainActs ha).1 h
  · exact List.mem_append_left _ (List.mem_map.2 ⟨q, List.mem_range.2 hq, rfl⟩)
  · rw [if_pos hdsc]
    exact List.mem_append_right _ (List.mem_map.2 ⟨q, List.mem_range.2 hq, rfl⟩)

theorem valueAct_mem_drainActs (cyc : Nat) {q : Nat} {o : DrainOp} (hq : q * segPerRow o.dfmt < o.rows) : o.valueAct cyc q ∈ drainActs cyc o :=
  (mem_drainActs rfl).2 (.inl ⟨q, lt_groups (segPerRow_pos _) hq, rfl⟩)

theorem scaleAct_mem_drainActs (cyc : Nat) {q : Nat} {o : DrainOp} (hdsc : o.dsc = true) (hq : q * 256 < o.rows) :
    o.scaleAct cyc q ∈ drainActs cyc o :=
  (mem_drainActs rfl).2 (.inr ⟨hdsc, q, lt_groups (by decide) hq, rfl⟩)

/-! ### What a drain writes (R157 to R161) -/

/-- A value row holds the elements of its drained rows in order. -/
theorem State.drainWrite_value (s : State) (c : Nat) {q : Nat} (j : Job) (hq : q < 65536) :
    (s.drainWrite c j (valueKey q)).1 = packRow (drainOp j.word j.g0 j.g1).dfmt
      (((drainOp j.word j.g0 j.g1).rowsOf (segPerRow (drainOp j.word j.g0 j.g1).dfmt) q).flatMap (fun i => (s.drainRow c j (drainOp j.word j.g0 j.g1) i).1)) := by
  have hkey : decide (131072 ≤ valueKey q) = false := decide_eq_false (by unfold valueKey; omega)
  unfold State.drainWrite
  simp only [hkey, Bool.false_eq_true, if_false, List.flatMap_map]
  rw [show valueKey q - 65536 = q by unfold valueKey; omega]

/-- A scale row holds the block scales of its drained rows in order. -/
theorem State.drainWrite_scale (s : State) (c q : Nat) (j : Job) :
    (s.drainWrite c j (drainScaleKey q)).1 = fitBytes 512
      (((drainOp j.word j.g0 j.g1).rowsOf 256 q).flatMap (fun i => (s.drainRow c j (drainOp j.word j.g0 j.g1) i).2.1.flatMap (toLE 1))) := by
  have hkey : decide (131072 ≤ drainScaleKey q) = true := decide_eq_true (by unfold drainScaleKey; omega)
  unfold State.drainWrite
  simp only [hkey, if_true, List.flatMap_map]
  rw [show drainScaleKey q - 131072 = q by unfold drainScaleKey; omega]

/-- A write puts the instruction's row at its address, sets the sticky bits of its conversions, and takes the row from the instruction (R106). -/
theorem State.writeAct_of_job {s : State} {c i : Nat} {j : Job} (a : Act) (h : (s.core c).timing.jobs[i]? = some j) :
    ∃ r, FailuresOnly s r ∧ s.writeAct c i a =
      (r.writeRow (a.addr c) (s.jobWrite c j a.key).1 (s.jobWrite c j a.key).2.1).setCore c
        (((s.core c).setFlags (s.jobWrite c j a.key).2.2).modJob i (fun j => { j with rows := terase a.key j.rows })) := by
  have hr := s.accRead_failuresOnly c a.cyc ((s.jobAccRows j a.key).filter (s.core c).accBad.contains)
  refine ⟨_, hr, ?_⟩
  unfold State.writeAct
  rw [h]
  dsimp only [State.modCore]
  rw [show State.core (State.writeRow _ _ _ _) c = _ from hr.core c]

/-! ### Issue -/

/-- Settles O15: the issue is the branch of TDRAIN's meaning that the hypotheses leave, with the accesses of `mem_drainActs`; the rows are those of `drainWrite`, and
a write reads back. -/
theorem tdrainWrites : Obligations.TdrainWrites := by
  unfold Obligations.TdrainWrites
  refine ⟨fun c body s => ?_, fun s c q j => ?_, fun s c i a j => ?_⟩
  · intro w u k gp o h hbad hrows hrange hfree
    have hlegal : ¬tdrainBad w = true := by simp [hbad]
    have hinside : ¬drainRangeBad o = true := by simp [hrange]
    have hunlocked : ¬(drainTargets o).any (fun r => u.residentLocked c r) = true := by simp [hfree]
    show ∃ k' j, execTdrain c body s = _ ∧ _
    unfold execTdrain
    rw [issue_at _ h (u := u) (k := k) rfl rfl]
    clear_value u k
    refine ⟨_, _, congrArg Host.Outcome.next ((if_neg hlegal).trans <| (if_neg hrows).trans <| (if_neg hinside).trans (if_neg hunlocked)),
      rfl, rfl, rfl, rfl, rfl, rfl, fun v hv => ?_, fun q hq => valueAct_mem_drainActs _ hq, fun q hdsc hq => scaleAct_mem_drainActs _ hdsc hq,
      fun a => row_mem_drainTargets, rfl, ⟨rfl, rfl⟩, fun _ => rfl, fun _ => rfl, ⟨rfl, rfl, rfl⟩, ⟨rfl, rfl, rfl, rfl⟩,
      ⟨rfl, rfl, rfl, rfl, rfl, rfl, rfl, rfl⟩, rfl⟩
    dsimp only
    rw [hv]
  · intro o rs hq
    exact ⟨s.drainWrite_value c j hq, s.drainWrite_scale c q j⟩
  · intro k t fl hjob
    obtain ⟨r, hr, ht⟩ := State.writeAct_of_job a hjob
    have hcore : t.core c = _ := (congrArg (State.core · c) ht).trans (State.core_setCore_same _ _ _)
    rw [hcore]
    refine ⟨?_, rfl, rfl, rfl⟩
    rw [show t = _ from ht]
    exact r.readRow_writeRow_same (a.addr c) _ (s.jobWrite c j a.key).2.1

/-- Settles O16: the plan and the step's state are at the issue what they were before it, so that the drain meets the resident row and faults instead of starting. -/
theorem tdrainProtected : Obligations.TdrainProtected := by
  unfold Obligations.TdrainProtected
  intro c body s w u k gp o h hbad hrows hrange hrun hresident
  have hguard : u.guard = s.guard := s.guard_atIssue c w
  have hurun : u.isRunning = true := (State.isRunning_of_guard hguard).trans hrun
  have hlocked : (drainTargets o).any (fun r => u.residentLocked c r) = true := by
    obtain ⟨r, hr, hlt⟩ := hresident
    refine List.any_eq_true.2 ⟨r, hr, ?_⟩
    unfold State.residentLocked
    rw [hurun, State.residentRows_of_guard hguard]
    simpa using hlt
  have hlegal : ¬tdrainBad w = true := by simp [hbad]
  have hinside : ¬drainRangeBad o = true := by simp [hrange]
  have hfault : exec (.tdrain c body) s = .next (u.raiseCore c .protection w (k.issueAt w)) := by
    show execTdrain c body s = _
    unfold execTdrain
    rw [issue_at _ h (u := u) (k := k) rfl rfl]
    exact congrArg Host.Outcome.next ((if_neg hlegal).trans <| (if_neg hrows).trans <| (if_neg hinside).trans (if_pos hlocked))
  have hown := u.coreFault_own c .protection (u.core c).pc w (k.issueAt w) (c / 16)
  refine ⟨_, hfault, hown.mem, ?_, _, State.coreFault_fails hurun c .protection (u.core c).pc w (k.issueAt w) (c / 16), rfl, rfl, rfl⟩
  rw [show State.core (u.raiseCore c .protection w (k.issueAt w)) c = _ from hown.core c, State.core_setCore_same]
  rfl

end Sys2Proof.Machine
end

section
/-! PROOF. What a core hands to its die's router: row packets and remote requests (04 R167, R168; 05 R205 to R211). -/

namespace Sys2Proof.Machine

/-! ### Packets that enter the fabric -/

/-- What enters the fabric depends on the map of the dies alone. -/
theorem State.entering_congr {s t : State} (h : ∀ d, t.siteOf d = s.siteOf d) (n : Nat) (ps : List Packet) : t.entering n ps = s.entering n ps := by
  induction ps generalizing n with
  | nil => rfl
  | cons p ps ih => simp only [State.entering, h, ih]

/-- A read by an instruction that hands packets to the router hands it the packet of the row, with the row as it was read and its mark (R168, R230). -/
theorem State.readAct_hands {s : State} {c i : Nat} {a : Act} {j : Job} {p : Packet} (hj : (s.core c).timing.jobs[i]? = some j)
    (hp : j.packets[a.key]? = some p) :
    (s.readAct c i a).fabric.packets = s.fabric.packets ++
      s.entering s.fabric.nextUid [{ p with payload := s.readRow (a.addr c), poison := s.isPoisoned (a.addr c) }] := by
  have hr := s.consumePoison_failuresOnly c a.cyc (a.target c)
  have hmatch : ((s.core c).timing.jobs[i]?).bind (fun j => j.packets[a.key]?) = some p := by rw [hj]; exact hp
  unfold State.readAct
  extract_lets bytes bad s1
  rw [hmatch]
  dsimp only
  rw [State.inject_packets, show s1.fabric = s.fabric from hr.fabric, State.entering_congr (s := s) (t := s1) hr.siteOf]

/-! ### SEND, MCROW and MCCOL (R168, R207, R211) -/

theorem exec_sender {kind : Nat} (hkind : kind < 3) (c : Nat) (body : BitVec 56) (s : State) :
    exec (sender kind c body) s = sendRows kind c (0x50 + kind) body s := by
  obtain rfl | rfl | rfl : kind = 0 ∨ kind = 1 ∨ kind = 2 := by omega
  · rfl
  · rfl
  · rfl

theorem getElem?_map_range {α : Type} (f : Nat → α) (n i : Nat) : ((List.range n).map f)[i]? = if i < n then some (f i) else none := by
  by_cases h : i < n
  · simp [h]
  · simp [h]

/-- Settles O22: the issue is the branch of `sendRows` that the hypotheses leave, whose accesses and packets are lists over the rows' numbers; the reads are
`readAct_hands`. -/
theorem sendersSendRows : Obligations.SendersSendRows := by
  unfold Obligations.SendersSendRows
  refine ⟨fun kind c body s hkind => ?_, fun s c i a j p => State.readAct_hands⟩
  intro w u k n sr dr h
  rw [exec_sender hkind]
  unfold sendRows
  rw [issue_at _ h (u := u) (k := k) rfl rfl]
  clear_value u k
  refine ⟨fun hn => ?_, fun r hn hsr hdr hroute => ?_⟩
  · exact ⟨_, congrArg Host.Outcome.next (if_pos hn), onlyAdvanced_issued _ _ _, rfl⟩
  · have hsome : ¬n = 0 := by omega
    have hinside : ¬(sr + n > 8192 ∨ dr + n > copyRows (fld w 7 7)) := by omega
    dsimp only
    rw [if_neg hsome, if_neg hinside, hroute]
    refine ⟨_, _, rfl, onlyAdvanced_issued _ _ _, rfl, by simp; rfl, Core.unitAt_occupy _ _ _, fun i => getElem?_map_range _ _ _, fun i p hp => ?_⟩
    rw [getElem?_map_range] at hp
    by_cases hi : i < n
    · rw [if_pos hi] at hp
      cases hp
      exact ⟨rfl, rfl, rfl, rfl, rfl, rfl, beq_eq_decide _ _, rfl, rfl⟩
    · rw [if_neg hi] at hp
      cases hp

/-! ### RGET and RPUT (R167, R205) -/

/-- The reply slot that a request takes. -/
def requestSlot (isGet : Bool) (k : Core) (w : BitVec 64) : ReplySlot :=
  { isGet := isGet, addr := (k.greg (fld w 55 51)).toNat, lrow := fld w 50 38, ctr := fld w 37 34, route := fld w 33 18, pc := k.pc, word := w }

/-- The request of an RGET or RPUT on its route. -/
def State.requestPacket (s : State) (isGet : Bool) (c : Nat) (k : Core) (w : BitVec 64) (slot : Nat) (r : Route) : Packet :=
  { routeId := fld w 33 18, typ := if isGet then 2 else 3, cls := 4, planned := true, src := r.src, dst := r.dst,
    addr := (k.greg (fld w 55 51)).toNat, tag := slot, plane := r.plane, core := c, place := s.coreSite c, pc := k.pc, word := w }

/-- The core once its request has a reply slot. -/
def Core.requested (k : Core) (isGet : Bool) (w : BitVec 64) (slot : Nat) : Core :=
  ((k.issued (k.issueAt w)).takeSlot slot (requestSlot isGet k w)).occupy 6 (k.issueAt w + 1)

/-- The job of an RPUT: its row is read in the issue cycle and leaves with the request (log entry 109). -/
def putJob (k : Core) (w : BitVec 64) (p : Packet) : Job :=
  { unit := 6, word := w, packets := [p], done := k.issueAt w + 1,
    acts := [{ cyc := k.issueAt w, write := false, cluster := false, row := fld w 50 38, key := 0 }] }

section

variable {isGet : Bool} {c opc : Nat} {body : BitVec 56} {s u : State} {k : Core}

/-- A legal request takes its slot; an RGET's leaves at once, and an RPUT's with its row. -/
theorem remote_requests {slot : Nat} {r : Route} (h : Issues c (wordOf opc body) (s.untilSlot c))
    (hu : (s.untilSlot c).atIssue c (wordOf opc body) = u) (hk : u.core c = k) (hrsv : fld (wordOf opc body) 17 0 = 0)
    (hslot : k.freeSlot = some slot) (haddr : (k.greg (fld (wordOf opc body) 55 51)).toNat % 512 = 0)
    (hfree : (isGet && u.residentLocked c (fld (wordOf opc body) 50 38)) = false)
    (hroute : u.requestRoute c (fld (wordOf opc body) 33 18) = some r) :
    remote isGet c opc body s = .next (
      if isGet then (u.setCore c (k.requested isGet (wordOf opc body) slot)).inject [u.requestPacket isGet c k (wordOf opc body) slot r]
      else u.setCore c ((k.requested isGet (wordOf opc body) slot).start (putJob k (wordOf opc body) (u.requestPacket isGet c k (wordOf opc body) slot r)))) := by
  unfold remote
  rw [issue_at _ h hu hk]
  dsimp only
  rw [if_neg (by simp [hrsv]), hslot]
  dsimp only
  rw [if_neg (by simp [haddr]), if_neg (by simp [hfree]), hroute]
  rfl

/-- With every slot in use a request does not issue (R167). -/
theorem remote_waits (h : Issues c (wordOf opc body) (s.untilSlot c)) (hu : (s.untilSlot c).atIssue c (wordOf opc body) = u) (hk : u.core c = k)
    (hrsv : fld (wordOf opc body) 17 0 = 0) (hslot : k.freeSlot = none) : remote isGet c opc body s = .next u := by
  unfold remote
  rw [issue_at _ h hu hk]
  dsimp only
  rw [if_neg (by simp [hrsv]), hslot]

end

/-- A core with a free slot needs no reply to land before its request (R167). -/
theorem State.untilSlot_of_free {s : State} {c : Nat} (h : (s.core c).freeSlot.isSome = true) : s.untilSlot c = s := if_pos h

/-- Settles O21: both instructions are `remote`, whose legal requests are `remote_requests`. -/
theorem remoteRequests : Obligations.RemoteRequests := by
  unfold Obligations.RemoteRequests
  refine ⟨fun c body s slot r => ?_, fun c body s slot r => ?_, fun c body s => ?_, fun c body s => ?_, fun c s => State.untilSlot_of_free⟩
  · intro w v u k addr row h hrsv hslot haddr hfree hroute
    refine ⟨k.requested true w slot, u.requestPacket true c k w slot r, remote_requests (isGet := true) h rfl rfl hrsv hslot haddr hfree hroute, ?_⟩
    clear_value u k
    exact ⟨rfl, rfl, rfl, rfl, rfl, rfl, rfl, rfl, rfl, rfl, ⟨rfl, rfl⟩, fun _ => rfl, fun _ => rfl, ⟨rfl, rfl, rfl⟩, ⟨rfl, rfl, rfl, rfl⟩, rfl, rfl⟩
  · intro w v u k addr row h hrsv hslot haddr hroute
    refine ⟨(k.requested false w slot).start (putJob k w (u.requestPacket false c k w slot r)), u.requestPacket false c k w slot r,
      putJob k w (u.requestPacket false c k w slot r), remote_requests (isGet := false) h rfl rfl hrsv hslot haddr rfl hroute, ?_⟩
    clear_value u k
    exact ⟨rfl, rfl, rfl, rfl, rfl, rfl, rfl, rfl, rfl, rfl, rfl, ⟨rfl, rfl⟩, fun _ => rfl, fun _ => rfl, ⟨rfl, rfl, rfl⟩, ⟨rfl, rfl, rfl, rfl⟩, rfl, rfl⟩
  · intro w v u h hrsv hslot
    exact remote_waits (isGet := true) h rfl rfl hrsv hslot
  · intro w v u h hrsv hslot
    exact remote_waits (isGet := false) h rfl rfl hrsv hslot

end Sys2Proof.Machine
end

section
/-! PROOF. A core's row memory is an address range of its own only below 2,304 cores: the row address of core 8,192 is HBM's first byte (06 R221; 04 R129, R169). -/

namespace Sys2Proof.Machine

/-- A VST that has yet to write its row. -/
def strayStore : Job :=
  { unit := 4, word := wordOf 0x39 0, bytes := [7], acts := [{ cyc := 0, write := true, cluster := false, row := 0, key := 0 }] }

/-- A core about to issue a NOP, with that VST under way. -/
def strayCore : Core :=
  { mode := .running, prog := [wordOf 0x01 0],
    timing := { jobs := [strayStore] } }

/-- The panel as reset with that core as its number 8,192, which no die holds. -/
def strayPanel : State := { State.reset with cores := [(8192, strayCore)] }

/-- The byte of panel memory at an address after a step. -/
def byteAfter (a : Nat) (o : Out) : Option Byte :=
  match o with
  | .next t => some (readByte t.mem a)
  | _ => none

/-- The NOP's issue makes the write that is under way: row 0 of core 8,192 begins where HBM begins. -/
theorem strayPanel_nop : byteAfter (2 * 2 ^ 44) (exec (.nop 8192 0) strayPanel) = some 7 := by decide +kernel

theorem strayPanel_byte : readByte strayPanel.mem (2 * 2 ^ 44) = 0 := by decide +kernel

/-- Refutes O6: its first clause holds for core numbers of any size, and the row addresses of a number that no die holds run into HBM. In `strayPanel` core 8,192 issues
a NOP; the time up to its issue makes the core's pending write of its row 0, which changes HBM's first byte from 0 to 7. -/
theorem not_coreInstructionsAreLocal : ¬ Obligations.CoreInstructionsAreLocal := by
  unfold Obligations.CoreInstructionsAreLocal
  rintro ⟨hlocal, -, -⟩
  cases hexec : exec (.nop 8192 0) strayPanel with
  | next t =>
    obtain ⟨-, -, -, -, -, -, -, -, hhbm⟩ := hlocal (.nop 8192 0) 8192 strayPanel t rfl hexec
    have hbyte : byteAfter (2 * 2 ^ 44) (exec (.nop 8192 0) strayPanel) = some 0 := by
      rw [hexec, ← strayPanel_byte, ← hhbm _ le_rfl]
      rfl
    rw [strayPanel_nop] at hbyte
    exact absurd hbyte (by decide)
  | _ =>
    have h := strayPanel_nop
    rw [hexec] at h
    cases h

end Sys2Proof.Machine
end

section
/-! PROOF. What a die does with a request that has come to it, one answer per case (06 R206, R232, R243, R245, R260, R288; 15 R477). -/

namespace Sys2Proof.Machine

variable {s s1 : State} {i x m : Nat} {p : Packet}

/-! ### The grant -/

/-- A stack's grant changes its arbiter alone. -/
theorem State.planUnit_eq {k : Nat} (h : s.planUnit k = some s1) : ∃ as, s1 = { s with fabric := { s.fabric with arbiters := as } } := by
  unfold State.planUnit at h
  extract_lets a at h
  split at h
  · cases h
  · exact ⟨_, (Option.some.inj h).symm⟩

/-- The grant of a request changes the arbiters alone. -/
theorem State.quota_eq (h : s.quota p = some s1) : ∃ as, s1 = { s with fabric := { s.fabric with arbiters := as } } := by
  have hsame : ∀ {t : State}, some s = some t → ∃ as, t = { s with fabric := { s.fabric with arbiters := as } } := by
    rintro _ ⟨⟩
    exact ⟨s.fabric.arbiters, rfl⟩
  unfold State.quota at h
  split at h
  · split at h
    · split at h
      · split at h
        · split at h
          · exact hsame h
          · cases h
        · exact State.planUnit_eq h
      · exact hsame h
    · exact hsame h
  · exact hsame h

/-- A request with its grant is served. -/
theorem exec_request (hp : s.packet i = some p) (hmay : s.mayServe i p = true) (hyield : s.yieldsToGet p x = false) (hquota : s.quota p = some s1) :
    exec (.remoteRequestArrival i x) s = .next (s1.serve i p x) := by
  show execRemoteRequestArrival i x s = _
  unfold execRemoteRequestArrival
  simp only [hp, hmay, hyield, hquota, Bool.not_false, Bool.and_true, if_true]

/-- A request without a grant waits. -/
theorem exec_request_waits (hp : s.packet i = some p) (hquota : s.quota p = none) : exec (.remoteRequestArrival i x) s = .next s := by
  show execRemoteRequestArrival i x s = _
  unfold execRemoteRequestArrival
  rw [hp]
  dsimp only
  rw [hquota]
  exact ite_self _

/-- A request that is served is a GET, a PUT, a READ_REQ or a HOST request. -/
theorem State.typ_of_mayServe (h : s.mayServe i p = true) : p.typ = 2 ∨ p.typ = 3 ∨ p.typ = 8 ∨ p.typ = 0xA := by
  unfold State.mayServe at h
  simp only [Bool.and_eq_true, Bool.or_eq_true, beq_iff_eq] at h
  tauto

/-! ### The answers -/

/-- What a die that is used no further answers. -/
def poisonReply (p : Packet) : Packet := if p.reads then readReply p (List.replicate 512 0) true else writeReply p true

@[simp] theorem dataReply_tag (p : Packet) (bs : List Byte) (b : Bool) : (dataReply p bs b).tag = p.tag := by
  unfold dataReply
  rfl

theorem readReply_typ (p : Packet) (bs : List Byte) (b : Bool) :
    (readReply p bs b).typ = if p.typ = 8 then 0 else if p.typ = 0xA then p.typ else 4 := by
  unfold readReply
  split
  · rfl
  · split <;> rfl

theorem writeReply_typ (p : Packet) (b : Bool) : (writeReply p b).typ = if p.typ = 0xA then p.typ else 5 := by
  unfold writeReply
  split <;> rfl

/-- An answer bears the mark that it is given and the request's tag, and goes back where the request came from. -/
theorem readReply_back (p : Packet) (bs : List Byte) (b : Bool) :
    (readReply p bs b).poison = b ∧ (readReply p bs b).tag = p.tag ∧ (readReply p bs b).dst = p.src := by
  unfold readReply
  split
  · exact ⟨rfl, dataReply_tag _ _ _, rfl⟩
  · split <;> exact ⟨rfl, rfl, rfl⟩

theorem writeReply_back (p : Packet) (b : Bool) : (writeReply p b).poison = b ∧ (writeReply p b).tag = p.tag ∧ (writeReply p b).dst = p.src := by
  unfold writeReply
  split <;> exact ⟨rfl, rfl, rfl⟩

theorem poisonReply_back (p : Packet) : (poisonReply p).poison = true ∧ (poisonReply p).tag = p.tag ∧ (poisonReply p).dst = p.src := by
  unfold poisonReply
  split
  · exact readReply_back _ _ _
  · exact writeReply_back _ _

theorem poisonReply_typ (h : p.typ = 2 ∨ p.typ = 3 ∨ p.typ = 8) : (poisonReply p).typ = if p.typ = 8 then 0 else if p.typ = 2 then 4 else 5 := by
  unfold poisonReply Packet.reads
  split
  · rw [readReply_typ]
    obtain h | h | h := h <;> simp_all
  · rw [writeReply_typ]
    obtain h | h | h := h <;> simp_all

theorem State.serve_gone (hgone : s.answersPoison p.place = true) : s.serve i p x = (s.dropPacket i).inject [poisonReply p] := by
  unfold State.serve
  exact if_pos hgone

section

variable (hgone : s.answersPoison p.place = false)
include hgone

/-- At a die that does not serve its address a GET or PUT is answered with the route fault (R206). -/
theorem State.serve_elsewhere (h8 : p.typ ≠ 8) (hA : p.typ ≠ 0xA) (hserved : ¬s.servesHere p.place (panelTarget s.units.gridClass p.addr) = true) :
    s.serve i p x = (s.dropPacket i).inject [replyTo p 6 [] false (some .route)] := by
  unfold State.serve faultReply
  simp [hgone, hserved, h8, hA]

variable (hserved : s.servesHere p.place (panelTarget s.units.gridClass p.addr) = true)
include hserved

/-- A GET: its row is read in the cycle of its service. -/
theorem State.serve_get (h : p.typ = 2) : s.serve i p x =
    let u := (s.dropPacket i).serviceAt (panelTarget s.units.gridClass p.addr) x
    let a := u.cellAddr (panelTarget s.units.gridClass p.addr)
    (u.consumePoison p.core (u.core p.core).cycle (panelTarget s.units.gridClass p.addr)).inject [replyTo p 4 (u.readRow a) (u.isPoisoned a) none] := by
  unfold State.serve
  simp [hgone, hserved, h]

/-- A READ_REQ is served by the DMA's read. -/
theorem State.serve_readReq (h : p.typ = 8) : s.serve i p x = (s.dropPacket i).serveRead p (panelTarget s.units.gridClass p.addr) x := by
  unfold State.serve
  simp [hgone, hserved, h]

/-- A write that breaks protection: its fault is raised and answered (R206, R215). -/
theorem State.serve_protected (h : p.typ = 3) (hforbid : s.writeForbidden (panelTarget s.units.gridClass p.addr) = true) :
    s.serve i p x = ((s.dropPacket i).senderFault p .protection).inject [replyTo p 6 [] false (some .protection)] := by
  unfold State.serve faultReply
  simp [hgone, hserved, h, hforbid]

/-- A PUT of an HBM unit is written and answered. -/
theorem State.serve_put (h : p.typ = 3) (hfree : s.writeForbidden (panelTarget s.units.gridClass p.addr) = false)
    (hmem : targetMem (panelTarget s.units.gridClass p.addr) = none) :
    s.serve i p x = ((s.dropPacket i).writeRow (s.cellAddr (panelTarget s.units.gridClass p.addr)) p.payload p.poison).inject
      [replyTo p 5 [] false none] := by
  unfold State.serve writeReply
  simp [hgone, hserved, h, hfree, hmem]

/-- A PUT of a row joins the memory's arrived rows, with its acknowledgement. -/
theorem State.serve_putRow (h : p.typ = 3) (hfree : s.writeForbidden (panelTarget s.units.gridClass p.addr) = false)
    (hmem : targetMem (panelTarget s.units.gridClass p.addr) = some m) :
    s.serve i p x =
      let y := (s.dropPacket i).agentFrom m x
      ((s.dropPacket i).agentServed m y).pushArrived m
        { cycle := y, row := targetRow (panelTarget s.units.gridClass p.addr), bytes := p.payload, poison := p.poison, plane := p.plane, route := p.routeId,
          sender := p.core, notify := none, ack := some (replyTo p 5 [] false none) } := by
  unfold State.serve writeReply
  simp [hgone, hserved, h, hfree, hmem]

variable (h : p.typ = 0xA)
include h

/-- A HOST request at an I/O die that carries no unit is answered with the unit (R260). -/
theorem State.serve_hostRead (hplace : 0x100 ≤ p.place) (hnone : p.payload = []) :
    let a := s.cellAddr (panelTarget s.units.gridClass p.addr)
    s.serve i p x = (s.dropPacket i).inject [hostReply p (s.readRow a) (s.isPoisoned a) none] := by
  have hout : ¬p.place < 0x100 := by omega
  unfold State.serve readReply Packet.reads
  simp only [hgone, hserved, h, hnone, hout]
  rfl

/-- A HOST request that carries a unit writes it (R245). -/
theorem State.serve_hostWrite (hsome : p.payload ≠ []) (hmem : targetMem (panelTarget s.units.gridClass p.addr) = none) :
    s.serve i p x = ((s.dropPacket i).writeRow (s.cellAddr (panelTarget s.units.gridClass p.addr)) p.payload p.poison).inject
      [hostReply p [] false none] := by
  have hreads : p.reads = false := by simp [Packet.reads, h, hsome]
  unfold State.serve writeReply
  simp [hgone, hserved, h, hreads, hmem]

end

/-! ### What the answers leave -/

/-- The fault that a receiving die raises keeps panel memory and the packets. -/
theorem State.senderFault_keeps (s : State) (p : Packet) (kind : CoreFaultKind) :
    (s.senderFault p kind).mem = s.mem ∧ (s.senderFault p kind).fabric = s.fabric := by
  unfold State.senderFault
  split
  · obtain ⟨l, hl⟩ := s.coreFault_agent p.core kind p.pc p.word (s.core p.core).cycle (s.reporterAt p.place) p.place
    exact ⟨hl.mem, hl.fabric⟩
  · exact ⟨(FailuresOnly.trans (s.addError_failuresOnly _) (State.failStep_failuresOnly _ _ _ _ _)).mem,
      (FailuresOnly.trans (s.addError_failuresOnly _) (State.failStep_failuresOnly _ _ _ _ _)).fabric⟩

theorem mem_insertArrived {a b : Arrived} {as : List Arrived} : b ∈ insertArrived a as ↔ b = a ∨ b ∈ as := by
  induction as with
  | nil => simp [insertArrived]
  | cons c cs ih =>
    unfold insertArrived
    split
    · exact List.mem_cons
    · simp only [List.mem_cons, ih]
      tauto

@[simp] theorem length_insertArrived (a : Arrived) (as : List Arrived) : (insertArrived a as).length = as.length + 1 := by
  induction as with
  | nil => rfl
  | cons c cs ih =>
    unfold insertArrived
    split
    · rfl
    · rw [List.length_cons, ih, List.length_cons]

/-- The address of a row of a row memory does not depend on the state. -/
theorem State.cellAddr_of_targetMem {t : Target} (h : targetMem t = some m) (s u : State) : u.cellAddr t = s.cellAddr t := by
  cases t with
  | scratch d k r => rfl
  | cluster d j r => rfl
  | hbm a => cases h
  | launch io ch => cases h
  | none => cases h

theorem FailuresOnly.readRow {t : State} (h : FailuresOnly s t) (a : Nat) : t.readRow a = s.readRow a := by
  unfold State.readRow
  rw [h.mem]

/-- A READ_REQ of a row memory is answered with the row, which its read leaves as it was. -/
theorem State.serveRead_answers {t : Target} (hmem : targetMem t = some m) (h : p.typ = 8) (s : State) :
    ∃ (u : State) (b : Bool), s.serveRead p t x = u.inject [dataReply p (u.readRow (s.cellAddr t)) b] := by
  unfold State.serveRead readReply
  rw [hmem]
  dsimp only
  rw [if_pos h, if_pos h, State.cellAddr_of_targetMem hmem s]
  exact ⟨_, _, by rw [(State.consumePoison_failuresOnly _ _ _ _).readRow]⟩

end Sys2Proof.Machine
end

section
/-! PROOF. The one access of a cluster: the cycle in which a reply's row lands (04 R167, R222; 06 R221, R223). -/

namespace Sys2Proof.Machine

theorem clusterCores_nodup (ci : Nat) : (clusterCores ci).Nodup := List.nodup_range.map fun a b h => by simpa using h

/-- Over distinct places of which all but one give nothing. -/
theorem flatMap_of_sole {α β : Type} {f : α → List β} {l : List α} {c : α} (hl : l.Nodup) (hc : c ∈ l) (h : ∀ d ∈ l, d ≠ c → f d = []) :
    l.flatMap f = f c := by
  obtain ⟨l1, l2, rfl⟩ := List.append_of_mem hc
  obtain ⟨h1, h2⟩ : c ∉ l1 ∧ c ∉ l2 := by
    rw [List.nodup_append, List.nodup_cons] at hl
    exact ⟨fun hmem => hl.2.2 c hmem c List.mem_cons_self rfl, hl.2.1.1⟩
  have hl1 : l1.flatMap f = [] := List.flatMap_eq_nil_iff.2 fun d hd => h d (List.mem_append_left _ hd) fun he => h1 (he ▸ hd)
  have hl2 : l2.flatMap f = [] :=
    List.flatMap_eq_nil_iff.2 fun d hd => h d (List.mem_append_right _ (List.mem_cons_of_mem _ hd)) fun he => h2 (he ▸ hd)
  rw [List.flatMap_append, List.flatMap_cons, hl1, hl2, List.nil_append, List.append_nil]

/-! ### The end of a reply -/

/-- Of a core's slots one is free and its counter has counted, as a reply leaves them (R167). -/
def Core.Replied (k k' : Core) (slot ctr : Nat) : Prop :=
  k'.slots = terase slot k.slots ∧ (∀ j, k'.creg j = if j = ctr then k.creg j + 1 else k.creg j) ∧ GKept k k' ∧ VKept k k'

/-- A slot freed and its increment counted, whatever the scoreboard. -/
theorem Core.replied_of (k : Core) (slot ctr x : Nat) (t : Timing) : k.Replied { (k.freeSlotAt slot x).countInc ctr x with timing := t } slot ctr := by
  refine ⟨rfl, fun j => ?_, fun _ => rfl, fun _ => rfl⟩
  refine ((k.freeSlotAt slot x).creg_incC ctr j).trans ?_
  split
  · next h => rw [h]; rfl
  · rfl

/-- A reply that has landed frees its slot and counts (R167). -/
theorem Core.jobDone_reply {k : Core} {j : Job} {slot : Nat} {e : ReplySlot} (x : Nat) (hunit : j.unit = 6) (hslot : j.slot = some slot)
    (he : tget none k.slots slot = some e) : k.jobDone j x = (k.freeSlotAt slot x).countInc e.ctr x := by
  simp [Core.jobDone, hunit, hslot, he]

/-- A core whose one instruction is a reply that lands, at the end of the cycle of its write. -/
theorem Core.cycleEnd_reply {k : Core} {j : Job} {a : Act} {slot c : Nat} {e : ReplySlot} (hjobs : k.timing.jobs = [j]) (hunit : j.unit = 6)
    (hacts : j.acts = [a]) (hslot : j.slot = some slot) (he : tget none k.slots slot = some e) :
    ∃ t, k.cycleEnd [{ core := c, idx := 0, wins := [a], yields := [] }] a.cyc =
      ({ (k.freeSlotAt slot a.cyc).countInc e.ctr a.cyc with timing := t }, []) := by
  have hsettled : (k.settled { core := c, idx := 0, wins := [a], yields := [] } a.cyc) =
      { k with timing := { k.timing with jobs := [{ j with acts := [] }] } } := by
    simp [Core.settled, hjobs, Core.modJob, Job.later, Job.after, hacts]
  have hadds : ∀ k : Core, k.addsTo { j with acts := [] } = [] := fun k => by simp [Core.addsTo, hunit]
  have hdone : ({ k with timing := { k.timing with jobs := [{ j with acts := [] }] } } : Core).jobDone { j with acts := [] } a.cyc = _ :=
    Core.jobDone_reply a.cyc hunit hslot he
  unfold Core.cycleEnd
  simp only [List.foldl_cons, List.foldl_nil, hsettled, Core.endJobs, Job.heldBy, List.any_nil, Bool.and_false, Bool.not_false, and_self, if_true,
    hdone, hadds]
  exact ⟨_, rfl⟩

/-! ### The cycle of the write -/

/-- One instruction is under way in a core's cluster, of the remote-access agent, with one write to come. -/
structure State.SoleWrite (s : State) (c : Nat) (j : Job) (a : Act) : Prop where
  jobs : (s.core c).timing.jobs = [j]
  idle : ∀ d, d / 8 = c / 8 → d ≠ c → (s.core d).timing.jobs = []
  unit : j.unit = 6
  acts : j.acts = [a]
  write : a.write = true

namespace State.SoleWrite

variable {s : State} {c : Nat} {j : Job} {a : Act} (h : s.SoleWrite c j a)
include h

theorem flatMap_jobs {β : Type} (f : Nat → List Job → List β) (hf : ∀ d, f d [] = []) :
    (clusterCores (c / 8)).flatMap (fun d => f d (s.core d).timing.jobs) = f c [j] := by
  rw [flatMap_of_sole (clusterCores_nodup _) (mem_clusterCores.2 rfl) fun d hd hne => by rw [h.idle d (mem_clusterCores.1 hd) hne, hf], h.jobs]

theorem actsLeft : s.actsLeft (c / 8) = 1 := by
  unfold State.actsLeft
  rw [h.flatMap_jobs (fun _ js => js.map (·.acts.length)) fun _ => rfl]
  simp [h.acts]

theorem nextAct : s.nextAct (c / 8) = some a.cyc := by
  unfold State.nextAct
  rw [h.flatMap_jobs (fun _ js => js) fun _ => rfl]
  simp [nextOf, h.acts]

theorem dueAt : j.dueAt a.cyc = [a] := by simp [Job.dueAt, h.acts]
theorem after : j.after a.cyc = [] := by simp [Job.after, h.acts]

/-- Its write takes its port. -/
theorem claimOf : claimOf [] c 0 j a.cyc = { core := c, idx := 0, wins := [a], yields := [] } := by
  simp [Machine.claimOf, h.dueAt, h.unit]

theorem claims : s.claims (c / 8) a.cyc = [{ core := c, idx := 0, wins := [a], yields := [] }] := by
  have hunit : ∀ u, (clusterCores (c / 8)).flatMap (fun d =>
      (((s.core d).timing.jobs.zip (List.range (s.core d).timing.jobs.length)).filter
        (fun p => p.1.unit == u && p.1.dueAt a.cyc != [])).map (fun p => (d, p.2, p.1))) = if u = 6 then [(c, 0, j)] else [] := by
    intro u
    rw [h.flatMap_jobs (fun d js => ((js.zip (List.range js.length)).filter (fun p => p.1.unit == u && p.1.dueAt a.cyc != [])).map
      (fun p => (d, p.2, p.1))) fun _ => rfl]
    by_cases hu : u = 6
    · simp [hu, h.unit, h.dueAt]
    · simp [hu, h.unit, Ne.symm hu]
  unfold State.claims
  simp only [hunit, portOrder]
  simp [h.claimOf]

/-- Its cycle writes its row, and ends it. -/
theorem cycleAt :
    let u := s.writeAct c 0 a
    let r := (u.core c).cycleEnd [{ core := c, idx := 0, wins := [a], yields := [] }] a.cyc
    s.cycleAt (c / 8) a.cyc = (u.setCore c r.1).accRead c a.cyc r.2 := by
  have hcore : (clusterCores (c / 8)).filter (fun d => c == d) = [c] := by
    have hcount := List.count_eq_one_of_mem (clusterCores_nodup (c / 8)) (mem_clusterCores.2 (rfl : c / 8 = c / 8))
    simp only [Bool.beq_comm (a := c)]
    rw [List.filter_beq, hcount]
    rfl
  unfold State.cycleAt
  rw [h.claims]
  simp [hcore, h.write]

/-- The time up to the core's last access is that cycle. -/
theorem runCore : s.runCore c = s.cycleAt (c / 8) a.cyc := by
  unfold State.runCore State.runWhile
  rw [h.actsLeft]
  dsimp only
  rw [h.nextAct]
  simp [h.jobs, h.acts, State.runWhile]

end State.SoleWrite

/-- A reply that lands as its cluster's one access: its row and mark are written, its slot is free, its counter has counted, and no other core changes. -/
theorem State.SoleWrite.lands {s : State} {c slot : Nat} {j : Job} {a : Act} {e : ReplySlot} (h : s.SoleWrite c j a) (hslot : j.slot = some slot)
    (he : tget none (s.core c).slots slot = some e) :
    let u := s.runCore c
    u.mem = writeBytes s.mem (a.addr c) (fitBytes 512 j.bytes) ∧ u.isPoisoned (a.addr c) = j.bad ∧ (s.core c).Replied (u.core c) slot e.ctr ∧
      ∀ d, d ≠ c → u.core d = s.core d := by
  intro u
  have hjob : (s.core c).timing.jobs[0]? = some j := by rw [h.jobs]; rfl
  have hwrite : s.jobWrite c j a.key = (j.bytes, j.bad, {}) := by simp [State.jobWrite, h.unit]
  obtain ⟨r, hr, hact⟩ := State.writeAct_of_job a hjob
  rw [hwrite] at hact
  obtain ⟨t, hend⟩ := Core.cycleEnd_reply (c := c)
    (k := ((s.core c).setFlags {}).modJob 0 (fun j => { j with rows := terase a.key j.rows })) (j := { j with rows := terase a.key j.rows }) (a := a)
    (by simp [Core.modJob, Core.setFlags, h.jobs]) h.unit h.acts hslot he
  have hrun : u = ((s.writeAct c 0 a).setCore c _).accRead c a.cyc _ := h.runCore.trans h.cycleAt
  rw [hact, State.core_setCore_same, hend, State.accRead_nil] at hrun
  rw [hrun]
  refine ⟨?_, ?_, ?_, fun d hd => ?_⟩
  · show writeBytes r.mem _ _ = _
    rw [hr.mem]
  · exact r.isPoisoned_writeRow_same (a.addr c) j.bytes j.bad
  · rw [State.core_setCore_same]
    exact (s.core c).replied_of slot e.ctr a.cyc t
  · rw [State.core_setCore_ne _ _ _ _ hd, State.core_setCore_ne _ _ _ _ hd]
    exact hr.core d

end Sys2Proof.Machine
end

section
/-! PROOF. Replies at their core's die, and requests with their replies together (04 R167, R212, R215; 06 R206, R222, R232). -/

namespace Sys2Proof.Machine

/-! ### Replies (R167, R222) -/

section

variable {s : State} {i x d : Nat} {p : Packet} {e : ReplySlot}

/-- What a reply with its slot does at its core's die. -/
def State.takeReply (s : State) (i x d : Nat) (p : Packet) (e : ReplySlot) : State :=
  let c := d * 16 + p.dcore
  let s0 := s.dropPacket i
  if p.typ = 4 then (s0.runTo (c / 8) x).modCore c fun k => k.start (replyJob p e (s0.readFrom c (e.lrow % memRows c) x))
  else if p.typ = 5 then (s0.modCore c fun k => k.freeSlotAt p.tag x).increment c e.ctr x
  else if p.fault = some .protection then (s0.modCore c fun k => k.freeSlotAt p.tag x).modCore c fun k => { k with mode := .faulted }
  else (s0.modCore c fun k => k.freeSlotAt p.tag x).coreFault c .route e.pc e.word x d none

theorem exec_reply (hp : s.packet i = some p) (hready : s.ready i p = true) (hdie : s.dieAt p.place = some d)
    (he : tget none (s.core (d * 16 + p.dcore)).slots p.tag = some e) (hgone : s.dieGone p.place = false)
    (hheld : s.clockHeld (d * 16 + p.dcore) = false) (htyp : p.typ = 4 ∨ p.typ = 5 ∨ p.typ = 6) :
    exec (.replyArrival i x) s = .next (s.takeReply i x d p e) := by
  have hhost : p.typ ≠ 0xA := by omega
  have hcond : s.ready i p = true ∧ (!s.clockHeld (d * 16 + p.dcore)) = true ∧ (p.typ = 4 ∨ p.typ = 5 ∨ p.typ = 6) := ⟨hready, by simp [hheld], htyp⟩
  have htaken : s.coreReply i x p = s.takeReply i x d p e := by
    unfold State.coreReply
    rw [hdie]
    dsimp only
    rw [he]
    dsimp only
    rw [if_pos hcond, hgone]
    rfl
  show execReplyArrival i x s = _
  unfold execReplyArrival
  rw [hp]
  dsimp only
  rw [if_neg hhost, htaken]

theorem State.takeReply_row (h : p.typ = 4) : s.takeReply i x d p e =
    ((s.dropPacket i).runTo ((d * 16 + p.dcore) / 8) x).modCore (d * 16 + p.dcore)
      (fun k => k.start (replyJob p e ((s.dropPacket i).readFrom (d * 16 + p.dcore) (e.lrow % memRows (d * 16 + p.dcore)) x))) := if_pos h

/-- The row that a reply brings lands as the one access of a cluster that has no other to come. -/
theorem State.takeReply_lands (h : p.typ = 4) (hc : d * 16 + p.dcore < 2304) (hrow : e.lrow < 8192)
    (he : tget none (s.core (d * 16 + p.dcore)).slots p.tag = some e)
    (hidle : ∀ j, j / 8 = (d * 16 + p.dcore) / 8 → (s.core j).timing.jobs = []) :
    (s.takeReply i x d p e).mem = s.mem ∧
      let c := d * 16 + p.dcore
      let u := (s.takeReply i x d p e).runCore c
      u.mem = writeBytes s.mem (memRowAddr c e.lrow) (fitBytes 512 p.payload) ∧ u.isPoisoned (memRowAddr c e.lrow) = p.poison ∧
        (s.core c).Replied (u.core c) p.tag e.ctr ∧ ∀ j, j ≠ c → u.core j = s.core j := by
  rw [State.takeReply_row h, State.idleCluster.runTo (s := s.dropPacket i) hidle]
  generalize d * 16 + p.dcore = c at *
  generalize (s.dropPacket i).readFrom c (e.lrow % memRows c) x = y
  refine ⟨rfl, ?_⟩
  set j := replyJob p e y
  set t := (s.dropPacket i).modCore c fun k => k.start j
  have hcore : t.core c = (s.core c).start j := State.core_setCore_same _ _ _
  have hothers : ∀ b, b ≠ c → t.core b = s.core b := fun b hb => State.core_setCore_ne _ _ _ _ hb
  have hsole : t.SoleWrite c j { cyc := y, write := true, cluster := false, row := e.lrow, key := 0 } :=
    { jobs := by
        rw [hcore]
        show (s.core c).timing.jobs ++ [j] = _
        rw [hidle c rfl]
        rfl
      idle := fun b hb hne => (congrArg (·.timing.jobs) (hothers b hne)).trans (hidle b hb)
      unit := rfl
      acts := rfl
      write := rfl }
  have haddr : ({ cyc := y, write := true, cluster := false, row := e.lrow, key := 0 } : Act).addr c = memRowAddr c e.lrow := by
    show memRowAddr c (e.lrow % memRows c) = _
    rw [memRows, if_pos (by omega), Nat.mod_eq_of_lt hrow]
  obtain ⟨hmem, hpoison, hreplied, hkept⟩ := hsole.lands (slot := p.tag) (e := e) rfl (by rw [hcore]; exact he)
  rw [haddr] at hmem hpoison
  rw [hcore] at hreplied
  exact ⟨hmem, hpoison, hreplied, fun b hb => (hkept b hb).trans (hothers b hb)⟩

/-- An acknowledgement frees its slot and counts. -/
theorem State.takeReply_ack (h : p.typ = 5) : ∃ k k', s.takeReply i x d p e = ((s.dropPacket i).setCore (d * 16 + p.dcore) k).setCore (d * 16 + p.dcore) k' ∧
    (s.core (d * 16 + p.dcore)).Replied k' p.tag e.ctr := by
  refine ⟨_, _, (if_neg (by omega)).trans (if_pos h), ?_⟩
  rw [State.modCore, State.core_setCore_same]
  exact Core.replied_of _ _ _ _ _

/-- A fault reply frees its slot and stops the core. -/
theorem State.takeReply_fault (h : p.typ = 6) :
    let t := s.takeReply i x d p e
    let c := d * 16 + p.dcore
    t.mem = s.mem ∧ (t.core c).mode = .faulted ∧ (t.core c).slots = terase p.tag (s.core c).slots ∧ ∀ j, (t.core c).creg j = (s.core c).creg j := by
  intro t c
  by_cases hprot : p.fault = some .protection
  · have ht : t = _ := (if_neg (by omega)).trans ((if_neg (by omega)).trans (if_pos hprot))
    rw [ht, State.modCore, State.modCore, State.core_setCore_same, State.core_setCore_same]
    exact ⟨rfl, rfl, rfl, fun _ => rfl⟩
  · have ht : t = _ := (if_neg (by omega)).trans ((if_neg (by omega)).trans (if_neg hprot))
    have hown := State.coreFault_own ((s.dropPacket i).modCore c fun k => k.freeSlotAt p.tag x) c .route e.pc e.word x d
    rw [ht, hown.mem, hown.core c, State.core_setCore_same, State.modCore, State.core_setCore_same]
    exact ⟨rfl, rfl, rfl, fun _ => rfl⟩

end

/-! ### Requests and their answers (R206, R232, R243, R245, R260, R288, R477) -/

@[simp] theorem Packet.entered_tag (p : Packet) (n : Nat) : (p.entered n).tag = p.tag := rfl

/-- An answer that is handed out is the last of the packets, with its own header but for what the router numbers. -/
theorem State.inject_answer {s u : State} {i : Nat} {q : Packet} (hu : u.fabric.packets = s.fabric.packets.eraseIdx i) (hq : q.typ ≠ 7) :
    (u.inject [q]).fabric.packets = s.fabric.packets.eraseIdx i ++ [q.entered u.fabric.nextUid] := by rw [State.inject_one _ hq, hu]

/-- Settles O44: a request's grant changes the arbiters alone (`State.quota_eq`), and then each answer is one case of `State.serve`, the packet of which enters the
fabric; a reply's cases are those of `State.takeReply`. -/
theorem requestsAndReplies : Obligations.RequestsAndReplies := by
  unfold Obligations.RequestsAndReplies
  refine ⟨fun i x s s1 p => ?_, fun i x s p hp hmay hquota => exec_request_waits hp hquota, fun i x d s p e => ?_⟩
  · intro a hp hmay hyield hquota
    have htyp := State.typ_of_mayServe hmay
    rw [exec_request hp hmay hyield hquota]
    obtain ⟨as, rfl⟩ := State.quota_eq hquota
    set s1 : State := { s with fabric := { s.fabric with arbiters := as } }
    refine ⟨fun hgone hA => ?_, fun hgone => ?_⟩
    · have hbefore : p.typ = 2 ∨ p.typ = 3 ∨ p.typ = 8 := by tauto
      obtain ⟨hmark, htag, hdst⟩ := poisonReply_back p
      have hout : (poisonReply p).typ ≠ 7 := by
        rw [poisonReply_typ hbefore]
        split_ifs <;> decide
      exact ⟨_, _, congrArg Host.Outcome.next (State.serve_gone hgone), rfl, rfl, State.inject_answer rfl hout, hmark, htag, hdst, poisonReply_typ hbefore⟩
    intro served
    refine ⟨fun h hserved => ?_, fun h hserved hfree hmem => ?_, fun m h hserved hfree hmem => ?_, fun h hserved hforbid => ?_, fun m h hserved hmem => ?_,
      fun h hplace hserved hmem => ?_, fun h8 hA hserved => ?_⟩
    · intro u
      have hread := u.consumePoison_failuresOnly p.core (u.core p.core).cycle a
      refine ⟨_, congrArg Host.Outcome.next (State.serve_get hgone hserved h), hread.mem, hread.poison, ?_⟩
      rw [State.inject_one _ (show (4 : Nat) ≠ 7 by decide)]
      exact ⟨_, List.mem_append_right _ (List.mem_singleton.2 rfl), rfl, rfl, rfl, rfl, rfl, rfl, rfl⟩
    · exact ⟨_, congrArg Host.Outcome.next (State.serve_put hgone hserved h hfree hmem), rfl,
        (s1.dropPacket i).isPoisoned_writeRow_same (s1.cellAddr a) p.payload p.poison, _,
        State.inject_answer rfl (show (5 : Nat) ≠ 7 by decide), rfl, rfl, rfl⟩
    · refine ⟨_, congrArg Host.Outcome.next (State.serve_putRow hgone hserved h hfree hmem), rfl, rfl, ?_⟩
      rw [State.pushArrived, tget_tset_same]
      exact ⟨length_insertArrived _ _, _, mem_insertArrived.2 (.inl rfl), rfl, rfl, rfl, rfl⟩
    · obtain ⟨hmem, hfabric⟩ := (s1.dropPacket i).senderFault_keeps p .protection
      exact ⟨_, _, congrArg Host.Outcome.next (State.serve_protected hgone hserved h hforbid), hmem,
        State.inject_answer (congrArg (·.packets) hfabric) (show (6 : Nat) ≠ 7 by decide), rfl, rfl, rfl⟩
    · obtain ⟨u, b, hanswer⟩ := State.serveRead_answers (x := x) hmem h (s1.dropPacket i)
      refine ⟨_, congrArg Host.Outcome.next ((State.serve_readReq hgone hserved h).trans hanswer), ?_⟩
      rw [State.inject_one _ (show (0 : Nat) ≠ 7 by decide)]
      exact ⟨_, List.mem_append_right _ (List.mem_singleton.2 rfl), rfl, rfl, rfl, (Packet.entered_tag _ _).trans (dataReply_tag _ _ _), rfl⟩
    · have hout : p.typ ≠ 7 := by omega
      by_cases hnone : p.payload = []
      · exact ⟨_, _, congrArg Host.Outcome.next (State.serve_hostRead hgone hserved h hplace hnone), State.inject_answer rfl hout, h, rfl, rfl, rfl, rfl, rfl, rfl,
          fun hsome => absurd hnone hsome, fun _ => ⟨rfl, rfl, rfl⟩⟩
      · exact ⟨_, _, congrArg Host.Outcome.next (State.serve_hostWrite hgone hserved h hnone hmem), State.inject_answer rfl hout, h, rfl, rfl, rfl, rfl, rfl, rfl,
          fun _ => rfl, fun hempty => absurd hempty hnone⟩
    · exact ⟨_, _, congrArg Host.Outcome.next (State.serve_elsewhere hgone h8 hA hserved), rfl,
        State.inject_answer rfl (show (6 : Nat) ≠ 7 by decide), rfl, rfl, rfl⟩
  · intro c hp hready hdie he hgone hheld
    have hexec := fun htyp => exec_reply (x := x) hp hready hdie he hgone hheld htyp
    refine ⟨fun h => ?_, fun h hc hrow hidle => ?_, fun h => ?_, fun h => ?_⟩
    · rw [hexec (.inl h), State.takeReply_row h]
    · obtain ⟨hmem, hrow, hpoison, ⟨hslots, hctr, hg, hv⟩, hkept⟩ := State.takeReply_lands (i := i) (x := x) h hc hrow he hidle
      exact ⟨_, hexec (.inl h), hmem, hrow, hpoison, hslots, hctr, hg, hv, hkept⟩
    · obtain ⟨k, k', htaken, hslots, hctr, hg, hv⟩ := State.takeReply_ack (s := s) (i := i) (x := x) (d := d) (e := e) h
      refine ⟨_, (hexec (.inr (.inl h))).trans (congrArg Host.Outcome.next htaken), rfl, rfl, ?_, ?_, ?_, ?_, fun b hb => ?_⟩
      · rwa [State.core_setCore_same]
      · rwa [State.core_setCore_same]
      · rwa [State.core_setCore_same]
      · rwa [State.core_setCore_same]
      · rw [State.core_setCore_ne _ _ _ _ hb, State.core_setCore_ne _ _ _ _ hb]
        rfl
    · exact ⟨_, hexec (.inr (.inr h)), State.takeReply_fault h⟩

end Sys2Proof.Machine
end

section
/-! PROOF. The opcode of a word, issue cycles, and what an issued instruction leaves of its core (04 R130, R163; 05 R180, R185). -/

namespace Sys2Proof.Machine

/-! ### Words (R180, Table 5.4) -/

theorem fld_lt (w : BitVec 64) (hi lo : Nat) : fld w hi lo < 2 ^ (hi + 1 - lo) := Nat.mod_lt _ (Nat.two_pow_pos _)

theorem wordOf_toNat {opc : Nat} (h : opc < 256) (body : BitVec 56) : (wordOf opc body).toNat = opc * 2 ^ 56 + body.toNat := by
  unfold wordOf
  rw [BitVec.toNat_append, ← Nat.shiftLeft_add_eq_or_of_lt body.isLt, Nat.shiftLeft_eq, BitVec.toNat_ofNat, Nat.mod_eq_of_lt h]

/-- The major opcode of a command's word is the command's. -/
theorem fld_wordOf_opc {opc : Nat} (h : opc < 256) (body : BitVec 56) : fld (wordOf opc body) 63 56 = opc := by
  have hbody := body.isLt
  unfold fld bitsOf
  rw [wordOf_toNat h]
  omega

theorem fld_sysWord_opc (fn : Nat) (body : BitVec 48) : fld (sysWord fn body) 63 56 = 0x12 := fld_wordOf_opc (by decide) _

/-- The FN of a system read's word. -/
theorem fld_sysWord_fn {fn : Nat} (h : fn < 256) (body : BitVec 48) : fld (sysWord fn body) 55 48 = fn := by
  have hbody := body.isLt
  unfold fld bitsOf sysWord
  rw [wordOf_toNat (by decide), BitVec.toNat_append, ← Nat.shiftLeft_add_eq_or_of_lt body.isLt, Nat.shiftLeft_eq, BitVec.toNat_ofNat,
    Nat.mod_eq_of_lt h]
  omega

/-! ### Issue cycles (R130) -/

theorem le_foldl_max (xs : List Nat) (m : Nat) : m ≤ xs.foldl max m := by
  rw [List.foldl_max]
  exact le_sup_left

theorem le_foldl_max_of_mem {x : Nat} {xs : List Nat} (h : x ∈ xs) (m : Nat) : x ≤ xs.foldl max m := by
  induction xs generalizing m with
  | nil => exact absurd h List.not_mem_nil
  | cons y ys ih =>
    obtain rfl | h := List.mem_cons.1 h
    · exact (Nat.le_max_right m x).trans (le_foldl_max ys _)
    · exact ih h _

/-- A word issues after the last issue, and once all that it waits for has come. -/
theorem Core.cycle_lt_issueAt (k : Core) (w : BitVec 64) : k.cycle < k.issueAt w := le_foldl_max _ _
theorem Core.le_issueAt {k : Core} {w : BitVec 64} {t : Nat} (h : t ∈ k.waits w) : t ≤ k.issueAt w := le_foldl_max_of_mem h _

/-! ### Registers -/

/-- The core with another scoreboard, after an instruction that writes g[gd]. -/
theorem writesG_issued (k : Core) (cyc gd : Nat) (v : BitVec 64) (t : Timing) : WritesG k { (k.issued cyc).setG gd v with timing := t } gd v := by
  refine ⟨?_, fun j => ((k.issued cyc).greg_setG gd v j), ?_, ?_, ?_, ?_, ?_, ?_⟩
  · exact ⟨by simp [Core.issued], by simp [Core.issued]⟩
  · exact fun j => Core.vreg_of_v (by simp) j
  · exact ⟨by simp, by simp, by simp⟩
  · exact ⟨by simp, by simp, by simp, by simp⟩
  · exact ⟨by simp, by simp, by simp, by simp, by simp, by simp, by simp, by simp⟩
  · simp
  · simp

theorem Core.scalarResult_writesG (k : Core) (gd : Nat) (v : BitVec 64) (cyc ready : Nat) : WritesG k (k.scalarResult gd v cyc ready) gd v :=
  writesG_issued k cyc gd v _

/-- A vector result is its register's new value, and with the poison marks and the scoreboard all that changes. -/
theorem Core.vecResult_writesV (k : Core) (vd : Nat) (reads : List Nat) (bs : List Byte) (cyc occ lat : Nat) :
    WritesV k (k.vecResult vd reads bs cyc occ lat) vd bs :=
  ⟨⟨rfl, rfl⟩, fun j => k.vreg_setV vd bs j, fun _ => rfl, ⟨rfl, rfl, rfl⟩, ⟨rfl, rfl, rfl, rfl⟩, ⟨rfl, rfl, rfl, rfl, rfl, rfl, rfl, rfl⟩, rfl, rfl⟩

theorem fitBytes_fitBytes (n : Nat) (bs : List Byte) : fitBytes n (fitBytes n bs) = fitBytes n bs := by
  rw [fitBytes, length_fitBytes, List.take_of_length_le (length_fitBytes n bs).le, Nat.sub_self, List.replicate_zero, List.append_nil]

end Sys2Proof.Machine
end

section
/-! PROOF. NOP, LOOP and SLOT (04 R155; 05 R185, R187). -/

namespace Sys2Proof.Machine

/-! ### NOP -/

/-- NOP waits for the scalar unit alone (R130). -/
theorem Core.issueAt_nop (k : Core) (body : BitVec 56) : k.issueAt (wordOf 0x01 body) = max (k.cycle + 1) (k.unitAt 0) := by
  unfold Core.issueAt Core.waits
  rw [fld_wordOf_opc (by decide)]
  rfl

/-- Settles O7: both clauses are NOP's one branch on its RSV bits, its issue cycle is `Core.issueAt_nop`. -/
theorem nopOnlyAdvances : Obligations.NopOnlyAdvances := by
  unfold Obligations.NopOnlyAdvances
  refine ⟨fun c s => ?_, fun c body s => ?_⟩
  · intro w u k h
    have hexec : exec (.nop c 0) s = .next (u.setCore c ((k.issued (k.issueAt w)).occupy 0 (k.issueAt w + 1))) := by
      show execNop c 0 s = _
      unfold execNop
      rw [issue_at _ h (u := u) (k := k) rfl rfl]
      rfl
    have hcycle : k.issueAt w = max (k.cycle + 1) (k.unitAt 0) := k.issueAt_nop 0
    exact ⟨_, hexec, onlyAdvanced_issued _ _ _, hcycle, Core.unitAt_occupy _ _ _⟩
  · intro w h hbody
    show execNop c body s = _
    unfold execNop
    rw [issue_at _ h rfl rfl]
    exact congrArg Host.Outcome.next (if_pos hbody)

/-! ### LOOP and the loop rule (R185) -/

theorem loopNext_inside {a : Nat} {l : Loop} (ls : List Loop) (h : a ≠ l.lend) : loopNext a (l :: ls) = (a + 1, l :: ls) := if_neg h

/-- At the last word of a body with trips left the innermost level has one trip fewer. -/
theorem loopNext_again {a : Nat} {l : Loop} (ls : List Loop) (h : a = l.lend) (hl : 2 ≤ l.left) :
    loopNext a (l :: ls) = (l.lstart, { l with left := l.left - 1 } :: ls) := by
  have htrips : l.left - 1 ≠ 0 := by omega
  rw [loopNext, if_pos h, if_pos htrips]

/-- After the last trip the loop around takes over. -/
theorem loopNext_falls {a : Nat} {l : Loop} (ls : List Loop) (h : a = l.lend) (hl : l.left = 1) : loopNext a (l :: ls) = loopNext a ls := by
  have htrips : ¬l.left - 1 ≠ 0 := by omega
  rw [loopNext, if_pos h, if_neg htrips]

/-- The core after a legal LOOP: the word behind the body or its first, the latter with a new innermost level (R185). -/
def Core.looped (k : Core) (w : BitVec 64) : Core :=
  let b := fld w 45 32
  let n := fld w 31 0
  { k with cycle := k.issueAt w, pc := if n = 0 then k.pc + b + 1 else k.pc + 1,
           loops := if n = 0 then k.loops else { lstart := k.pc + 1, lend := k.pc + b, left := n } :: k.loops }.occupy 0 (k.issueAt w + 1)

theorem exec_loop {c : Nat} {body : BitVec 56} {s u : State} {k : Core} (h : Issues c (wordOf 0x02 body) s) (hu : s.atIssue c (wordOf 0x02 body) = u)
    (hk : u.core c = k) (hlegal : loopBad k (wordOf 0x02 body) = false) :
    exec (.loop c body) s = .next (u.setCore c (k.looped (wordOf 0x02 body))) := by
  show execLoop c body s = _
  unfold execLoop
  rw [issue_at _ h hu hk]
  exact congrArg Host.Outcome.next (if_neg (by simp [hlegal]))

/-- Settles O8: LOOP leaves `Core.looped`, and the other clauses are the loop rule's branches. -/
theorem loopsRepeat : Obligations.LoopsRepeat := by
  unfold Obligations.LoopsRepeat
  refine ⟨fun c body s => ?_, fun a => rfl, fun a l ls => loopNext_inside ls, fun a l ls => loopNext_again ls, fun a l ls => loopNext_falls ls⟩
  intro w u k h hlegal
  have hexec : exec (.loop c body) s = .next (u.setCore c (k.looped w)) := exec_loop h rfl rfl hlegal
  refine ⟨_, hexec, fun hn => ⟨if_pos hn, if_pos hn⟩, fun hn => ⟨if_neg hn, if_neg hn⟩, ?_⟩
  clear_value w u k
  exact ⟨fun _ => rfl, fun _ => rfl, ⟨rfl, rfl, rfl⟩, ⟨rfl, rfl, rfl, rfl⟩, ⟨rfl, rfl, rfl, rfl, rfl, rfl, rfl, rfl⟩, rfl, rfl⟩

end Sys2Proof.Machine
end

section
/-! PROOF. The accesses of instructions under way leave every core's run mode as it is (04 R132; 06 R221 to R229). -/

namespace Sys2Proof.Machine

/-- A yield moves the scoreboard alone. -/
theorem Core.yielded_eq (k : Core) (j : Job) (x : Nat) (yields : List Act) : ∃ t, k.yielded j x yields = { k with timing := t } := by
  unfold Core.yielded
  extract_lets t
  split
  · exact ⟨_, rfl⟩
  · split
    · exact ⟨_, rfl⟩
    · exact ⟨_, rfl⟩
    · split <;> exact ⟨_, rfl⟩
    · exact ⟨_, rfl⟩
    · exact ⟨_, rfl⟩

/-- After its cycle a claim has moved the scoreboard and its instruction alone. -/
theorem Core.settled_eq (k : Core) (cl : Claim) (x : Nat) : ∃ t, k.settled cl x = { k with timing := t } := by
  unfold Core.settled
  split
  · exact ⟨_, rfl⟩
  · next j _ =>
    extract_lets k1
    obtain ⟨t, ht⟩ : ∃ t, k1 = { k with timing := t } := by
      unfold k1
      split
      · exact ⟨_, rfl⟩
      · exact k.yielded_eq j x cl.yields
    rw [ht]
    exact ⟨_, rfl⟩

theorem Core.mode_settled (k : Core) (cl : Claim) (x : Nat) : (k.settled cl x).mode = k.mode := by
  obtain ⟨t, ht⟩ := k.settled_eq cl x
  rw [ht]

theorem Core.mode_tmacDone (k : Core) (j : Job) : (k.tmacDone j).mode = k.mode :=
  List.foldlRecOn (motive := fun k' : Core => k'.mode = k.mode) _ _ rfl fun _ h _ _ => h

theorem Core.mode_jobDone (k : Core) (j : Job) (x : Nat) : (k.jobDone j x).mode = k.mode := by
  unfold Core.jobDone
  split
  · exact Core.setWbuf_mode _ _ _
  · exact k.mode_tmacDone j
  · split_ifs <;> rfl
  · split
    · rfl
    · split <;> rfl
  · rfl

theorem Core.mode_endJobs (x : Nat) (js before : List Job) (bad : List Nat) (k : Core) : (k.endJobs x js before bad).1.mode = k.mode := by
  induction js generalizing k before bad with
  | nil => rfl
  | cons j js ih =>
    unfold Core.endJobs
    split_ifs
    · rw [ih, Core.mode_jobDone]
    · exact ih _ _ _

theorem Core.mode_cycleEnd (k : Core) (cls : List Claim) (x : Nat) : (k.cycleEnd cls x).1.mode = k.mode := by
  unfold Core.cycleEnd
  dsimp only
  rw [Core.mode_endJobs]
  exact List.foldlRecOn (motive := fun k' : Core => k'.mode = k.mode) _ _ rfl fun k' h cl _ => (k'.mode_settled cl x).trans h

/-! ### The panel -/

/-- The run mode of a core. -/
def State.modeOf (d : Nat) (s : State) : CoreMode := (s.core d).mode

/-- A core that an update replaces by one of its mode has its mode. -/
theorem State.mode_setCore {s : State} {c : Nat} {k : Core} (h : k.mode = (s.core c).mode) (d : Nat) : ((s.setCore c k).core d).mode = (s.core d).mode := by
  rw [State.core_setCore]
  split_ifs with hd
  · rw [hd, h]
  · rfl

theorem State.mode_modCore {s : State} {c : Nat} {f : Core → Core} (h : (f (s.core c)).mode = (s.core c).mode) (d : Nat) :
    ((s.modCore c f).core d).mode = (s.core d).mode := State.mode_setCore h d

theorem State.mode_readAct (s : State) (c i : Nat) (a : Act) (d : Nat) : ((s.readAct c i a).core d).mode = (s.core d).mode := by
  have hr := s.consumePoison_failuresOnly c a.cyc (a.target c)
  unfold State.readAct
  extract_lets bytes bad s1
  have h1 : (s1.core d).mode = (s.core d).mode := by
    rw [← hr.core d]
    exact State.mode_modCore rfl d
  split <;> exact h1

theorem State.mode_writeAct (s : State) (c i : Nat) (a : Act) (d : Nat) : ((s.writeAct c i a).core d).mode = (s.core d).mode := by
  cases h : (s.core c).timing.jobs[i]? with
  | none =>
    unfold State.writeAct
    rw [h]
  | some j =>
    obtain ⟨r, hr, hact⟩ := State.writeAct_of_job a h
    have hcore : ∀ b, (r.writeRow (a.addr c) (s.jobWrite c j a.key).1 (s.jobWrite c j a.key).2.1).core b = s.core b := hr.core
    rw [hact, State.mode_setCore (by rw [hcore]; rfl), hcore]

theorem State.mode_cycleAt (s : State) (ci x d : Nat) : ((s.cycleAt ci x).core d).mode = (s.core d).mode := by
  unfold State.cycleAt
  extract_lets cls s1 s2
  have h1 : (s1.core d).mode = (s.core d).mode :=
    forEach_keeps (State.modeOf d) _ _ _ fun _ _ => forEach_keeps (State.modeOf d) _ _ _ fun _ _ => State.mode_readAct _ _ _ _ d
  have h2 : (s2.core d).mode = (s1.core d).mode :=
    forEach_keeps (State.modeOf d) _ _ _ fun _ _ => forEach_keeps (State.modeOf d) _ _ _ fun _ _ => State.mode_writeAct _ _ _ _ d
  refine (forEach_keeps (State.modeOf d) _ _ _ fun c t => ?_).trans (h2.trans h1)
  unfold State.modeOf
  rw [(State.accRead_failuresOnly _ _ _ _).core, State.mode_setCore (Core.mode_cycleEnd _ _ _)]

theorem State.mode_atIssue (s : State) (c : Nat) (w : BitVec 64) (d : Nat) : ((s.atIssue c w).core d).mode = (s.core d).mode :=
  State.runWhile_keeps (State.modeOf d) _ _ _ s fun s x => s.mode_cycleAt _ x d

end Sys2Proof.Machine
end

section
/-! PROOF. SLOT and WAIT (04 R155, R171; 05 R187). -/

namespace Sys2Proof.Machine

/-! ### SLOT -/

/-- A legal SLOT: SL is the smaller of the register and 65,535. -/
theorem exec_slot {c : Nat} {body : BitVec 56} {s u : State} {k : Core} (h : Issues c (wordOf 0x04 body) s) (hu : s.atIssue c (wordOf 0x04 body) = u)
    (hk : u.core c = k) (hhi : fld (wordOf 0x04 body) 55 43 = 0) (hlo : fld (wordOf 0x04 body) 37 0 = 0) :
    exec (.slot c body) s = .next (u.setCore c { (k.issued (k.issueAt (wordOf 0x04 body))).occupy 0 (k.issueAt (wordOf 0x04 body) + 1) with
      sl := BitVec.ofNat 16 (min (k.greg (fld (wordOf 0x04 body) 42 38)).toNat 65535) }) := by
  show execSlot c body s = _
  unfold execSlot
  rw [issue_at _ h hu hk]
  exact congrArg Host.Outcome.next (if_neg (by simp [hhi, hlo]))

theorem toNat_ofNat_min (n : Nat) : (BitVec.ofNat 16 (min n 65535)).toNat = min n 65535 := by
  rw [BitVec.toNat_ofNat, Nat.mod_eq_of_lt (by omega)]

/-! ### WAIT -/

/-- WAIT waits for no unit and no register. -/
theorem Core.issueAt_wait (k : Core) (body : BitVec 56) : k.issueAt (wordOf 0x05 body) = k.cycle + 1 := by
  unfold Core.issueAt Core.waits
  rw [fld_wordOf_opc (by decide)]
  rfl

/-- The core after a WAIT for counter `i` to come to `v`: it goes on or waits (R171). -/
def Core.waited (k : Core) (i v cyc : Nat) : Core :=
  { k.issued cyc with mode := if v ≤ k.landedBy i cyc then k.mode else .waiting i v }

theorem exec_wait {c : Nat} {body : BitVec 56} {s u : State} {k : Core} (h : Issues c (wordOf 0x05 body) s) (hu : s.atIssue c (wordOf 0x05 body) = u)
    (hk : u.core c = k) (hrsv : fld (wordOf 0x05 body) 51 32 = 0) :
    exec (.wait c body) s =
      .next (u.setCore c (k.waited (fld (wordOf 0x05 body) 55 52) (fld (wordOf 0x05 body) 31 0) (k.issueAt (wordOf 0x05 body)))) := by
  show execWait c body s = _
  unfold execWait Core.waited
  rw [issue_at _ h hu hk]
  dsimp only
  rw [if_neg (by simp [hrsv])]
  split <;> rfl

/-! ### The cycle in which a counter comes to a value (R171) -/

/-- A fold that keeps the least of the places with a property gives the least one. -/
theorem foldl_least {p : Nat → Prop} {f : Option Nat → Nat → Option Nat} (hskip : ∀ m y, ¬p y → f m y = m) (hfirst : ∀ y, p y → f none y = some y)
    (hmin : ∀ y z, p y → f (some z) y = some (min y z)) {x : Nat} (hx : p x) {xs : List Nat} {m : Option Nat} (hle : ∀ y ∈ xs, p y → x ≤ y)
    (hm : ∀ y, m = some y → x ≤ y) (hmem : m = some x ∨ x ∈ xs) : xs.foldl f m = some x := by
  induction xs generalizing m with
  | nil => exact hmem.resolve_right List.not_mem_nil
  | cons y ys ih =>
    have hrest := fun z hz => hle z (List.mem_cons_of_mem _ hz)
    rw [List.foldl_cons]
    by_cases hy : p y
    · have hxy := hle y List.mem_cons_self hy
      cases m with
      | none =>
        rw [hfirst y hy]
        refine ih hrest (fun z hz => by simp_all) ?_
        obtain hmem | hmem := hmem
        · cases hmem
        · exact (List.mem_cons.1 hmem).imp (fun h => by rw [h]) id
      | some z =>
        have hxz := hm z rfl
        rw [hmin y z hy]
        refine ih hrest (fun w hw => by simp only [Option.some.injEq] at hw; omega) ?_
        obtain hzx | hmem := hmem
        · cases hzx
          exact .inl (by rw [Nat.min_eq_right hxy])
        · exact (List.mem_cons.1 hmem).imp (fun h => by rw [← h, Nat.min_eq_left (h ▸ hxz)]) id
    · rw [hskip m y hy]
      refine ih hrest hm (hmem.imp_right fun h => (List.mem_cons.1 h).resolve_left fun hxy => hy (by rwa [← hxy]))

/-- From one cycle to the next a counter changes only by an increment that has landed in the first. -/
theorem Core.landedBy_succ {k : Core} {i x : Nat} (h : x ∉ tget [] k.timing.incs i) : k.landedBy i (x + 1) = k.landedBy i x := by
  unfold Core.landedBy
  congr 2
  refine List.filter_congr fun y hy => ?_
  have hne : y ≠ x := fun he => h (he ▸ hy)
  exact decide_eq_decide.2 (by omega)

/-- The first cycle in which a counter has come to a value is the one that the core looks for. -/
theorem Core.reachedFrom_eq {k : Core} {i v cyc x : Nat} (hx : cyc ≤ x) (hv : v ≤ k.landedBy i x)
    (hfirst : ∀ y, cyc ≤ y → y < x → k.landedBy i y < v) : k.reachedFrom i v cyc = some x := by
  have hcand : x ∈ cyc :: (tget [] k.timing.incs i).map (fun x => max cyc (x + 1)) := by
    obtain rfl | hlt := hx.eq_or_lt
    · exact List.mem_cons_self
    · obtain ⟨y, rfl⟩ : ∃ y, x = y + 1 := ⟨x - 1, by omega⟩
      have hbefore := hfirst y (by omega) (by omega)
      have hlands : y ∈ tget [] k.timing.incs i := by
        by_contra hnot
        rw [Core.landedBy_succ hnot] at hv
        omega
      exact List.mem_cons_of_mem _ (List.mem_map.2 ⟨y, hlands, by omega⟩)
  have hleast : ∀ y ∈ cyc :: (tget [] k.timing.incs i).map (fun x => max cyc (x + 1)), v ≤ k.landedBy i y → x ≤ y := by
    intro y hy hvy
    have hcyc : cyc ≤ y := by
      obtain rfl | hy := List.mem_cons.1 hy
      · exact Nat.le_refl _
      · obtain ⟨z, -, rfl⟩ := List.mem_map.1 hy
        omega
    by_contra hlt
    have := hfirst y hcyc (by omega)
    omega
  unfold Core.reachedFrom
  exact foldl_least (p := fun y => v ≤ k.landedBy i y) (fun _ _ h => if_neg h) (fun _ h => if_pos h) (fun _ _ h => if_pos h) hv hleast
    (fun _ h => by cases h) (.inr hcand)

theorem State.runUntil_enough {s : State} {enough : State → Bool} (h : enough s = true) (ci : Nat) : s.runUntil ci enough = s := by
  unfold State.runUntil
  cases s.actsLeft ci with
  | zero => rfl
  | succ n =>
    unfold State.runFor
    exact if_pos h

/-- A waiting core whose counter comes to the value goes on after the first cycle in which it has. -/
theorem exec_waitComplete {c r v x : Nat} {s : State} (hheld : s.clockHeld c = false) (hmode : (s.core c).mode = .waiting r v)
    (hreached : (s.core c).reachedFrom r v (s.core c).cycle = some x) :
    exec (.waitComplete c) s = .next (s.setCore c { s.core c with mode := .running, cycle := x }) := by
  have hrun : s.runUntil (c / 8) (fun t => ((t.core c).reachedFrom r v (s.core c).cycle).isSome) = s :=
    State.runUntil_enough (by rw [hreached]; rfl) _
  show execWaitComplete c s = _
  unfold execWaitComplete
  rw [hmode]
  dsimp only
  rw [hrun, hheld, hreached]
  rfl

/-- Settles O10: SLOT and WAIT are their legal branches, whose mode is the one that the core issued in; the completion's cycle is `Core.reachedFrom_eq`. -/
theorem slotAndWait : Obligations.SlotAndWait := by
  unfold Obligations.SlotAndWait
  refine ⟨fun c body s => ?_, fun c body s => ?_, fun c r v x s => ?_⟩
  · intro w u k h hhi hlo
    have hexec := exec_slot h (u := u) (k := k) rfl rfl hhi hlo
    clear_value u k
    exact ⟨_, hexec, toNat_ofNat_min _, ⟨rfl, rfl⟩, fun _ => rfl, fun _ => rfl, ⟨rfl, rfl, rfl⟩, ⟨rfl, rfl, rfl, rfl⟩,
      ⟨rfl, rfl, rfl, rfl, rfl, rfl, rfl, rfl⟩, rfl⟩
  · intro w u k h hrsv
    have hmode : k.mode = .running := (s.mode_atIssue c w c).trans h.2.1
    have hcycle : k.issueAt w = k.cycle + 1 := k.issueAt_wait body
    have hexec := exec_wait h (u := u) (k := k) rfl rfl hrsv
    clear_value u k
    refine ⟨_, hexec, ⟨rfl, rfl⟩, fun _ => rfl, fun _ => rfl, rfl, hcycle, ?_⟩
    unfold Core.waited
    rw [show k.mode = .running from hmode]
    rfl
  · intro k hc hheld hmode hx hv hfirst
    exact ⟨_, exec_waitComplete hheld hmode (Core.reachedFrom_eq hx hv hfirst), rfl, rfl, rfl, rfl, fun _ => rfl, fun _ => rfl⟩

end Sys2Proof.Machine
end

section
/-! PROOF. Scalar instructions, system reads and CLRST (04 R178, R179; 05 R188, R189). -/

namespace Sys2Proof.Machine

/-! ### Scalar forms (R188) -/

/-- Settles O11: each form is its branch for a function of Table 5.6, which writes its register as `Core.scalarResult_writesG` says. -/
theorem scalarForms : Obligations.ScalarForms := by
  unfold Obligations.ScalarForms
  refine ⟨fun c body s v => ?_, fun c body s v => ?_⟩
  · intro w u k h hrsv hfn
    have hlegal : ¬fld w 32 0 ≠ 0 := by simp [hrsv]
    have hexec : exec (.scalarRegisterForm c body) s = .next (u.setCore c (k.scalarResult (fld w 47 43) v (k.issueAt w) (scalarReady (fld w 55 48)))) := by
      show execScalarRegisterForm c body s = _
      unfold execScalarRegisterForm
      rw [issue_at _ h (u := u) (k := k) rfl rfl]
      dsimp only
      rw [hfn]
      exact congrArg Host.Outcome.next (if_neg hlegal)
    exact ⟨_, hexec, Core.scalarResult_writesG _ _ _ _ _⟩
  · intro w u k h hrsv hshift hfn
    have hlegal : ¬(fld w 37 32 ≠ 0 ∨ ((fld w 55 48 = 5 ∨ fld w 55 48 = 6 ∨ fld w 55 48 = 7) ∧ fld w 31 6 ≠ 0)) := by tauto
    have hexec : exec (.scalarImmediateForm c body) s = .next (u.setCore c (k.scalarResult (fld w 47 43) v (k.issueAt w) (scalarReady (fld w 55 48)))) := by
      show execScalarImmediateForm c body s = _
      unfold execScalarImmediateForm
      rw [issue_at _ h (u := u) (k := k) rfl rfl]
      dsimp only
      rw [hfn]
      exact congrArg Host.Outcome.next (if_neg hlegal)
    exact ⟨_, hexec, Core.scalarResult_writesG _ _ _ _ _⟩

/-! ### System reads and CLRST (R178, R189) -/

/-- A legal system read writes what it gives to g[GD]. -/
theorem exec_sysRead {i : Instr} {c fn : Nat} {body : BitVec 48} {s u : State} {k : Core} {val : State → Core → Nat → BitVec 64}
    (hi : exec i s = sysRead c fn body s val) (hu : s.atIssue c (sysWord fn body) = u) (hk : u.core c = k)
    (h : Issues c (sysWord fn body) s) (hlegal : sysBad (sysWord fn body) = false) :
    exec i s = .next (u.setCore c
      (k.scalarResult (fld (sysWord fn body) 47 43) (val u k (k.issueAt (sysWord fn body))) (k.issueAt (sysWord fn body)) 1)) := by
  rw [hi]
  unfold sysRead
  rw [issue_at _ h hu hk]
  exact congrArg Host.Outcome.next (if_neg (by simp [hlegal]))

@[simp] theorem Core.scalarResult_cycle (k : Core) (gd : Nat) (v : BitVec 64) (cyc ready : Nat) : (k.scalarResult gd v cyc ready).cycle = cyc := by
  simp [Core.scalarResult, Core.issued]

/-- RDST waits for every conversion issued before it (R179). -/
theorem Core.convDone_le_issueAt_rdst (k : Core) (body : BitVec 48) : k.timing.convDone ≤ k.issueAt (sysWord 4 body) := by
  refine Core.le_issueAt ?_
  unfold Core.waits
  rw [fld_sysWord_opc, fld_sysWord_fn (by decide)]
  simp

theorem exec_clrst {c : Nat} {body : BitVec 48} {s u : State} {k : Core} (h : Issues c (sysWord 5 body) s) (hu : s.atIssue c (sysWord 5 body) = u)
    (hk : u.core c = k) (hlegal : sysBad (sysWord 5 body) = false) :
    exec (.clrst c body) s = .next (u.setCore c (((k.issued (k.issueAt (sysWord 5 body))).clearFlags (k.greg (fld (sysWord 5 body) 42 38))).occupy 0
      (k.issueAt (sysWord 5 body) + 1))) := by
  show execClrst c body s = _
  unfold execClrst
  rw [issue_at _ h hu hk]
  exact congrArg Host.Outcome.next (if_neg (by simp [hlegal]))

/-- Settles O12: each read is `sysRead` of its value, and CLRST is its legal branch. -/
theorem systemRegisterAccess : Obligations.SystemRegisterAccess := by
  unfold Obligations.SystemRegisterAccess
  refine ⟨fun c body s => ?_, fun c body s => ?_⟩
  · intro u k gd
    have htb := exec_sysRead (i := .rdtb c body) (fn := 0) (u := u 0) (k := k 0) (rfl : execRdtb c body s = _) rfl rfl
    have hfi := exec_sysRead (i := .rdfi c body) (fn := 1) (u := u 1) (k := k 1) (rfl : execRdfi c body s = _) rfl rfl
    have hcyc := exec_sysRead (i := .rdcyc c body) (fn := 2) (u := u 2) (k := k 2) (rfl : execRdcyc c body s = _) rfl rfl
    have hid := exec_sysRead (i := .rdid c body) (fn := 3) (u := u 3) (k := k 3) (rfl : execRdid c body s = _) rfl rfl
    have hst := exec_sysRead (i := .rdst c body) (fn := 4) (u := u 4) (k := k 4) (rfl : execRdst c body s = _) rfl rfl
    have hctr := exec_sysRead (i := .rdctr c body) (fn := 6) (u := u 6) (k := k 6) (rfl : execRdctr c body s = _) rfl rfl
    clear_value k u
    refine ⟨fun h hlegal => ⟨_, htb h hlegal, ?_⟩, fun h hlegal => ⟨_, hfi h hlegal, ?_⟩, fun h hlegal => ⟨_, hcyc h hlegal, ?_⟩,
      fun h hlegal => ⟨_, hid h hlegal, ?_⟩, fun h hlegal => ⟨_, hst h hlegal, ?_⟩, fun h hlegal => ⟨_, hctr h hlegal, ?_⟩⟩
    · exact Core.scalarResult_writesG _ _ _ _ _
    · exact Core.scalarResult_writesG _ _ _ _ _
    · rw [Core.scalarResult_cycle]
      exact ⟨Core.scalarResult_writesG _ _ _ _ _, Core.cycle_lt_issueAt _ _⟩
    · exact Core.scalarResult_writesG _ _ _ _ _
    · rw [Core.scalarResult_cycle]
      exact ⟨Core.scalarResult_writesG _ _ _ _ _, Core.convDone_le_issueAt_rdst _ _⟩
    · rw [Core.scalarResult_cycle]
      exact Core.scalarResult_writesG _ _ _ _ _
  · intro w u k a h hlegal
    have hexec := exec_clrst h (u := u) (k := k) rfl rfl hlegal
    clear_value k u
    exact ⟨_, hexec, rfl, rfl, rfl, ⟨rfl, rfl⟩, fun _ => rfl, fun _ => rfl, ⟨rfl, rfl, rfl, rfl⟩,
      ⟨rfl, rfl, rfl, rfl, rfl, rfl, rfl, rfl⟩, rfl, rfl⟩

end Sys2Proof.Machine
end

section
/-! PROOF. Lane operations, functions, reductions and conversions of the vector unit (04 R163 to R165; 05 R198 to R202). -/

namespace Sys2Proof.Machine

/-! ### Lane operations, functions and VRED (R198 to R200) -/

/-- A word whose meaning is a vector result writes its register and nothing else. -/
theorem issue_vecResult {c : Nat} {w : BitVec 64} {s u : State} {k : Core} {run : State → Core → Nat → State} {vd occ lat : Nat} {reads : List Nat}
    {bs : List Byte} (h : Issues c w s) (hu : s.atIssue c w = u) (hk : u.core c = k)
    (hrun : run u k (k.issueAt w) = u.setCore c (k.vecResult vd reads bs (k.issueAt w) occ lat)) :
    ∃ k', issue c w s run = .next (u.setCore c k') ∧ WritesV k k' vd bs :=
  ⟨_, (issue_at run h hu hk).trans (congrArg Host.Outcome.next hrun), k.vecResult_writesV _ _ _ _ _ _⟩

theorem WritesV.of_fitBytes {k k' : Core} {vd : Nat} {bs : List Byte} (h : WritesV k k' vd (fitBytes 256 bs)) : WritesV k k' vd bs := by
  obtain ⟨hadv, hv, hrest⟩ := h
  rw [fitBytes_fitBytes] at hv
  exact ⟨hadv, hv, hrest⟩

/-- Settles O17: each opcode is the branch that its function and its legal word leave, a vector result. -/
theorem vectorLanesAndReduction : Obligations.VectorLanesAndReduction := by
  unfold Obligations.VectorLanesAndReduction
  refine ⟨fun c body s r opc => ?_, fun c body s n v => ?_⟩
  · intro u k o
    refine ⟨?_, ?_, ?_, ?_⟩
    · rintro rfl h hrsv hsat hr
      show ∃ k', execVectorFp32 c body s = _ ∧ _
      exact issue_vecResult h rfl rfl (by dsimp only; rw [hr]; exact if_neg (by rw [hrsv, hsat]; decide))
    · rintro rfl h hrsv hsat hr
      show ∃ k', execVectorBf16 c body s = _ ∧ _
      exact issue_vecResult h rfl rfl (by dsimp only; rw [hr]; exact if_neg (by rw [hrsv, hsat]; decide))
    · rintro rfl h hrsv hsat hr
      have hlegal : ((o 0x32).sat && decide ((o 0x32).fn > 1)) = false := by
        cases hs : (o 0x32).sat with
        | false => rfl
        | true => simpa using hsat hs
      show ∃ k', execVectorInt32 c body s = _ ∧ _
      exact issue_vecResult h rfl rfl (by dsimp only; rw [hr]; exact if_neg (by rw [hrsv, hlegal]; decide))
    · rintro rfl h hrsv hsat hr
      show ∃ k', execVectorFp32Functions c body s = _ ∧ _
      exact issue_vecResult h rfl rfl (by dsimp only; rw [hr]; exact if_neg (by rw [hrsv, hsat]; decide))
  · intro w u k h hrsv hsat hr
    obtain ⟨k', hexec, hwrites⟩ : ∃ k', exec (.vred c body) s = .next (u.setCore c k') ∧ WritesV k k' (vecOp w).vd (fitBytes 256 (toLE n v)) := by
      show ∃ k', execVred c body s = _ ∧ _
      exact issue_vecResult h rfl rfl (by dsimp only; rw [hr]; exact if_neg (by rw [hrsv, hsat]; decide))
    exact ⟨k', hexec, WritesV.of_fitBytes hwrites⟩

/-! ### VCVT (R201, R202) -/

/-- The core with the elements of a conversion in its registers: a widening one's fill v[VD], a narrowing one's stand at their position of the pair. -/
def Core.setCvt (k : Core) (o : CvtOp) (vals : List Nat) : Core :=
  if o.narrowing then
    let row := patchBytes (posByte o.dfmt o.pos) (packElems o.dfmt vals) (k.vpair o.vd)
    (k.setV o.vd (row.take 256)).setV (o.vd + 1) (row.drop 256)
  else k.setV o.vd (vals.flatMap (toLE 4))

theorem Core.setCvt_eq (k : Core) (o : CvtOp) (vals : List Nat) : ∃ v, k.setCvt o vals = { k with v := v } := by
  unfold Core.setCvt
  split <;> exact ⟨_, rfl⟩

theorem Core.vreg_setCvt_widening (k : Core) {o : CvtOp} (vals : List Nat) (h : o.narrowing = false) (j : Nat) :
    (k.setCvt o vals).vreg j = if j = o.vd then fitBytes 256 (vals.flatMap (toLE 4)) else k.vreg j := by
  rw [Core.setCvt, if_neg (by simp [h]), Core.vreg_setV]

theorem Core.vreg_setCvt_narrowing (k : Core) {o : CvtOp} (vals : List Nat) (h : o.narrowing = true) (j : Nat) :
    let row := patchBytes (posByte o.dfmt o.pos) (packElems o.dfmt vals) (k.vpair o.vd)
    (k.setCvt o vals).vreg j =
      if j = o.vd then fitBytes 256 (row.take 256) else if j = o.vd + 1 then fitBytes 256 (row.drop 256) else k.vreg j := by
  intro row
  rw [show k.setCvt o vals = (k.setV o.vd (row.take 256)).setV (o.vd + 1) (row.drop 256) from if_pos h, Core.vreg_setV, Core.vreg_setV]
  by_cases hj : j = o.vd
  · rw [if_neg (by omega), if_pos hj, if_pos hj]
  · rw [if_neg hj, if_neg hj]

/-- The first part of a VCVT: the elements in their registers, ready 4 cycles after the issue (Table 4.5). -/
def Core.cvtReady (k : Core) (o : CvtOp) (vals : List Nat) (cyc : Nat) : Core :=
  if o.narrowing then
    let row := patchBytes (posByte o.dfmt o.pos) (packElems o.dfmt vals) (k.vpair o.vd)
    ((((k.issued cyc).setV o.vd (row.take 256)).setV (o.vd + 1) (row.drop 256)).vPend o.vd (cyc + 4)).vPend (o.vd + 1) (cyc + 4)
  else ((k.issued cyc).setV o.vd (vals.flatMap (toLE 4))).vPend o.vd (cyc + 4)

theorem Core.cvtReady_eq (k : Core) (o : CvtOp) (vals : List Nat) (cyc : Nat) :
    ∃ t, k.cvtReady o vals cyc = { (k.issued cyc).setCvt o vals with timing := t } := by
  unfold Core.cvtReady Core.setCvt
  split <;> exact ⟨_, rfl⟩

/-- The last part of a VCVT, of which the first has put the elements in their registers: flags, poison marks, scoreboard and counter (R202). -/
def Core.cvtEnd (k : Core) (fl : ConvFlags) (vds : List Nat) (taint : Bool) (cyc : Nat) (sr : Prop) [Decidable sr] : Core :=
  let k3 := ((k.setFlags fl).markV vds taint).occupy 4 (cyc + 1)
  { k3 with elem := if sr then (k3.elem + 64) % 2 ^ 32 else k3.elem, timing := { k3.timing with convDone := max k3.timing.convDone (cyc + 4) } }

/-- Whatever cycles the registers are ready in, the last part of a VCVT leaves their contents. -/
theorem Core.cvtEnd_eq (k : Core) (t₀ : Timing) (fl : ConvFlags) (vds : List Nat) (taint : Bool) (cyc : Nat) (sr : Prop) [Decidable sr] :
    ∃ vBad t, { k with timing := t₀ }.cvtEnd fl vds taint cyc sr =
      { k.setFlags fl with elem := if sr then (k.elem + 64) % 2 ^ 32 else k.elem, vBad := vBad, timing := t } :=
  ⟨_, _, rfl⟩

/-- The core after a VCVT: its registers, the flags of its elements, the element counter under SR, poison marks and scoreboard (R202). -/
theorem exec_vcvt {c : Nat} {body : BitVec 56} {s u : State} {k : Core} (h : Issues c (wordOf 0x33 body) s) (hu : s.atIssue c (wordOf 0x33 body) = u)
    (hk : u.core c = k) (hlegal : vcvtBad (wordOf 0x33 body) = false) :
    let o := cvtOp (wordOf 0x33 body)
    let es := u.cvtElems c k o
    ∃ vBad t, exec (.vcvt c body) s = .next (u.setCore c { (((k.issued (k.issueAt (wordOf 0x33 body))).setCvt o (es.map (·.1))).setFlags
      (es.foldl (fun a e => orFlags a e.2) {})) with
        elem := if o.rm = 4 then (k.elem + 64) % 2 ^ 32 else k.elem, vBad := vBad, timing := t }) := by
  intro o es
  obtain ⟨t₀, hready⟩ := k.cvtReady_eq o (es.map (·.1)) (k.issueAt (wordOf 0x33 body))
  obtain ⟨vBad, t, hend⟩ := ((k.issued (k.issueAt (wordOf 0x33 body))).setCvt o (es.map (·.1))).cvtEnd_eq t₀ (es.foldl (fun a e => orFlags a e.2) {})
    (if o.narrowing then [o.vd, o.vd + 1] else [o.vd])
    (k.vTainted (if o.narrowing then o.va :: [o.vd, o.vd + 1] else if wideFmt o.sfmt then [o.va] else [o.va, o.va + 1]))
    (k.issueAt (wordOf 0x33 body)) (o.rm = 4)
  obtain ⟨_, hv⟩ := (k.issued (k.issueAt (wordOf 0x33 body))).setCvt_eq o (es.map (·.1))
  have helem : ((k.issued (k.issueAt (wordOf 0x33 body))).setCvt o (es.map (·.1))).elem = k.elem := by rw [hv]; rfl
  rw [← hready, helem] at hend
  refine ⟨vBad, t, ?_⟩
  show execVcvt c body s = _
  unfold execVcvt
  rw [issue_at _ h hu hk]
  exact congrArg Host.Outcome.next ((if_neg (by simp [hlegal])).trans (congrArg (u.setCore c) hend))

/-- Settles O18: the conversion leaves what `exec_vcvt` says, whose registers are those of `Core.setCvt`. -/
theorem vcvtConverts : Obligations.VcvtConverts := by
  unfold Obligations.VcvtConverts
  intro c body s w u k o es fl row h hlegal
  obtain ⟨vBad, t, hexec⟩ := exec_vcvt h (u := u) (k := k) rfl rfl hlegal
  obtain ⟨v, hv⟩ := (k.issued (k.issueAt w)).setCvt_eq o (es.map (·.1))
  have hwide := (k.issued (k.issueAt w)).vreg_setCvt_widening (o := o) (es.map (·.1))
  have hnarrow := (k.issued (k.issueAt w)).vreg_setCvt_narrowing (o := o) (es.map (·.1))
  refine ⟨_, hexec, hwide, hnarrow, ?_⟩
  rw [show (k.issued (k.issueAt (wordOf 0x33 body))).setCvt (cvtOp (wordOf 0x33 body)) _ = _ from hv]
  clear_value u k
  exact ⟨rfl, rfl, rfl, rfl, ⟨rfl, rfl⟩, fun _ => rfl, ⟨rfl, rfl, rfl, rfl⟩, ⟨rfl, rfl, rfl, rfl, rfl, rfl, rfl, rfl⟩, rfl⟩

end Sys2Proof.Machine
end

section
/-! PROOF. A cluster whose one access to come is an instruction's own: its cycle, and what the instruction leaves at its end (06 R221, R223). -/

namespace Sys2Proof.Machine

/-- One instruction is under way in a core's cluster, with one access to come. -/
structure State.SoleAct (s : State) (c : Nat) (j : Job) (a : Act) : Prop where
  jobs : (s.core c).timing.jobs = [j]
  idle : ∀ d, d / 8 = c / 8 → d ≠ c → (s.core d).timing.jobs = []
  unit : j.unit ∈ portOrder
  acts : j.acts = [a]

/-- An access that wins its port, as the one claim of its instruction. -/
def soleClaim (c : Nat) (a : Act) : Claim := { core := c, idx := 0, wins := [a], yields := [] }

/-- The panel after the one access of a cycle. -/
def State.doAct (s : State) (c : Nat) (a : Act) : State := if a.write then s.writeAct c 0 a else s.readAct c 0 a

namespace State.SoleAct

variable {s : State} {c : Nat} {j : Job} {a : Act} (h : s.SoleAct c j a)
include h

theorem flatMap_jobs {β : Type} (f : Nat → List Job → List β) (hf : ∀ d, f d [] = []) :
    (clusterCores (c / 8)).flatMap (fun d => f d (s.core d).timing.jobs) = f c [j] := by
  rw [flatMap_of_sole (clusterCores_nodup _) (mem_clusterCores.2 rfl) fun d hd hne => by rw [h.idle d (mem_clusterCores.1 hd) hne, hf], h.jobs]

theorem actsLeft : s.actsLeft (c / 8) = 1 := by
  unfold State.actsLeft
  rw [h.flatMap_jobs (fun _ js => js.map (·.acts.length)) fun _ => rfl]
  simp [h.acts]

theorem nextAct : s.nextAct (c / 8) = some a.cyc := by
  unfold State.nextAct
  rw [h.flatMap_jobs (fun _ js => js) fun _ => rfl]
  simp [nextOf, h.acts]

theorem dueAt : j.dueAt a.cyc = [a] := by simp [Job.dueAt, h.acts]

/-- Nothing has taken its port before it. -/
theorem claimOf : claimOf [] c 0 j a.cyc = soleClaim c a := by simp [Machine.claimOf, h.dueAt, soleClaim]

theorem claims : s.claims (c / 8) a.cyc = [soleClaim c a] := by
  have hunit : ∀ u, (clusterCores (c / 8)).flatMap (fun d =>
      (((s.core d).timing.jobs.zip (List.range (s.core d).timing.jobs.length)).filter
        (fun p => p.1.unit == u && p.1.dueAt a.cyc != [])).map (fun p => (d, p.2, p.1))) = if u = j.unit then [(c, 0, j)] else [] := by
    intro u
    rw [h.flatMap_jobs (fun d js => ((js.zip (List.range js.length)).filter (fun p => p.1.unit == u && p.1.dueAt a.cyc != [])).map
      (fun p => (d, p.2, p.1))) fun _ => rfl]
    by_cases hu : u = j.unit
    · simp [hu, h.dueAt]
    · simp [hu, Ne.symm hu]
  have hsole : portOrder.flatMap (fun u => if u = j.unit then [(c, 0, j)] else []) = [(c, 0, j)] := by
    rw [flatMap_of_sole (by decide) h.unit fun u _ hu => if_neg hu, if_pos rfl]
  unfold State.claims
  simp only [hunit, hsole]
  simp [h.claimOf]

/-- Its cycle makes it, and ends its instruction. -/
theorem cycleAt :
    let u := s.doAct c a
    let r := (u.core c).cycleEnd [soleClaim c a] a.cyc
    s.cycleAt (c / 8) a.cyc = (u.setCore c r.1).accRead c a.cyc r.2 := by
  have hcore : (clusterCores (c / 8)).filter (fun d => c == d) = [c] := by
    have hcount := List.count_eq_one_of_mem (clusterCores_nodup (c / 8)) (mem_clusterCores.2 (rfl : c / 8 = c / 8))
    simp only [Bool.beq_comm (a := c)]
    rw [List.filter_beq, hcount]
    rfl
  unfold State.cycleAt State.doAct
  rw [h.claims]
  cases hw : a.write <;> simp [soleClaim, hcore, hw]

/-- The time up to the core's last access is that cycle. -/
theorem runCore : s.runCore c = s.cycleAt (c / 8) a.cyc := by
  unfold State.runCore State.runWhile
  rw [h.actsLeft]
  dsimp only
  rw [h.nextAct]
  simp [h.jobs, h.acts, State.runWhile]

end State.SoleAct

/-- A core whose one instruction has had its one access, at the end of that cycle; a TMAC would read accumulator rows besides. -/
theorem Core.cycleEnd_sole {k : Core} {j : Job} {a : Act} (c : Nat) (hjobs : k.timing.jobs = [j]) (hacts : j.acts = [a]) (hunit : j.unit ≠ 2) :
    ∃ t t', k.cycleEnd [soleClaim c a] a.cyc =
      ({ ({ k with timing := t } : Core).jobDone { j with acts := [] } a.cyc with timing := t' }, []) := by
  have hsettled : k.settled (soleClaim c a) a.cyc = { k with timing := { k.timing with jobs := [{ j with acts := [] }] } } := by
    simp [Core.settled, soleClaim, hjobs, Core.modJob, Job.later, Job.after, hacts]
  have hadds : ∀ k : Core, k.addsTo { j with acts := [] } = [] := fun k => by simp [Core.addsTo, hunit]
  unfold Core.cycleEnd
  simp only [List.foldl_cons, List.foldl_nil, hsettled, Core.endJobs, Job.heldBy, List.any_nil, Bool.and_false, Bool.not_false, and_self, if_true, hadds]
  exact ⟨_, _, rfl⟩

/-- An instruction with a row that it has read. -/
def Job.brought (key : Nat) (row : List Byte × Bool) (j : Job) : Job := { j with rows := tinsert key row j.rows }

/-- A read by an instruction that hands no packets out brings it the row with its mark. -/
theorem State.readAct_of_job {s : State} {c i : Nat} {j : Job} (a : Act) (h : (s.core c).timing.jobs[i]? = some j) (hp : j.packets = []) :
    ∃ r, FailuresOnly s r ∧
      s.readAct c i a = r.setCore c ((s.core c).modJob i (Job.brought a.key (s.readRow (a.addr c), s.isPoisoned (a.addr c)))) := by
  have hr := s.consumePoison_failuresOnly c a.cyc (a.target c)
  refine ⟨_, hr, ?_⟩
  have hmatch : ((s.core c).timing.jobs[i]?).bind (fun j => j.packets[a.key]?) = none := by rw [h]; simp [hp]
  unfold State.readAct
  rw [hmatch]
  dsimp only [State.modCore]
  rw [hr.core]
  rfl

/-- The address of an access to a row of a core's scratchpad. -/
theorem Act.addr_scratch {c r : Nat} (hc : c < 2304) (hr : r < 8192) (cyc key : Nat) (write : Bool) :
    ({ cyc := cyc, write := write, cluster := false, row := r, key := key } : Act).addr c = memRowAddr c r := by
  show memRowAddr c (r % memRows c) = _
  rw [memRows, if_pos (by omega), Nat.mod_eq_of_lt hr]

/-- An instruction that a core of an idle cluster starts has the cluster's one access to come. -/
theorem State.idleCluster.start {u : State} {c : Nat} (hidle : u.idleCluster (c / 8)) {k : Core} {j : Job} {a : Act}
    (hjobs : k.timing.jobs = (u.core c).timing.jobs ++ [j]) (hunit : j.unit ∈ portOrder) (hacts : j.acts = [a]) : (u.setCore c k).SoleAct c j a where
  jobs := by rw [State.core_setCore_same, hjobs, hidle c rfl, List.nil_append]
  idle d hd hne := by rw [State.core_setCore_ne _ _ _ _ hne, hidle d hd]
  unit := hunit
  acts := hacts

end Sys2Proof.Machine
end

section
/-! PROOF. VLD, VST, GETL and PUTL (05 R203; 02 R78). -/

namespace Sys2Proof.Machine

/-! ### VLD -/

/-- The read of a VLD. -/
def vldAct (w : BitVec 64) (cyc : Nat) : Act := { cyc := cyc, write := false, cluster := false, row := fld w 52 40, key := 0 }
def vldJob (w : BitVec 64) (cyc : Nat) : Job := { unit := 4, word := w, acts := [vldAct w cyc], done := cyc + 3 }

/-- The core after a legal VLD has issued. -/
def Core.loading (k : Core) (w : BitVec 64) (cyc : Nat) : Core :=
  ((((k.issued cyc).occupy 4 (cyc + 1)).vPend (2 * fld w 55 53) (cyc + 3)).vPend (2 * fld w 55 53 + 1) (cyc + 3)).start (vldJob w cyc)

theorem exec_vld {c : Nat} {body : BitVec 56} {s u : State} {k : Core} (h : Issues c (wordOf 0x38 body) s) (hu : s.atIssue c (wordOf 0x38 body) = u)
    (hk : u.core c = k) (hrsv : fld (wordOf 0x38 body) 39 0 = 0) :
    exec (.vld c body) s = .next (u.setCore c (k.loading (wordOf 0x38 body) (k.issueAt (wordOf 0x38 body)))) := by
  show execVld c body s = _
  unfold execVld
  rw [issue_at _ h hu hk]
  exact congrArg Host.Outcome.next (if_neg (by simp [hrsv]))

/-- The pair's first register pends like its second (Table 4.5). -/
theorem Core.vAt_loading (k : Core) (w : BitVec 64) (cyc : Nat) : (k.loading w cyc).vAt (2 * fld w 55 53) = cyc + 3 := by
  show tget 0 (tset 0 (tset 0 k.timing.v (2 * fld w 55 53) (cyc + 3)) (2 * fld w 55 53 + 1) (cyc + 3)) (2 * fld w 55 53) = _
  rw [tget_tset_ne _ _ _ _ _ (by omega), tget_tset_same]

/-- At its end a VLD has its row in its pair. -/
theorem Core.vreg_jobDone_vld (k : Core) {j : Job} (x : Nat) (hunit : j.unit = 4) (hword : fld j.word 63 56 = 0x38) (i : Nat) :
    (k.jobDone j x).vreg i = if i = 2 * fld j.word 55 53 then fitBytes 256 ((j.row 0).take 256)
      else if i = 2 * fld j.word 55 53 + 1 then fitBytes 256 ((j.row 0).drop 256) else k.vreg i := by
  have hdone : (k.jobDone j x).vreg i =
      ((k.setV (2 * fld j.word 55 53) ((j.row 0).take 256)).setV (2 * fld j.word 55 53 + 1) ((j.row 0).drop 256)).vreg i := by
    unfold Core.jobDone
    rw [hunit]
    dsimp only
    rw [if_pos hword]
    rfl
  rw [hdone, Core.vreg_setV, Core.vreg_setV]
  by_cases hi : i = 2 * fld j.word 55 53
  · rw [if_neg (by omega), if_pos hi, if_pos hi]
  · rw [if_neg hi, if_neg hi]

/-- A VLD that is its cluster's one access leaves its row in its pair. -/
theorem vld_lands {u : State} {c : Nat} {k : Core} {w : BitVec 64} {cyc : Nat} (hidle : u.idleCluster (c / 8)) (hk : u.core c = k)
    (hword : fld w 63 56 = 0x38) (i : Nat) :
    let row := u.readRow ((vldAct w cyc).addr c)
    (((u.setCore c (k.loading w cyc)).runCore c).core c).vreg i = if i = 2 * fld w 55 53 then fitBytes 256 (row.take 256)
      else if i = 2 * fld w 55 53 + 1 then fitBytes 256 (row.drop 256) else k.vreg i := by
  intro row
  set s := u.setCore c (k.loading w cyc)
  have hcore : s.core c = k.loading w cyc := State.core_setCore_same _ _ _
  have h : s.SoleAct c (vldJob w cyc) (vldAct w cyc) := hidle.start (by rw [hk]; rfl) (show 4 ∈ portOrder by decide) rfl
  have hjobs : (k.loading w cyc).timing.jobs = [vldJob w cyc] := by rw [← hcore, h.jobs]
  obtain ⟨r, hr, hact⟩ := State.readAct_of_job (s := s) (i := 0) (vldAct w cyc) (by rw [h.jobs]; rfl) rfl
  set got := Job.brought (vldAct w cyc).key (s.readRow ((vldAct w cyc).addr c), s.isPoisoned ((vldAct w cyc).addr c))
  rw [hcore] at hact
  have hcycle := h.runCore.trans h.cycleAt
  rw [show s.doAct c (vldAct w cyc) = _ from hact, State.core_setCore_same] at hcycle
  obtain ⟨t, t', hend⟩ := Core.cycleEnd_sole (k := (k.loading w cyc).modJob 0 got) (j := got (vldJob w cyc)) (a := vldAct w cyc) c
    (by rw [Core.modJob, hjobs]; rfl) rfl (show 4 ≠ 2 by decide)
  rw [hend, State.accRead_nil] at hcycle
  rw [hcycle, State.core_setCore_same]
  exact Core.vreg_jobDone_vld _ _ rfl hword i

/-! ### VST -/

/-- The write of a VST, and its instruction with the pair as it is at issue. -/
def vstAct (w : BitVec 64) (cyc : Nat) : Act := { cyc := cyc + 2, write := true, cluster := false, row := fld w 52 40, key := 0 }
def Core.vstJob (k : Core) (w : BitVec 64) (cyc : Nat) : Job :=
  { unit := 4, word := w, bytes := k.vpair (2 * fld w 55 53), bad := k.vTainted [2 * fld w 55 53, 2 * fld w 55 53 + 1], acts := [vstAct w cyc], done := cyc + 3 }

/-- The core after a legal VST has issued. -/
def Core.storing (k : Core) (w : BitVec 64) (cyc : Nat) : Core := ((k.issued cyc).occupy 4 (cyc + 1)).start (k.vstJob w cyc)

/-- A legal VST starts its write, or faults at a resident row (R78). -/
theorem exec_vst {c : Nat} {body : BitVec 56} {s u : State} {k : Core} (h : Issues c (wordOf 0x39 body) s) (hu : s.atIssue c (wordOf 0x39 body) = u)
    (hk : u.core c = k) (hrsv : fld (wordOf 0x39 body) 39 0 = 0) :
    exec (.vst c body) s = .next (if u.residentLocked c (fld (wordOf 0x39 body) 52 40)
      then u.raiseCore c .protection (wordOf 0x39 body) (k.issueAt (wordOf 0x39 body))
      else u.setCore c (k.storing (wordOf 0x39 body) (k.issueAt (wordOf 0x39 body)))) := by
  show execVst c body s = _
  unfold execVst
  rw [issue_at _ h hu hk]
  exact congrArg Host.Outcome.next (if_neg (by simp [hrsv]))

/-- A VST that is its cluster's one access writes its pair. -/
theorem vst_lands {u : State} {c : Nat} {k : Core} {w : BitVec 64} {cyc : Nat} (hidle : u.idleCluster (c / 8)) (hk : u.core c = k) :
    ((u.setCore c (k.storing w cyc)).runCore c).mem =
      writeBytes u.mem ((vstAct w cyc).addr c) (fitBytes 512 (k.vpair (2 * fld w 55 53))) := by
  have h : (u.setCore c (k.storing w cyc)).SoleAct c (k.vstJob w cyc) (vstAct w cyc) :=
    hidle.start (by rw [hk]; rfl) (show 4 ∈ portOrder by decide) rfl
  obtain ⟨r, hr, hact⟩ := State.writeAct_of_job (i := 0) (vstAct w cyc) (by rw [h.jobs]; rfl)
  rw [h.runCore.trans h.cycleAt, (State.accRead_failuresOnly _ _ _ _).mem, State.setCore_mem, show State.doAct _ c (vstAct w cyc) = _ from hact,
    State.setCore_mem, State.writeRow_mem, hr.mem]
  rfl

/-! ### The moves together -/

/-- Settles O19: each is its legal branch; where a VLD or a VST is its cluster's one access, `vld_lands` and `vst_lands` say what it leaves. -/
theorem vectorMemoryAccess : Obligations.VectorMemoryAccess := by
  unfold Obligations.VectorMemoryAccess
  refine ⟨fun c body s => ?_, fun c body s => ?_, fun c body s => ?_, fun c body s => ?_, fun c body s => ?_⟩
  · intro w u k v r row h hrsv
    have hexec := exec_vld h (u := u) (k := k) rfl rfl hrsv
    have haddr : (vldAct w (k.issueAt w)).addr c = memRowAddr c r := Act.addr_scratch h.1 (fld_lt w 52 40) _ _ _
    have hlands := fun hidle => vld_lands (k := k) (cyc := k.issueAt w) hidle rfl (fld_wordOf_opc (by decide) body)
    rw [haddr] at hlands
    clear_value u k
    exact ⟨_, _, hexec, onlyAdvanced_issued _ _ _, rfl, rfl, k.vAt_loading w _, hlands⟩
  · intro w u k r h hrsv hfree
    have hexec := (exec_vst h (u := u) (k := k) rfl rfl hrsv).trans (congrArg Host.Outcome.next (if_neg (by rw [hfree]; decide)))
    have haddr : (vstAct w (k.issueAt w)).addr c = memRowAddr c r := Act.addr_scratch h.1 (fld_lt w 52 40) _ _ _
    have hlands := fun hidle => vst_lands (k := k) (w := w) (cyc := k.issueAt w) hidle rfl
    rw [haddr] at hlands
    clear_value u k
    refine ⟨_, _, hexec, onlyAdvanced_issued _ _ _, rfl, rfl, rfl, fun hidle => ⟨?_, fun a ha => ?_⟩⟩
    · unfold State.readRow
      rw [hlands hidle]
      exact u.readRow_writeRow_same (memRowAddr c r) (k.vpair (2 * fld w 55 53)) false
    · rw [hlands hidle]
      exact readByte_writeBytes_outside _ _ _ _ (by rwa [length_fitBytes])
  · intro w u h hrsv hlocked
    have hown := u.coreFault_own c .protection (u.core c).pc w ((u.core c).issueAt w) (c / 16)
    have hcore : (u.raiseCore c .protection w ((u.core c).issueAt w)).core c = (u.core c).latchFault .protection (u.core c).pc w ((u.core c).issueAt w) :=
      (hown.core c).trans (State.core_setCore_same _ _ _)
    refine ⟨_, (exec_vst h rfl rfl hrsv).trans (congrArg Host.Outcome.next (if_pos hlocked)), hown.mem, ?_⟩
    rw [hcore]
    exact ⟨rfl, rfl⟩
  · intro w u k h hrsv
    have hexec : exec (.getl c body) s = .next (u.setCore c ((((k.issued (k.issueAt w)).setG (fld w 55 51)
        (BitVec.ofNat 64 (laneOf 8 (k.vreg (fld w 50 47)) (fld w 46 42)))).gPend (fld w 55 51)
        (if fld w 55 51 = 0 then 0 else k.issueAt w + 2)).occupy 4 (k.issueAt w + 1))) := by
      show execGetl c body s = _
      unfold execGetl
      rw [issue_at _ h (u := u) (k := k) rfl rfl]
      exact congrArg Host.Outcome.next (if_neg (by rw [hrsv]; decide))
    exact ⟨_, hexec, writesG_issued _ _ _ _ _⟩
  · intro w u k h hrsv
    show ∃ k', execPutl c body s = _ ∧ _
    exact issue_vecResult h rfl rfl (if_neg (by rw [hrsv]; decide))

end Sys2Proof.Machine
end

section
/-! PROOF. TWLOAD: its reads, its issue, and the buffer that it fills (04 R141, R142; 05 R191, R192). -/

namespace Sys2Proof.Machine

/-! ### Reads (R141, R192) -/

/-- The rows of a TWLOAD: values, metadata, scales. -/
def twloadRows (w : BitVec 64) (nm ns : Nat) : List Nat :=
  (List.range 16).map (fld w 48 36 + ·) ++ (List.range nm).map (fld w 35 23 + ·) ++ (List.range ns).map (fld w 22 10 + ·)

theorem length_twloadRows (w : BitVec 64) (nm ns : Nat) : (twloadRows w nm ns).length = 16 + nm + ns := by
  simp [twloadRows, Nat.add_assoc]

theorem getElem?_twloadRows {w : BitVec 64} {nm ns i r : Nat} (h : (twloadRows w nm ns)[i]? = some r) :
    r = if i < 16 then fld w 48 36 + i else if i < 16 + nm then fld w 35 23 + (i - 16) else fld w 22 10 + (i - 16 - nm) := by
  simp only [twloadRows, List.getElem?_append, List.length_append, List.length_map, List.length_range, getElem?_map_range] at h
  by_cases h16 : i < 16
  · rw [if_pos (by omega), if_pos h16, if_pos h16] at h
    rw [if_pos h16, Option.some.inj h]
  · rw [if_neg h16]
    by_cases hnm : i < 16 + nm
    · rw [if_pos hnm, if_neg h16, if_pos (by omega)] at h
      rw [if_pos hnm, Option.some.inj h]
    · rw [if_neg hnm, Nat.sub_sub]
      rw [if_neg hnm] at h
      by_cases hns : i - (16 + nm) < ns
      · rw [if_pos hns] at h
        rw [Option.some.inj h]
      · rw [if_neg hns] at h
        cases h

/-- Read `i` of a list of rows, one per cycle from a cycle on. -/
def readActs (rows : List Nat) (cyc : Nat) : List Act :=
  (rows.zip (List.range rows.length)).map fun p => { cyc := cyc + p.2, write := false, cluster := false, row := p.1, key := p.2 }

theorem length_readActs (rows : List Nat) (cyc : Nat) : (readActs rows cyc).length = rows.length := by simp [readActs]

theorem getElem?_readActs {rows : List Nat} {cyc i : Nat} {a : Act} (h : (readActs rows cyc)[i]? = some a) :
    ∃ r, rows[i]? = some r ∧ a = { cyc := cyc + i, write := false, cluster := false, row := r, key := i } := by
  unfold readActs at h
  rw [List.getElem?_map, Option.map_eq_some_iff] at h
  obtain ⟨⟨r, n⟩, hp, rfl⟩ := h
  obtain ⟨hr, hn⟩ := List.getElem?_zip_eq_some.1 hp
  obtain rfl : n = i := by
    obtain ⟨hlt, rfl⟩ := List.getElem?_eq_some_iff.1 hn
    simp
  exact ⟨r, hr, rfl⟩

/-! ### Issue -/

/-- The core after a legal TWLOAD of `rows` rows has issued: they are read one per cycle, and the buffer is usable 4 cycles after them. -/
def Core.filling (k : Core) (w : BitVec 64) (cyc rows : Nat) : Core :=
  let k1 := (k.issued cyc).occupy 1 (cyc + rows)
  { k1 with timing := { k1.timing with bufUsable := tset 0 k1.timing.bufUsable (fld w 55 55) (cyc + rows + 4) } }.start
    { unit := 1, word := w, acts := twloadActs w cyc, done := cyc + rows + 4 }

theorem Core.bufUsable_filling (k : Core) (w : BitVec 64) (cyc rows : Nat) :
    tget 0 (k.filling w cyc rows).timing.bufUsable (fld w 55 55) = cyc + rows + 4 :=
  tget_tset_same 0 k.timing.bufUsable (fld w 55 55) (cyc + rows + 4)

theorem exec_twload {c : Nat} {body : BitVec 56} {s u : State} {k : Core} (h : Issues c (wordOf 0x20 body) s) (hu : s.atIssue c (wordOf 0x20 body) = u)
    (hk : u.core c = k) (hlegal : twloadBad (wordOf 0x20 body) = false) :
    let w := wordOf 0x20 body
    let sp := fld w 50 50 == 1
    let sc := fld w 49 49 == 1
    let nm := metaRowCount (classOf (fld w 54 51)) sp
    let ns := scaleRowCount (classOf (fld w 54 51)) sp sc
    fld w 48 36 + 16 ≤ 8192 → (sp = true → fld w 35 23 + nm ≤ 8192) → (sc = true → fld w 22 10 + ns ≤ 8192) →
      exec (.twload c body) s = .next (u.setCore c (k.filling w (k.issueAt w) (16 + nm + ns))) := by
  intro w sp sc nm ns hb hm hs
  have hinside : ¬(fld w 48 36 + 16 > 8192 ∨ (sp = true ∧ fld w 35 23 + nm > 8192) ∨ (sc = true ∧ fld w 22 10 + ns > 8192)) := by
    rintro (hout | ⟨hsp, hout⟩ | ⟨hsc, hout⟩)
    · omega
    · have := hm hsp
      omega
    · have := hs hsc
      omega
  show execTwload c body s = _
  unfold execTwload
  rw [issue_at _ h hu hk]
  exact congrArg Host.Outcome.next ((if_neg (by rw [hlegal]; decide)).trans (if_neg hinside))

/-! ### The filled buffer (R142, R191) -/

/-- The buffer that a TWLOAD fills with the rows that it has read. -/
def Job.filledBuf (j : Job) : WBuf :=
  let w := j.word
  let sp := fld w 50 50 == 1
  let sc := fld w 49 49 == 1
  let nm := metaRowCount (classOf (fld w 54 51)) sp
  let ns := scaleRowCount (classOf (fld w 54 51)) sp sc
  WBuf.record { valid := true, fmt := fld w 54 51, sparse := sp, scaled := sc, values := (List.range 16).flatMap j.row,
                metaRows := (List.range nm).flatMap (fun i => j.row (16 + i)), scales := (List.range ns).flatMap (fun i => j.row (16 + nm + i)),
                bad := (List.range (16 + nm + ns)).any j.rowBad }

theorem Core.jobDone_twload (k : Core) {j : Job} (x : Nat) (h : j.unit = 1) : k.jobDone j x = k.setWbuf (fld j.word 55 55 == 1) j.filledBuf := by
  unfold Core.jobDone Job.filledBuf
  rw [h]
  simp only [Nat.zero_add]

@[simp] theorem Core.wbuf_setWbuf_same (k : Core) (b : Bool) (w : WBuf) : (k.setWbuf b w).wbuf b = w := by cases b <;> rfl
@[simp] theorem Core.wbuf_setWbuf_other (k : Core) (b : Bool) (w : WBuf) : (k.setWbuf b w).wbuf (!b) = k.wbuf (!b) := by cases b <;> rfl

/-- Settles O13: the issue is TWLOAD's legal branch with the reads of `twloadRows`, and the end is `Core.jobDone_twload`. -/
theorem twloadFillsBuffer : Obligations.TwloadFillsBuffer := by
  unfold Obligations.TwloadFillsBuffer
  refine ⟨fun c body s => ?_, fun k j x => ?_⟩
  · intro w u k sp sc cls nm ns wb wm ws h hlegal hb hm hs
    have hexec := exec_twload h (u := u) (k := k) rfl rfl hlegal hb hm hs
    have hacts : twloadActs w (k.issueAt w) = readActs (twloadRows w nm ns) (k.issueAt w) := rfl
    clear_value u k
    refine ⟨_, { unit := 1, word := w, acts := twloadActs w (k.issueAt w), done := k.issueAt w + (16 + nm + ns) + 4 }, hexec,
      onlyAdvanced_issued _ _ _, rfl, rfl, rfl, ?_, fun i a ha => ?_, k.bufUsable_filling w _ _⟩
    · rw [hacts, length_readActs, length_twloadRows]
    · rw [hacts] at ha
      obtain ⟨r, hr, rfl⟩ := getElem?_readActs ha
      exact ⟨rfl, rfl, rfl, rfl, getElem?_twloadRows hr⟩
  · intro w sp sc cls nm ns k' hunit
    have hdone : k' = k.setWbuf (fld w 55 55 == 1) j.filledBuf := k.jobDone_twload x hunit
    rw [hdone]
    refine ⟨Core.wbuf_setWbuf_same _ _ _, Core.wbuf_setWbuf_other _ _ _, ?_⟩
    generalize j.filledBuf = b
    generalize (fld w 55 55 == 1) = buf
    cases buf <;> exact ⟨rfl, rfl, rfl, fun _ => rfl, fun _ => rfl, ⟨rfl, rfl, rfl⟩, ⟨rfl, rfl, rfl, rfl, rfl, rfl, rfl, rfl⟩, rfl, rfl⟩

end Sys2Proof.Machine
end

section
/-! PROOF. ROWCP: its accesses, its issue, what it writes, and who moves when an access yields (05 R204; 06 R227, R229, R230). -/

namespace Sys2Proof.Machine

/-! ### Accesses (R229) -/

theorem mem_copyActs {w : BitVec 64} {l cyc : Nat} {a : Act} :
    a ∈ copyActs w l cyc ↔ ∃ i, i < fld w 23 10 ∧
      (a = { cyc := cyc + i, write := false, cluster := fld w 55 55 == 1, row := fld w 53 39 + i, key := i } ∨
       a = { cyc := cyc + i + l, write := true, cluster := fld w 54 54 == 1, row := fld w 38 24 + i, key := i }) := by
  simp only [copyActs, List.mem_flatMap, List.mem_range, List.mem_append, List.mem_ite_nil_right, List.mem_singleton]
  constructor
  · rintro ⟨x, hx, ⟨hn, rfl⟩ | ⟨hl, rfl⟩⟩
    · exact ⟨x, hn, .inl rfl⟩
    · exact ⟨x - l, by omega, .inr (by rw [Nat.add_assoc, Nat.sub_add_cancel hl])⟩
  · rintro ⟨i, hi, rfl | rfl⟩
    · exact ⟨i, by omega, .inl ⟨hi, rfl⟩⟩
    · exact ⟨i + l, by omega, .inr ⟨by omega, by rw [Nat.add_sub_cancel, Nat.add_assoc]⟩⟩

/-! ### Issue (R204) -/

/-- The core after a legal ROWCP of `n` rows with write latency `l` has issued. -/
def Core.copying (k : Core) (w : BitVec 64) (l cyc : Nat) : Core :=
  ((k.issued cyc).occupy 5 (cyc + fld w 23 10 + l)).start { unit := 5, word := w, acts := copyActs w l cyc, done := cyc + fld w 23 10 + l }

theorem exec_rowcp {c : Nat} {body : BitVec 56} {s u : State} {k : Core} (h : Issues c (wordOf 0x40 body) s) (hu : s.atIssue c (wordOf 0x40 body) = u)
    (hk : u.core c = k) :
    let w := wordOf 0x40 body
    let sm := fld w 55 55
    let dm := fld w 54 54
    let sr := fld w 53 39
    let dr := fld w 38 24
    let n := fld w 23 10
    fld w 9 0 = 0 → 0 < n → n ≤ 8192 → sr + n ≤ copyRows sm → dr + n ≤ copyRows dm → (sm = dm → dr + n ≤ sr ∨ sr + n ≤ dr) →
      (List.range n).any (fun i => u.residentLocked (copyMem c dm) (dr + i)) = false →
      exec (.rowcp c body) s = .next (u.setCore c (k.copying w (if sm = 0 ∧ dm = 0 then 2 else 4) (k.issueAt w))) := by
  intro w sm dm sr dr n hrsv hn hmax hsr hdr hapart hfree
  have hlegal : ¬(fld w 9 0 ≠ 0 ∨ n > 8192) := by omega
  have hsome : ¬n = 0 := by omega
  have hinside : ¬(sr + n > copyRows sm ∨ dr + n > copyRows dm ∨ (sm = dm ∧ sr < dr + n ∧ dr < sr + n)) := by
    rintro (hout | hout | ⟨heq, hout⟩)
    · omega
    · omega
    · have := hapart heq
      omega
  have hunlocked : ¬(List.range n).any (fun i => u.residentLocked (copyMem c dm) (dr + i)) = true := by rw [hfree]; decide
  show execRowcp c body s = _
  unfold execRowcp
  rw [issue_at _ h hu hk]
  exact congrArg Host.Outcome.next ((if_neg hlegal).trans <| (if_neg hsome).trans <| (if_neg hinside).trans (if_neg hunlocked))

/-! ### Yields (R227, R229) -/

/-- A fold that puts each element in one of two lists keeps them all. -/
theorem mem_foldl_parted {α β : Type} {f : β × List α × List α → α → β × List α × List α}
    (hf : ∀ r a, (f r a).2 = (r.2.1 ++ [a], r.2.2) ∨ (f r a).2 = (r.2.1, r.2.2 ++ [a])) (xs : List α) (r : β × List α × List α) (a : α) :
    a ∈ (xs.foldl f r).2.1 ∨ a ∈ (xs.foldl f r).2.2 ↔ (a ∈ r.2.1 ∨ a ∈ r.2.2) ∨ a ∈ xs := by
  induction xs generalizing r with
  | nil => simp
  | cons x xs ih =>
    rw [List.foldl_cons, ih]
    obtain h | h := hf r x
    · rw [h]
      simp only [List.mem_append, List.mem_cons]
      tauto
    · rw [h]
      simp only [List.mem_append, List.mem_cons]
      tauto

/-- Each access that is due wins its port or yields; a row mover moves as a whole. -/
theorem claimOf_parts (taken : List Nat) (c i x : Nat) (j : Job) :
    (j.unit = 5 → (claimOf taken c i j x).wins = [] ∨ (claimOf taken c i j x).yields = []) ∧
      ∀ a, a ∈ (claimOf taken c i j x).wins ∨ a ∈ (claimOf taken c i j x).yields ↔ a ∈ j.dueAt x := by
  unfold claimOf
  extract_lets due r
  have hparts : ∀ a, a ∈ r.2.1 ∨ a ∈ r.2.2 ↔ a ∈ due := fun a => by
    refine (mem_foldl_parted (fun r a => ?_) due (taken, [], []) a).trans (by simp)
    split
    · exact .inr rfl
    · exact .inl rfl
  split
  · exact ⟨fun _ => .inr rfl, fun a => by simp [due]⟩
  · split
    · exact ⟨fun _ => .inl rfl, fun a => by simp [due]⟩
    · next hwhole => exact ⟨fun h5 => .inr (by_contra fun hy => hwhole ⟨h5, hy⟩), hparts⟩

/-- What yields moves by one cycle, and with it the instruction's later accesses. -/
theorem Job.later_yields {j : Job} (x : Nat) {ys : List Act} (hunit : j.unit ≠ 3) (hys : ys ≠ []) :
    j.later x ys = (ys ++ j.after x).map (fun a => { a with cyc := a.cyc + 1 }) := (if_neg hys).trans (if_neg hunit)

/-- Settles O20: the issue is ROWCP's legal branch with the accesses of `mem_copyActs`; claims part their accesses, and a write puts the row down that was read. -/
theorem rowcpCopies : Obligations.RowcpCopies := by
  unfold Obligations.RowcpCopies
  refine ⟨fun c body s => ?_, fun taken c i x j => claimOf_parts taken c i x j, fun j x ys => Job.later_yields x, fun s c i a j hjob hunit => ?_⟩
  · intro w u k sm dm sr dr n l h hrsv hn hmax hsr hdr hapart hfree
    have hexec := exec_rowcp h (u := u) (k := k) rfl rfl hrsv hn hmax hsr hdr hapart hfree
    clear_value u k
    exact ⟨_, _, hexec, onlyAdvanced_issued _ _ _, rfl, rfl, fun a => mem_copyActs, Core.unitAt_occupy _ _ _⟩
  · obtain ⟨r, -, hact⟩ := State.writeAct_of_job a hjob
    have hwrite : s.jobWrite c j a.key = (j.row a.key, j.rowBad a.key, {}) := by simp [State.jobWrite, hunit]
    rw [hwrite] at hact
    rw [hact]
    exact ⟨r.readRow_writeRow_same (a.addr c) (j.row a.key) (j.rowBad a.key), r.isPoisoned_writeRow_same (a.addr c) (j.row a.key) (j.rowBad a.key)⟩

end Sys2Proof.Machine
end

section
/-! PROOF. Rows and increments that a core sends: the rows beyond a memory, REDSEND and SIG, and the row that a die refuses (05 R208 to R212, R215). -/

namespace Sys2Proof.Machine

/-! ### Rows beyond a memory (R208) -/

/-- With rows to send, a row beyond either memory is the address fault. -/
theorem sendRows_beyond {kind c opc : Nat} {body : BitVec 56} {s : State} (h : Issues c (wordOf opc body) s) :
    let w := wordOf opc body
    let u := s.atIssue c w
    let n := fld w 2 0
    0 < n → (8191 < fld w 39 27 + n - 1 ∨ (fld w 7 7 = 0 ∧ 8191 < fld w 26 12 + n - 1) ∨ (fld w 7 7 = 1 ∧ 32767 < fld w 26 12 + n - 1)) →
      sendRows kind c opc body s = .next (u.raiseCore c .address w ((u.core c).issueAt w)) := by
  intro w u n hn hout
  have hbeyond : fld w 39 27 + n > 8192 ∨ fld w 26 12 + n > copyRows (fld w 7 7) := by
    unfold copyRows
    split <;> omega
  unfold sendRows
  rw [issue_at _ h rfl rfl]
  exact congrArg Host.Outcome.next ((if_neg (Nat.ne_of_gt hn)).trans (if_pos hbeyond))

/-! ### REDSEND and SIG (R209, R210) -/

/-- The packet of a REDSEND: the local input of its die's reduction. -/
def State.redPacket (s : State) (c : Nat) (k : Core) (w : BitVec 64) : Packet :=
  { routeId := fld w 55 40, typ := 7, cls := 2, planned := true, src := c / 16, dst := c / 16, drow := fld w 23 11, dcore := fld w 10 7,
    dctr := fld w 6 3, plane := fld w 39 37, core := c, place := s.coreSite c, pc := k.pc, word := w }

def redJob (w : BitVec 64) (cyc : Nat) (p : Packet) : Job :=
  { unit := 7, word := w, packets := [p], done := cyc + 5, acts := [{ cyc := cyc, write := false, cluster := false, row := fld w 36 24, key := 0 }] }

theorem exec_redsend {c : Nat} {body : BitVec 56} {s u : State} {k : Core} (h : Issues c (wordOf 0x53 body) s) (hu : s.atIssue c (wordOf 0x53 body) = u)
    (hk : u.core c = k) (hrsv : fld (wordOf 0x53 body) 2 0 = 0)
    (htree : (u.treeOf (c / 16) (fld (wordOf 0x53 body) 55 40) (fld (wordOf 0x53 body) 39 37)).isSome = true) :
    let w := wordOf 0x53 body
    exec (.redsend c body) s = .next (u.setCore c (((k.issued (k.issueAt w)).occupy 7 (k.issueAt w + 5)).start
      (redJob w (k.issueAt w) (u.redPacket c k w)))) := by
  show execRedsend c body s = _
  unfold execRedsend
  rw [issue_at _ h hu hk]
  exact congrArg Host.Outcome.next ((if_neg (by rw [hrsv]; decide)).trans (if_neg (by rw [Option.isNone_iff_eq_none, ← Option.not_isSome_iff_eq_none, htree]; decide)))

/-- The packet of a SIG: one increment on its route. -/
def State.sigPacket (s : State) (c : Nat) (k : Core) (w : BitVec 64) (r : Route) : Packet :=
  { routeId := fld w 55 40, typ := 1, kind := r.kind, cls := 2, planned := true, last := true, xferCount := if r.dst ≥ 0x100 then 1 else 0,
    src := r.src, dst := r.dst, dcore := fld w 39 36, dctr := fld w 35 32, plane := r.plane, core := c, place := s.coreSite c, pc := k.pc, word := w,
    msg := k.issueAt w }

theorem exec_sig {c : Nat} {body : BitVec 56} {s u : State} {k : Core} {r : Route} (h : Issues c (wordOf 0x54 body) s)
    (hu : s.atIssue c (wordOf 0x54 body) = u) (hk : u.core c = k) (hrsv : fld (wordOf 0x54 body) 31 0 = 0)
    (hroute : u.sendRoute c (fld (wordOf 0x54 body) 55 40) none = some r) :
    let w := wordOf 0x54 body
    exec (.sig c body) s = .next ((u.setCore c ((k.issued (k.issueAt w)).occupy 7 (k.issueAt w + 1))).inject [u.sigPacket c k w r]) := by
  show execSig c body s = _
  unfold execSig
  rw [issue_at _ h hu hk]
  dsimp only
  rw [if_neg (by rw [hrsv]; decide), hroute]
  rfl

/-- Settles O24: both are their legal branches. -/
theorem redsendAndSig : Obligations.RedsendAndSig := by
  unfold Obligations.RedsendAndSig
  refine ⟨fun c body s => ?_, fun c body s r => ?_⟩
  · intro w u k sr h hrsv htree
    have hexec := exec_redsend h (u := u) (k := k) rfl rfl hrsv htree
    have hfree : ((k.issued (k.issueAt w)).occupy 7 (k.issueAt w + 5)).unitAt 7 = k.issueAt w + 5 := Core.unitAt_occupy _ _ _
    clear_value u k
    exact ⟨_, redJob w (k.issueAt w) (u.redPacket c k w), u.redPacket c k w, hexec, onlyAdvanced_issued _ _ _, rfl, rfl, rfl, hfree,
      rfl, rfl, rfl, rfl, rfl, rfl, rfl, rfl⟩
  · intro w u k h hrsv hroute
    have hexec := exec_sig h (u := u) (k := k) rfl rfl hrsv hroute
    clear_value u k
    exact ⟨_, u.sigPacket c k w r, hexec, onlyAdvanced_issued _ _ _, rfl, rfl, rfl, rfl, rfl, rfl, rfl⟩

/-! ### A row or increment at its die (R207, R208, R210) -/

/-- The increment of a packet at a core of die `d`. -/
def incAt (d : Nat) (p : Packet) : Inc := { core := d * 16 + p.dcore, ctr := p.dctr, route := p.routeId, sender := p.core, hi := p.msg }

/-- The memory of die `d` that a row is aimed at. -/
def aimedMem (d : Nat) (p : Packet) : Nat := if p.dm = 0 then d * 16 + p.dcore else clusterMem (2 * d + p.dcore / 8)

section

variable {i cyc d : Nat} {s : State} {p : Packet}

/-- A packet that is whole and next in its order at a die in use leaves the fabric. -/
theorem exec_rowDelivery (hp : s.packet i = some p) (hready : s.ready i p = true) (htyp : p.typ ≤ 1) (hplace : p.place < 0x100)
    (hdie : s.dieAt p.place = some d) (hgone : s.dieGone p.place = false) :
    exec (.rowDelivery i cyc) s = .next (if p.typ = 1 then (s.dropPacket i).addInc (incAt d p) cyc else (s.dropPacket i).deliverRow d p cyc) := by
  have hmay : ¬((!s.ready i p) = true ∨ p.typ > 1 ∨ p.place = hubPlace) := by
    rw [hready]
    unfold hubPlace
    simp
    omega
  show execRowDelivery i cyc s = _
  unfold execRowDelivery
  rw [hp]
  dsimp only
  rw [if_neg hmay, if_neg (by omega), hdie]
  dsimp only
  rw [hgone, if_neg (by decide)]
  split <;> rfl

/-- A row aimed at a resident row while the step is RUNNING is refused. -/
theorem State.deliverRow_refused (hlocked : s.residentLocked (aimedMem d p) p.drow = true) :
    s.deliverRow d p cyc = State.senderFault { s with fabric := { s.fabric with refused := s.fabric.refused ++ [p] } } p .protection := if_pos hlocked

end

/-! ### What the refusing die does (R212, R215, R216) -/

theorem FailuresOnly.agents {s t : State} (h : FailuresOnly s t) : t.agents = s.agents := by obtain ⟨_, _, _, _, _, _, rfl⟩ := h; rfl

/-- While a step runs a fault that a receiving die raises is one of its failures. -/
theorem State.coreFault_agent_fails {s : State} (hrun : s.isRunning = true) (c : Nat) (kind : CoreFaultKind) (pc : Nat) (word : BitVec 64)
    (cycle reporter place : Nat) :
    { frame := (s.core c).frame, status := coreFaultStatus kind, core := c, detail := coreDetail (s.core c).frame c } ∈
      (s.coreFault c kind pc word cycle reporter (some place)).step.faults := by
  unfold State.coreFault
  extract_lets k s1 s2
  have h2 : s2.isRunning = true := by
    rw [((s1.addError_failuresOnly _).isRunning : s2.isRunning = s1.isRunning)]
    exact hrun
  rw [State.failStep_running h2]
  exact List.mem_append_right _ (List.mem_singleton.2 rfl)

/-- A place's agent latches its first fault, and keeps it. -/
theorem State.latchAgent_isSome (s : State) (place : Nat) (l : AgentLatch) : (tget none (s.latchAgent place l).agents place).isSome = true := by
  unfold State.latchAgent
  rw [tget_tset_same]
  cases tget none s.agents place <;> rfl

/-- A fault that a die raises against a core that sent to it stops the core, is latched by the die's agent, and fails the running step; memory and fabric stay. -/
theorem State.senderFault_stops {s : State} {p : Packet} (hrun : s.isRunning = true) (hcore : p.core < 2304) (kind : CoreFaultKind) :
    let t := s.senderFault p kind
    t.mem = s.mem ∧ (t.core p.core).mode = .faulted ∧ t.fabric = s.fabric ∧ (tget none t.agents p.place).isSome = true ∧
      ∃ f ∈ t.step.faults, f.status = coreFaultStatus kind ∧ f.core = p.core := by
  intro t
  have ht : t = s.coreFault p.core kind p.pc p.word (s.core p.core).cycle (s.reporterAt p.place) (some p.place) := if_pos hcore
  obtain ⟨l, hl⟩ := s.coreFault_agent p.core kind p.pc p.word (s.core p.core).cycle (s.reporterAt p.place) p.place
  rw [ht]
  refine ⟨hl.mem, ?_, hl.fabric, ?_, _, State.coreFault_agent_fails hrun _ _ _ _ _ _ _, rfl, rfl⟩
  · rw [hl.core, State.core, State.latchAgent_cores]
    exact congrArg Core.mode (State.core_setCore_same s p.core { s.core p.core with mode := .faulted })
  · rw [hl.agents]
    exact State.latchAgent_isSome _ _ _

/-- Settles O23: the issue is `sendRows_beyond`; the refused row's fault is `State.senderFault_stops`. -/
theorem sendAddressFault : Obligations.SendAddressFault := by
  unfold Obligations.SendAddressFault
  refine ⟨fun kind c body s hkind => ?_, fun i cyc d s p => ?_⟩
  · intro w u n h hn hout
    rw [exec_sender hkind]
    exact sendRows_beyond h hn hout
  · intro m hp hready htyp hplace hdie hgone hresident hrun hcore
    have hlocked : (s.dropPacket i).residentLocked (aimedMem d p) p.drow = true := Bool.and_eq_true_iff.2 ⟨hrun, decide_eq_true hresident⟩
    have hexec := (exec_rowDelivery (cyc := cyc) hp hready (by omega) hplace hdie hgone).trans
      (congrArg Host.Outcome.next ((if_neg (by omega)).trans (State.deliverRow_refused hlocked)))
    obtain ⟨hmem, hmode, hfabric, hagent, hfails⟩ := State.senderFault_stops (p := p)
      (s := { s.dropPacket i with fabric := { (s.dropPacket i).fabric with refused := (s.dropPacket i).fabric.refused ++ [p] } }) hrun hcore .protection
    exact ⟨_, hexec, hmem, hmode, hfabric, hagent, hfails⟩

end Sys2Proof.Machine
end

section
/-! PROOF. Rows and increments at their die or I/O die, and the landing of an arrived row (05 R207 to R210; 06 R225, R226, R232; 07 R270; 08 R321). -/

namespace Sys2Proof.Machine

/-! ### Increments (R207, R210) -/

/-- Increments that count change the cores alone. -/
theorem increments_eq (ns : List Inc) (cycle : Nat) (s : State) :
    ∃ cs, forEach ns (fun n s => s.increment n.core n.ctr cycle) s = { s with cores := cs } :=
  forEach_holds (fun t => ∃ cs, t = { s with cores := cs }) ns _ s ⟨_, rfl⟩ fun n _ ⟨_, ht⟩ =>
    ⟨_, congrArg (fun t => t.increment n.core n.ctr cycle) ht⟩

/-- Releasing increments changes the cores and the increments that wait. -/
theorem State.releaseIncs_eq (s : State) (cycle : Nat) :
    ∃ cs ns, s.releaseIncs cycle = { s with cores := cs, fabric := { s.fabric with incs := ns } } := by
  unfold State.releaseIncs
  dsimp only
  obtain ⟨cs, hcs⟩ := increments_eq (s.fabric.incs.filter (fun n => !s.rowsAhead n)) cycle
    { s with fabric := { s.fabric with incs := s.fabric.incs.filter (fun n => s.rowsAhead n) } }
  exact ⟨cs, _, hcs⟩

/-- An increment that waits for no row, and behind no other, counts at once. -/
theorem State.addInc_counts {s : State} {n : Inc} (cycle : Nat) (hincs : s.fabric.incs = []) (hfirst : s.rowsAhead n = false) :
    s.addInc n cycle = s.increment n.core n.ctr cycle := by
  have hnone : { s with fabric := { s.fabric with incs := [] } } = s := by rw [← hincs]
  unfold State.addInc
  rw [hincs, List.nil_append]
  set s1 : State := { s with fabric := { s.fabric with incs := [n] } }
  have hahead : s1.rowsAhead n = false := hfirst
  have hready : s1.fabric.incs.filter (fun n => !s1.rowsAhead n) = [n] := by simp [s1, hahead]
  have hwait : s1.fabric.incs.filter (fun n => s1.rowsAhead n) = [] := by simp [s1, hahead]
  unfold State.releaseIncs
  rw [hready, hwait]
  exact congrArg (fun s => s.increment n.core n.ctr cycle) hnone

/-! ### Data rows at an I/O die (R270) -/

theorem FailuresOnly.ioDies {s t : State} (h : FailuresOnly s t) : t.ioDies = s.ioDies := by obtain ⟨_, _, _, _, _, _, rfl⟩ := h; rfl

theorem State.consumeFlight_failuresOnly (s : State) (p : Packet) : FailuresOnly s (s.consumeFlight p) := by
  unfold State.consumeFlight
  split
  · split
    · exact s.poisonRead_failuresOnly _ _
    · exact .refl s
  · exact .refl s

theorem State.channel_modChannel_same (s : State) (io ch : Nat) (f : Channel → Channel) : (s.modChannel io ch f).channel io ch = f (s.channel io ch) := by
  unfold State.channel State.modChannel State.modIoDie
  rw [State.ioDie_setIoDie, if_pos rfl]
  exact tget_tset_same _ _ _ _

/-- A data row takes its place in the running transfer of its channel. -/
theorem State.takeData_takes (s : State) {p : Packet} {r : Running} (h : (s.channel (p.core % 0x10000 / 64) (p.core % 64)).running = some r) :
    (s.takeData p).fabric = s.fabric ∧ (s.takeData p).mem = s.mem ∧ (s.takeData p).cores = s.cores ∧
      ((s.takeData p).channel (p.core % 0x10000 / 64) (p.core % 64)).running = some { r with rows := tinsert p.tag (p.payload, p.poison) r.rows } := by
  have hr := s.consumeFlight_failuresOnly p
  have hch : (s.consumeFlight p).channel (p.core % 0x10000 / 64) (p.core % 64) = s.channel (p.core % 0x10000 / 64) (p.core % 64) := by
    unfold State.channel State.ioDie
    rw [hr.ioDies]
  refine ⟨hr.fabric, hr.mem, hr.cores, ?_⟩
  unfold State.takeData
  rw [State.channel_modChannel_same, hch, h]
  rfl

/-! ### Rows that leave the panel (R321, R323) -/

/-- `t` differs from `s` in the I/O dies and the ports alone. -/
def EgressOnly (s t : State) : Prop := ∃ ds qs, t = { s with ioDies := ds, ports := qs }

namespace EgressOnly

variable {s t u : State}

theorem refl (s : State) : EgressOnly s s := ⟨_, _, rfl⟩

theorem trans (h : EgressOnly s t) (h' : EgressOnly t u) : EgressOnly s u := by
  obtain ⟨_, _, rfl⟩ := h
  obtain ⟨_, _, rfl⟩ := h'
  exact ⟨_, _, rfl⟩

theorem mem (h : EgressOnly s t) : t.mem = s.mem := by obtain ⟨_, _, rfl⟩ := h; rfl
theorem cores (h : EgressOnly s t) : t.cores = s.cores := by obtain ⟨_, _, rfl⟩ := h; rfl
theorem fabric (h : EgressOnly s t) : t.fabric = s.fabric := by obtain ⟨_, _, rfl⟩ := h; rfl

end EgressOnly

theorem State.setIoDie_egressOnly (s : State) (io : Nat) (d : IoDie) : EgressOnly s (s.setIoDie io d) := ⟨_, _, rfl⟩

theorem State.sendTx_egressOnly (s : State) (e : Nat) (x : Tx) : EgressOnly s (s.sendTx e x).1 := by
  unfold State.sendTx
  extract_lets w
  split
  · exact .refl s
  · split
    · exact .refl s
    · split
      · exact .refl s
      · exact ⟨_, _, rfl⟩

theorem State.transmit_egressOnly (s : State) (io : Nat) : EgressOnly s (s.transmit io) := by
  unfold State.transmit
  split
  · exact .refl s
  · extract_lets go
    have hgo : EgressOnly s go.1 := by
      refine List.foldlRecOn (motive := fun acc : State × List Tx => EgressOnly s acc.1) _ _ (.refl s) fun acc h x _ => ?_
      dsimp only
      split
      · exact h
      · exact h.trans (acc.1.sendTx_egressOnly _ x)
    exact hgo.trans (go.1.setIoDie_egressOnly _ _)

theorem State.queueTx_egressOnly (s : State) (io vc : Nat) (p : Packet) : EgressOnly s (s.queueTx io vc p) :=
  (s.setIoDie_egressOnly _ _).trans (State.transmit_egressOnly _ _)

theorem State.egressPacket_egressOnly (s : State) (io e : Nat) (p : Packet) : EgressOnly s (s.egressPacket io e p) := by
  unfold State.egressPacket
  extract_lets p1 d dir vc key next
  split
  · split
    · exact (s.setIoDie_egressOnly _ _).trans (State.queueTx_egressOnly _ _ _ _)
    · split
      · exact ((s.setIoDie_egressOnly _ _).trans (State.queueTx_egressOnly _ _ _ _)).trans (State.queueTx_egressOnly _ _ _ _)
      · exact ((s.setIoDie_egressOnly _ _).trans (State.setIoDie_egressOnly _ _ _)).trans (State.queueTx_egressOnly _ _ _ _)
  · split
    · exact (s.setIoDie_egressOnly _ _).trans (State.queueTx_egressOnly _ _ _ _)
    · extract_lets q bad
      split
      · exact ((s.setIoDie_egressOnly _ _).trans (State.queueTx_egressOnly _ _ _ _)).trans (State.queueTx_egressOnly _ _ _ _)
      · exact (s.setIoDie_egressOnly _ _).trans (State.queueTx_egressOnly _ _ _ _)

section

variable {i cyc : Nat} {s : State} {p : Packet}

/-- A packet at an I/O die is taken from its local output whole and in order. -/
theorem not_kept_at_io (hready : s.ready i p = true) (htyp : p.typ ≤ 1) (hhub : p.place ≠ hubPlace) :
    ¬((!s.ready i p) = true ∨ p.typ > 1 ∨ p.place = hubPlace) := by
  rw [hready]
  simp [hhub]
  omega

theorem exec_rowDelivery_data (hp : s.packet i = some p) (hready : s.ready i p = true) (htyp : p.typ ≤ 1) (hplace : 0x100 ≤ p.place)
    (hhub : p.place ≠ hubPlace) (hdata : p.core / 0x10000 = 1) : exec (.rowDelivery i cyc) s = .next ((s.dropPacket i).takeData p) := by
  show execRowDelivery i cyc s = _
  unfold execRowDelivery
  rw [hp]
  dsimp only
  rw [if_neg (not_kept_at_io hready htyp hhub), if_pos hplace, if_pos hdata]

theorem exec_rowDelivery_egress {e : Nat} (hp : s.packet i = some p) (hready : s.ready i p = true) (htyp : p.typ ≤ 1) (hplace : 0x100 ≤ p.place)
    (hhub : p.place ≠ hubPlace) (hdata : p.core / 0x10000 ≠ 1) (hengine : ioEngine (p.place - 0x100) = some e) (hbundle : s.bundle e ≠ []) :
    exec (.rowDelivery i cyc) s = .next ((s.dropPacket i).egressPacket (p.place - 0x100) e p) := by
  have hsome : ¬(s.bundle e).isEmpty = true := by simpa using hbundle
  show execRowDelivery i cyc s = _
  unfold execRowDelivery
  rw [hp]
  dsimp only
  rw [if_neg (not_kept_at_io hready htyp hhub), if_pos hplace, if_neg hdata, hengine]
  exact if_neg hsome

end

/-! ### The landing of the one arrived row (R225, R226, R232) -/

section

variable {m : Nat} {s : State} {a : Arrived}

theorem State.landStart_sole (h : tget [] s.fabric.arrived m = [a]) : s.landStart m = s.landFrom m a := by
  unfold State.landStart
  rw [h]
  simp [bankHeads]

/-- Where the cluster has no access to come, the one arrived row may land in the first cycle that it may take its port in. -/
theorem State.landScan_sole (n : Nat) {x : Nat} (harr : tget [] s.fabric.arrived m = [a]) (hidle : s.idleCluster (memCluster m))
    (hx : s.landFrom m a ≤ x) (hfree : s.portFree m a.row .external x = true) : State.landScan m (n + 1) x s = some (x, 0, s) := by
  unfold State.landScan
  rw [hidle.runTo]
  dsimp only
  rw [harr]
  simp [bankHeads, hx, hfree]

theorem State.rowLanded_eq (s : State) (sender : Nat) : ∃ ds, s.rowLanded sender = { s with ioDies := ds } := by
  unfold State.rowLanded
  split <;> exact ⟨_, rfl⟩

/-- The panel with an arrived row written and no longer waiting, before its acknowledgement and its increment. -/
def State.rowDown (s : State) (m cycle : Nat) (a : Arrived) : State :=
  let s1 := s.writeRow (memRowAddr m a.row) a.bytes a.poison
  { s1 with fabric := { s1.fabric with
    arrived := tset [] s1.fabric.arrived m [], landedAt := tset 0 s1.fabric.landedAt (m * 32 + bankOf m a.row) (cycle + 1) } }

/-- The panel with an acknowledgement, if there is one, on its way. -/
def State.acked (s : State) (ack : Option Packet) : State :=
  match ack with
  | some q => s.inject [q]
  | none => s

/-- The panel with the increment that a landed row carries, if there is one, behind those that wait. -/
def State.notified (s : State) (a : Arrived) : State :=
  match a.notify with
  | some n => { s with fabric := { s.fabric with incs := s.fabric.incs ++
      [{ core := n.1, ctr := n.2, route := a.route, sender := a.sender, lo := a.msg, hi := a.msg + 1 }] } }
  | none => s

theorem State.notified_eq (s : State) (a : Arrived) : ∃ ns, s.notified a = { s with fabric := { s.fabric with incs := ns } } := by
  unfold State.notified
  split <;> exact ⟨_, rfl⟩

/-- The one row of a memory is written, is acknowledged, leaves its sender's count and hands on its increment, in this order. -/
theorem State.landRow_steps (cycle : Nat) (harr : tget [] s.fabric.arrived m = [a]) :
    s.landRow m cycle 0 = ((((s.rowDown m cycle a).acked a.ack).rowLanded a.sender).notified a).releaseIncs cycle := by
  unfold State.landRow
  rw [harr]
  rfl

/-- After a memory's one row has landed and its acknowledgement has left, what follows changes cores, I/O dies and the increments that wait. -/
theorem State.landRow_sole (cycle : Nat) (harr : tget [] s.fabric.arrived m = [a]) :
    ∃ cs ds ns, s.landRow m cycle 0 = { (s.rowDown m cycle a).acked a.ack with
      cores := cs, ioDies := ds, fabric := { ((s.rowDown m cycle a).acked a.ack).fabric with incs := ns } } := by
  rw [State.landRow_steps cycle harr]
  obtain ⟨ds, hlanded⟩ := ((s.rowDown m cycle a).acked a.ack).rowLanded_eq a.sender
  obtain ⟨ns, hnotified⟩ := (((s.rowDown m cycle a).acked a.ack).rowLanded a.sender).notified_eq a
  obtain ⟨cs, ns', hreleased⟩ := ((((s.rowDown m cycle a).acked a.ack).rowLanded a.sender).notified a).releaseIncs_eq cycle
  refine ⟨cs, ds, ns', ?_⟩
  rw [hreleased, hnotified, hlanded]

/-- The one arrived row of a memory lands in the first cycle in which its port is free. -/
theorem exec_externalWriteLand {cyc : Nat} (hheld : (s.cluster (memCluster m)).held = false) (harr : tget [] s.fabric.arrived m = [a])
    (hidle : s.idleCluster (memCluster m)) (hfree : s.portFree m a.row .external (max cyc (s.landStart m)) = true) :
    exec (.externalWriteLand m cyc) s = .next (s.landRow m (max cyc (s.landStart m)) 0) := by
  have hstart : s.landFrom m a ≤ max cyc (s.landStart m) := by
    rw [State.landStart_sole harr]
    exact Nat.le_max_right _ _
  show execExternalWriteLand m cyc s = _
  unfold execExternalWriteLand
  rw [hheld, if_neg (by decide), State.landScan_sole _ harr hidle hstart hfree]

end

/-- A packet keeps its type, tag and destination as it enters the fabric. -/
theorem State.inject_header (s : State) (q : Packet) :
    ∃ f, (s.inject [q]).fabric.packets = s.fabric.packets ++ [f] ∧ f.typ = q.typ ∧ f.tag = q.tag ∧ f.dst = q.dst := by
  rw [State.inject_packets]
  unfold State.entering State.entering
  split <;> exact ⟨_, rfl, rfl, rfl, rfl⟩

theorem Core.creg_countInc (k : Core) (ctr x j : Nat) : (k.countInc ctr x).creg j = if j = ctr then k.creg j + 1 else k.creg j := by
  refine (k.creg_incC ctr j).trans ?_
  split
  · next h => rw [h]
  · rfl

/-- Settles O45: a row or increment at a die is `exec_rowDelivery`, at an I/O die it takes its place or leaves; the landing is `State.landRow_sole`. -/
theorem rowsLand : Obligations.RowsLand := by
  unfold Obligations.RowsLand
  refine ⟨fun i cyc d s p hp hready hplace hdie hgone => ⟨fun htyp => ?_, fun htyp => ?_⟩, fun i cyc s p => ?_, fun m cyc s a => ?_⟩
  · intro m y hfree
    have hput : ¬(s.dropPacket i).residentLocked (aimedMem d p) p.drow = true := by
      rw [show (s.dropPacket i).residentLocked (aimedMem d p) p.drow = false from hfree]
      decide
    exact (exec_rowDelivery hp hready (by omega) hplace hdie hgone).trans (congrArg Host.Outcome.next ((if_neg (by omega)).trans (if_neg hput)))
  · intro c hincs hfirst
    have hexec := (exec_rowDelivery (cyc := cyc) hp hready (by omega) hplace hdie hgone).trans (congrArg Host.Outcome.next
      ((if_pos htyp).trans (State.addInc_counts (s := s.dropPacket i) (n := incAt d p) cyc hincs hfirst)))
    refine ⟨_, hexec, rfl, hincs, rfl, fun j => ?_, fun e he => State.core_setCore_ne _ _ _ _ he⟩
    have hcore : ((s.dropPacket i).increment (incAt d p).core (incAt d p).ctr cyc).core c = (s.core c).countInc p.dctr cyc :=
      State.core_setCore_same _ _ _
    rw [hcore]
    exact Core.creg_countInc _ _ _ _
  · intro io ch hp hready htyp hplace hhub
    refine ⟨fun r hdata hrun => ?_, fun e hdata hengine hbundle => ?_⟩
    · obtain ⟨hfabric, hmem, hcores, htakes⟩ := (s.dropPacket i).takeData_takes (p := p) (r := r) hrun
      exact ⟨_, exec_rowDelivery_data hp hready htyp hplace hhub hdata, by rw [hfabric]; rfl, hmem, hcores, htakes⟩
    · have hleaves := (s.dropPacket i).egressPacket_egressOnly (p.place - 0x100) e p
      exact ⟨_, exec_rowDelivery_egress hp hready htyp hplace hhub hdata hengine hbundle, by rw [hleaves.fabric]; rfl, hleaves.mem, hleaves.cores⟩
  · intro x hm hheld harr hidle hfree
    obtain ⟨cs, ds, ns, hland⟩ := State.landRow_sole x harr
    have hack : ∀ ack, ((s.rowDown m x a).acked ack).mem = (s.rowDown m x a).mem ∧ ((s.rowDown m x a).acked ack).poison = (s.rowDown m x a).poison ∧
        ((s.rowDown m x a).acked ack).fabric.arrived = (s.rowDown m x a).fabric.arrived := by
      rintro (_ | q) <;> exact ⟨rfl, rfl, rfl⟩
    obtain ⟨hmem, hpoison, harrived⟩ := hack a.ack
    refine ⟨_, (exec_externalWriteLand hheld harr hidle hfree).trans (congrArg Host.Outcome.next hland), hmem, ?_, ?_, fun q hq => ?_, fun hnone => ?_⟩
    · unfold State.isPoisoned
      rw [hpoison]
      exact s.isPoisoned_writeRow_same (memRowAddr m a.row) a.bytes a.poison
    · rw [harrived]
      exact tget_tset_same [] s.fabric.arrived m []
    · rw [hq]
      exact (s.rowDown m x a).inject_header q
    · rw [hnone]
      rfl

end Sys2Proof.Machine
end

section
/-! PROOF. The pieces of host-requested transfers: how one starts, how its units move, and how it completes (06 R236, R245; 07 R260, R270, R288; 09 R355). -/

namespace Sys2Proof.Machine

/-! ### Arbiters -/

/-- `t` differs from `s` in the arbiters alone. -/
def ArbitersOnly (s t : State) : Prop := ∃ as, t = { s with fabric := { s.fabric with arbiters := as } }

theorem ArbitersOnly.trans {s t u : State} (h : ArbitersOnly s t) (h' : ArbitersOnly t u) : ArbitersOnly s u := by
  obtain ⟨_, rfl⟩ := h
  obtain ⟨_, rfl⟩ := h'
  exact ⟨_, rfl⟩

theorem State.runArbiter_arbitersOnly (s : State) (n kept : Nat) : ArbitersOnly s (s.runArbiter n kept) := by
  unfold State.runArbiter
  split
  · exact ⟨_, rfl⟩
  · exact ⟨_, rfl⟩

theorem State.request_arbitersOnly (s : State) (n : Nat) (r : ArbReq) : ArbitersOnly s (s.request n r) := by
  unfold State.request
  split
  · exact ⟨_, rfl⟩
  · exact .trans ⟨_, rfl⟩ (State.runArbiter_arbitersOnly _ _ _)

theorem State.pieceRequests_arbitersOnly (s : State) (x : Xfer) (p : Piece) (ch : Nat) : ArbitersOnly s (s.pieceRequests x p ch) :=
  forEach_holds (ArbitersOnly s) _ _ s ⟨_, rfl⟩ fun _ t ht => ht.trans (t.request_arbitersOnly _ _)

/-! ### Asking for a unit (R245, R260) -/

/-- A transfer that is found by its tag bears it, and is one of those under way. -/
theorem State.xferOf_some {s : State} {tag : Nat} {x : Xfer} (h : s.xferOf tag = some x) : x.cmd.tag = tag ∧ x ∈ s.cmds.xfers :=
  ⟨by simpa using List.find?_some h, List.mem_of_find?_eq_some h⟩

/-- Asking for a piece's next unit sends one HOST packet, with the unit where it is written; of the piece it changes the flags alone, those of a write's
conversion. -/
theorem State.askUnit_asks (s : State) (x : Xfer) (p : Piece) :
    ∃ bs w, s.askUnit x p = ({ p with word := w }, s.inject [s.hostRequest x p bs]) ∧ (x.write = false → bs = [] ∧ w = p.word) := by
  unfold State.askUnit
  split
  · next hw => exact ⟨_, _, rfl, fun h => absurd hw (by simp [h])⟩
  · exact ⟨_, _, rfl, fun _ => ⟨rfl, rfl⟩⟩

/-! ### A piece that starts -/

/-- A piece as it takes a host channel. -/
def Piece.started (p : Piece) (ch : Nat) : Piece := { p with running := true, word := xferWord false false false 0, chan := ch }

section

variable {tag ch i : Nat} {s : State} {x : Xfer} {p : Piece}

/-- A piece that passes its test takes the channel that is free, and asks for its units and for its first unit. -/
theorem exec_hostPieceStart (hx : s.xferOf tag = some x) (hp : x.pieces.find? (fun p => !p.running) = some p) (hlink : s.host.linkUp = true)
    (hready : s.pieceReady p = true) (hheld : s.stepHeld x = false) (htest : (s.pieceTest x p).1 = 0) (hch : s.hostChannel (s.pieceIo p) = some ch) :
    let r := (s.pieceRequests x p ch).askUnit x (p.started ch)
    exec (.hostPieceStart tag) s = .next (r.2.setXfer (x.withPiece r.1)) := by
  show execHostPieceStart tag s = _
  unfold execHostPieceStart
  simp only [hx, hp, hlink, hready, hheld, htest, hch]
  rfl

/-- What the start of a piece sends and leaves alone. -/
theorem State.pieceStart_asks (s : State) (x : Xfer) (p : Piece) (ch : Nat) :
    let r := (s.pieceRequests x p ch).askUnit x (p.started ch)
    ∃ q, r.1.running = true ∧ r.1.chan = ch ∧ r.1.first = p.first ∧ r.1.done = p.done ∧ r.2.fabric.packets = s.fabric.packets ++ [q] ∧
      q.typ = 0xA ∧ q.src = hubPlace ∧ q.dst = ioPlace (s.pieceIo p) ∧ q.addr = p.addr + 512 * p.done ∧ q.tag = x.cmd.tag ∧
      (x.write = false → q.payload = [] ∧ r.1.word = xferWord false false false 0) ∧ r.2.mem = s.mem ∧ r.2.hostMem = s.hostMem := by
  obtain ⟨as, hreq⟩ := s.pieceRequests_arbitersOnly x p ch
  rw [hreq]
  set u : State := { s with fabric := { s.fabric with arbiters := as } }
  obtain ⟨bs, w, hask, hread⟩ := u.askUnit_asks x (p.started ch)
  rw [hask]
  have hio : u.pieceIo (p.started ch) = s.pieceIo p := rfl
  exact ⟨_, rfl, rfl, rfl, rfl, u.inject_one (p := u.hostRequest x (p.started ch) bs) (show (0xA : Nat) ≠ 7 by decide), rfl, rfl,
    congrArg ioPlace hio, rfl, rfl, hread, rfl, rfl⟩

/-! ### A piece that completes -/

/-- A transfer that one of its pieces has left, its flags behind those of the pieces before it. -/
def Xfer.withoutPiece (x : Xfer) (i : Nat) (p : Piece) : Xfer := { x with pieces := x.pieces.eraseIdx i, words := x.words ++ [(p.first, p.word)] }

/-- A piece whose units have all moved and are all granted leaves its transfer (R288, R355). -/
theorem exec_hostPieceComplete (hx : s.xferOf tag = some x) (hp : x.pieces[i]? = some p) (hrun : p.running = true) (hlink : s.host.linkUp = true)
    (hdone : x.unitsOf p ≤ p.done) (hgranted : s.granted (pieceKey tag p.first) = true) :
    exec (.hostPieceComplete tag i) s = .next (s.endXfer (x.withoutPiece i p)) := by
  show execHostPieceComplete tag i s = _
  unfold execHostPieceComplete
  simp only [hx, hp, hrun, hlink, Nat.not_lt.2 hdone, hgranted]
  rfl

/-- The panel once a transfer is no longer under way. -/
def State.withoutXfer (s : State) (x : Xfer) : State :=
  { s with cmds := { s.cmds with xfers := s.cmds.xfers.filter (fun y => y.cmd.tag != x.cmd.tag) } }

/-- A host's transfer with no piece left makes its record (R355). -/
theorem State.endXfer_host (h : x.pieces = []) (hhost : x.ofStep = false) :
    s.endXfer x = (s.withoutXfer x).completeAt x.cmd s.now x.status 0xFFFF x.detail x.moved (mergeWords x.words) 0 := by
  unfold State.endXfer
  simp only [h, hhost]
  rfl

/-- A transfer of the step's own with no piece left makes none. -/
theorem State.endXfer_ofStep (h : x.pieces = []) (hstep : x.ofStep = true) : s.endXfer x = (s.withoutXfer x).endStepXfer x := by
  unfold State.endXfer
  simp only [h, hstep]
  rfl

theorem State.endXfer_pieces (h : x.pieces ≠ []) : s.endXfer x = s.setXfer x := if_neg h

/-- A transfer under way is in its new form afterwards. -/
theorem State.mem_setXfer {y : Xfer} (hx : x ∈ s.cmds.xfers) (htag : x.cmd.tag = y.cmd.tag) : y ∈ (s.setXfer y).cmds.xfers :=
  List.mem_map.2 ⟨x, hx, if_pos htag⟩

/-- What fails the running step makes one error record, and joins the failures of the step (R60, R487). -/
theorem State.failWith_running (hrun : s.isRunning = true) (e : ErrIn) (detail : Nat) :
    (s.failWith e detail).cmds = s.cmds ∧ (s.failWith e detail).units.seq = s.units.seq + 1 ∧
      (s.failWith e detail).step.faults = s.step.faults ++ [{ frame := s.step.frame, status := e.code, core := 0xFFFF, detail := detail }] := by
  unfold State.failWith
  rw [if_pos hrun]
  set e1 : ErrIn := { e with cls := 1, flags := e.flags + flStepFailed, frame := s.step.frame }
  have hrec := s.addError_recordsOnly e1
  have hrun1 : (s.addError e1).isRunning = true := by rw [State.isRunning, hrec.step]; exact hrun
  have hcmds : (s.addError e1).cmds = s.cmds := by obtain ⟨_, _, _, h⟩ := hrec; rw [h]
  rw [State.failStep_running hrun1]
  exact ⟨hcmds, s.addError_seq e1, by rw [hrec.step]⟩

/-- A step's own transfer that names a retired stack fails the step. -/
theorem State.endStepXfer_retired (h : x.status = 0x404) : s.endStepXfer x = s.failWith { unit := x.detail, code := 0x404, cls := 1 } x.detail := if_pos h

theorem State.endStepXfer_other (h : x.status ≠ 0x404) : s.endStepXfer x = s := if_neg h

end

/-! ### A unit of a read at the hub (R245, R270) -/

section

variable {i cyc : Nat} {s : State} {p : Packet} {f : Xfer} {q : Piece}

/-- A HOST reply at the hub is taken there. -/
theorem exec_replyArrival_host (hp : s.packet i = some p) (htyp : p.typ = 0xA) (hready : s.ready i p = true) (hcls : p.cls = 1)
    (hplace : p.place = hubPlace) : exec (.replyArrival i cyc) s = .next ((s.dropPacket i).takeHostReply p) := by
  show execReplyArrival i cyc s = _
  unfold execReplyArrival
  rw [hp]
  simp only [htyp, hready, hcls, hplace]
  rfl

/-- Whether a packet is the reply for the next unit of a running piece. -/
def Piece.awaits (f : Xfer) (q : Piece) (p : Packet) : Prop :=
  q.running = true ∧ q.first = p.msg ∧ q.done < f.unitsOf q ∧ q.addr + 512 * q.done = p.addr

/-- The host bytes of a read's unit, converted. -/
def Xfer.unitBytes (f : Xfer) (q : Piece) (payload : List Byte) : List Byte :=
  fitBytes (f.nextUnit q).2.2 (packElems f.hfmt (convElems f.conv [] (fun _ => 0) (getElems f.pfmt payload 0 (f.nextUnit q).1)).1)

/-- A piece of a read with one more unit moved, and the flags of its conversion. -/
def Piece.tookUnit (f : Xfer) (q : Piece) (payload : List Byte) : Piece :=
  { q.noted (convElems f.conv [] (fun _ => 0) (getElems f.pfmt payload 0 (f.nextUnit q).1)).2.2 0 with done := q.done + 1 }

/-- The good last unit of the one piece of the one transfer, a read's: its bytes go to host memory, and the piece has moved. -/
theorem State.takeHostReply_last (hxfers : s.cmds.xfers = [f]) (htag : f.cmd.tag = p.tag) (hpieces : f.pieces = [q]) (hawaits : q.awaits f p)
    (hlast : q.done + 1 = f.unitsOf q) (hread : f.write = false) (hfault : p.fault = none) (hgood : p.poison = false) :
    s.takeHostReply p = (s.writeHost (f.nextUnit q).2.1 (f.unitBytes q p.payload)).setXfer
      { f with pieces := [q.tookUnit f p.payload], moved := f.moved + (f.nextUnit q).2.2 } := by
  obtain ⟨hrun, hfirst, hmore, haddr⟩ := hawaits
  have hof : s.xferOf p.tag = some f := by simp [State.xferOf, hxfers, htag]
  have hfind : f.pieces.find? (fun q => q.running && q.first == p.msg && decide (q.done < f.unitsOf q) && q.addr + 512 * q.done == p.addr) = some q := by
    simp [hpieces, hrun, hfirst, hmore, haddr]
  unfold State.takeHostReply
  split
  · next h => cases hof.symm.trans h
  next f' hf =>
  obtain rfl := Option.some.inj (hof.symm.trans hf)
  split
  · next h => cases hfind.symm.trans h
  next q' hq =>
  obtain rfl := Option.some.inj (hfind.symm.trans hq)
  extract_lets unit _ u out s1 x1 q0 q1 r x2
  rw [if_neg (by simp [hfault])]
  have hbad : ¬p.poison = true := by simp [hgood]
  have hwrite : ¬f.write = true := by simp [hread]
  have hs1 : s1 = s.writeHost u.2.1 (f.unitBytes q p.payload) := (if_neg hwrite).trans (if_neg hbad)
  have hx1 : x1 = f := if_neg hbad
  have hq0 : q0 = q.noted out.2.2 0 := (if_neg hbad).trans (if_neg hwrite)
  have hq1 : q1 = q.tookUnit f p.payload := congrArg (fun y : Piece => { y with done := q.done + 1 }) hq0
  have hdone : q1.done = f.unitsOf q := hlast
  have hr : r = (q.tookUnit f p.payload, s1) := (if_neg (by omega)).trans (by rw [hq1])
  have hx2 : x2 = { f with pieces := [q.tookUnit f p.payload] } := by
    show x1.withPiece r.1 = _
    rw [hr, hx1, Xfer.withPiece, hpieces, List.map_singleton, if_pos (show q.first = (q.tookUnit f p.payload).first from rfl)]
  rw [hx2, hr, hs1]

end

/-! ### The statement -/

/-- Settles O40: a start is `exec_hostPieceStart`, a read's last reply `State.takeHostReply_last`, and a piece's end `exec_hostPieceComplete` with what is left of its
transfer. -/
theorem piecesMoveAndComplete : Obligations.PiecesMoveAndComplete := by
  unfold Obligations.PiecesMoveAndComplete
  refine ⟨fun tag ch s x p hx hp hlink hready hheld htest hch => ?_, fun i cyc s p f q => ?_, fun tag s x p hx hpieces hrun hlink hdone hgranted => ?_,
    fun tag i s x p hx hp hrun hlink hdone hgranted hleft => ?_⟩
  · obtain ⟨q, hq⟩ := s.pieceStart_asks x p ch
    obtain ⟨hrun, hchan, hfirst, hdone, hpackets, htyp, hsrc, hdst, haddr, htag, hread, hmem, hhost⟩ := hq
    exact ⟨q, exec_hostPieceStart hx hp hlink hready hheld htest hch, hrun, hchan, hfirst, hdone, hpackets, htyp, hsrc, hdst, haddr,
      htag.trans (State.xferOf_some hx).1, hread, hmem, hhost⟩
  · intro u hp htyp hready hcls hplace hxfers htag hpieces hrun hfirst hlast haddr hread hfault hgood
    have htakes := State.takeHostReply_last (s := s.dropPacket i) hxfers htag hpieces ⟨hrun, hfirst, by omega, haddr⟩ hlast hread hfault hgood
    refine ⟨_, q.tookUnit f p.payload, (exec_replyArrival_host hp htyp hready hcls hplace).trans (congrArg Host.Outcome.next htakes), rfl, rfl, rfl, ?_,
      hlast, hrun⟩
    show s.cmds.xfers.map _ = _
    rw [hxfers, List.map_singleton]
    exact congrArg (fun y => [y]) (if_pos rfl)
  · have hexec := exec_hostPieceComplete (i := 0) hx (by rw [hpieces]; rfl) hrun hlink hdone hgranted
    have hnone : (x.withoutPiece 0 p).pieces = [] := by rw [Xfer.withoutPiece, hpieces]; rfl
    intro u
    refine ⟨fun hhost => ?_, fun hstep hstatus => ?_, fun hstep hstatus hrunning => ?_⟩
    · exact hexec.trans (congrArg Host.Outcome.next (State.endXfer_host hnone hhost))
    · exact hexec.trans (congrArg Host.Outcome.next ((State.endXfer_ofStep hnone hstep).trans (State.endStepXfer_other (x := x.withoutPiece 0 p) hstatus)))
    · obtain ⟨hcmds, hseq, hfaults⟩ := State.failWith_running (s := u) hrunning { unit := x.detail, code := 0x404, cls := 1 } x.detail
      exact ⟨_, hexec.trans (congrArg Host.Outcome.next ((State.endXfer_ofStep hnone hstep).trans (State.endStepXfer_retired (x := x.withoutPiece 0 p) hstatus))), hcmds, hseq, hfaults⟩
  · have hexec := exec_hostPieceComplete hx hp hrun hlink hdone hgranted
    exact ⟨_, hexec.trans (congrArg Host.Outcome.next (State.endXfer_pieces hleft)), rfl, rfl, _,
      State.mem_setXfer (State.xferOf_some hx).2 rfl, rfl, rfl, rfl⟩

end Sys2Proof.Machine
end

section
/-! PROOF. Planned transfers: launch rows, the start of a transfer and its completion (06 R236 to R243; log entry 24). -/

namespace Sys2Proof.Machine

/-! ### Packets that enter the fabric -/

@[simp] theorem State.length_entering (s : State) (n : Nat) (ps : List Packet) : (s.entering n ps).length = ps.length := by
  induction ps generalizing n with
  | nil => rfl
  | cons p ps ih => simp only [State.entering, List.length_cons, ih]

/-- A packet of a type other than 7 is among those that enter, with its own header. -/
theorem State.entered_mem_entering {p : Packet} {ps : List Packet} (s : State) (n : Nat) (hp : p ∈ ps) (htyp : p.typ ≠ 7) :
    ∃ k, p.entered k ∈ s.entering n ps := by
  induction ps generalizing n with
  | nil => cases hp
  | cons q ps ih =>
    unfold State.entering
    rcases List.mem_cons.1 hp with rfl | hp
    · exact ⟨n, List.mem_cons.2 (.inl (by simp [htyp, Packet.entered]))⟩
    · obtain ⟨k, hk⟩ := ih (n + 1) hp
      exact ⟨k, List.mem_cons_of_mem _ hk⟩

/-! ### Launch rows (R237) -/

section

variable {i io ch : Nat} {s : State} {p : Packet}

/-- Whether a launch row has come whole to an I/O die that may answer it. -/
def State.LaunchAt (s : State) (i : Nat) (p : Packet) : Prop :=
  s.packet i = some p ∧ s.ready i p = true ∧ p.typ = 3 ∧ 0x100 ≤ p.place ∧ p.place < 0x10C ∧ bitsOf p.addr 47 44 = 3 ∧
    (s.ioUsable (p.place - 0x100) = true ∨ s.retired (unitId 3 (p.place - 0x100) 0) = true)

/-- A launch row that is accepted is queued whole, and answered. -/
theorem exec_dmaLaunch_accepted (h : s.LaunchAt i p) (hok : s.launchFault (p.place - 0x100) p = none) :
    exec (.dmaLaunch i) s = .next (((s.dropPacket i).modChannel (p.place - 0x100) (bitsOf p.addr 14 9)
      (fun c => { c with queue := c.queue ++ launchSlots p.core p.payload })).inject [replyTo p 5 [] false none]) := by
  obtain ⟨hp, hcond⟩ := h
  show execDmaLaunch i s = _
  unfold execDmaLaunch
  simp only [hp, if_pos hcond, hok]

/-- A launch row that breaks protection: its fault is raised and answered. -/
theorem exec_dmaLaunch_protection (h : s.LaunchAt i p) (hbad : s.launchFault (p.place - 0x100) p = some .protection) :
    exec (.dmaLaunch i) s = .next (((s.dropPacket i).senderFault p .protection).inject [replyTo p 6 [] false (some .protection)]) := by
  obtain ⟨hp, hcond⟩ := h
  show execDmaLaunch i s = _
  unfold execDmaLaunch
  simp only [hp, if_pos hcond, hbad]

/-- Any other fault of a launch row is answered, and nothing else changes. -/
theorem exec_dmaLaunch_refused {k : CoreFaultKind} (h : s.LaunchAt i p) (hbad : s.launchFault (p.place - 0x100) p = some k) (hk : k ≠ .protection) :
    exec (.dmaLaunch i) s = .next ((s.dropPacket i).inject [replyTo p 6 [] false (some k)]) := by
  obtain ⟨hp, hcond⟩ := h
  show execDmaLaunch i s = _
  unfold execDmaLaunch
  simp only [hp, if_pos hcond, hbad]

/-- A fault that a receiving die raises leaves the I/O dies. -/
theorem State.senderFault_ioDies (s : State) (p : Packet) (kind : CoreFaultKind) : (s.senderFault p kind).ioDies = s.ioDies := by
  unfold State.senderFault
  split
  · obtain ⟨l, hl⟩ := s.coreFault_agent p.core kind p.pc p.word (s.core p.core).cycle (s.reporterAt p.place) p.place
    exact hl.ioDies
  · exact ((s.addError_failuresOnly _).trans (State.failStep_failuresOnly _ _ _ _ _)).ioDies

/-- A fault that a receiving die raises against a core stops the core. -/
theorem State.senderFault_faulted (hcore : p.core < 2304) (kind : CoreFaultKind) : ((s.senderFault p kind).core p.core).mode = .faulted := by
  unfold State.senderFault
  rw [if_pos hcore]
  obtain ⟨l, hl⟩ := s.coreFault_agent p.core kind p.pc p.word (s.core p.core).cycle (s.reporterAt p.place) p.place
  rw [hl.core, State.core, State.latchAgent_cores]
  exact congrArg Core.mode (State.core_setCore_same s p.core { s.core p.core with mode := .faulted })

/-! ### The start of a transfer (R240, R242) -/

variable {d : Desc}

/-- A channel that starts the first transfer of its queue. -/
def Channel.begun (c : Channel) (r : Running) : Channel :=
  { queue := c.queue.tail, running := some r, elem := (c.elem + r.desc.count) % 2 ^ 32 }

/-- A channel with no running transfer starts its first one where the I/O die and the stack may be used. -/
theorem exec_dmaTransferStart {rest : List Desc} (hidle : (s.channel io ch).running = none) (hqueue : (s.channel io ch).queue = d :: rest)
    (hactive : s.thermal.active = false) (hio : s.ioUsable io = true)
    (hstack : s.descGone d = true ∨ s.targetUsable (s.unitTarget d.hbmSide 0) = true) :
    exec (.dmaTransferStart io ch) s = .next (s.startDesc io ch d) := by
  have hmay : ¬(s.thermal.active = true ∨ (!s.ioUsable io) = true ∨ (!(s.descGone d || s.targetUsable (s.unitTarget d.hbmSide 0))) = true) := by
    simp only [hactive, hio, Bool.not_eq_true', Bool.or_eq_false_iff]
    rintro (h | h | ⟨h1, h2⟩)
    · cases h
    · cases h
    · rcases hstack with h | h
      · cases h1.symm.trans h
      · cases h2.symm.trans h
  show execDmaTransferStart io ch s = _
  unfold execDmaTransferStart
  simp only [hidle, hqueue, if_neg hmay]

/-- A transfer whose stack is retired starts with ERR 0x04, and moves nothing. -/
theorem State.startDesc_gone (h : s.descGone d = true) :
    s.startDesc io ch d = s.modChannel io ch (·.begun { desc := d, started := s.now, elem := (s.channel io ch).elem, err := 4 }) := by
  unfold State.startDesc
  extract_lets c r put
  exact if_pos h

/-- `t` differs from `s` in the arbiters, the error records, the log and the running step's failures alone. -/
def StartOnly (s t : State) : Prop := ∃ u, ArbitersOnly s u ∧ FailuresOnly u t

/-- The packets that a transfer sends as it starts: a data row for each destination unit from HBM, or else a request for each source row. -/
def Desc.sends (d : Desc) (r : Running) : Nat :=
  if d.fromHbm then r.left else unitsFor d.sfmt d.count + (if d.ssc then scaleUnits d.count else 0)

/-- A transfer whose stack is served begins, and sends its packets. -/
theorem State.startDesc_served (h : s.descGone d = false) :
    ∃ u r ps, StartOnly s u ∧ s.startDesc io ch d = (u.modChannel io ch (·.begun r)).inject ps ∧ r.desc = d ∧ r.elem = (s.channel io ch).elem ∧
      ps.length = d.sends r := by
  unfold State.startDesc
  extract_lets c r put s1 m s2
  have h1 : ArbitersOnly s s1 := by
    unfold s1
    split
    · exact s.request_arbitersOnly _ _
    · exact ⟨_, rfl⟩
  rw [if_neg (by simp [h])]
  unfold Desc.sends
  split
  · have h2 : FailuresOnly s1 s2 := .forEach s1 fun t u => u.consumePoison_failuresOnly _ _ t
    exact ⟨s2, { r.took m with left := m.units.length + m.scales.length }, _, ⟨s1, h1, h2⟩, rfl, rfl, rfl, by simp [State.dataRows]⟩
  · refine ⟨s1, r, s.readRequests io ch d, ⟨s1, h1, .refl s1⟩, rfl, rfl, rfl, ?_⟩
    cases hssc : d.ssc <;> simp [State.readRequests, hssc]

namespace StartOnly

variable {t : State} (h : StartOnly s t)
include h

theorem mem : t.mem = s.mem := by obtain ⟨_, ⟨_, rfl⟩, h⟩ := h; exact h.mem
theorem cores : t.cores = s.cores := by obtain ⟨_, ⟨_, rfl⟩, h⟩ := h; exact h.cores
theorem packets : t.fabric.packets = s.fabric.packets := by obtain ⟨_, ⟨_, rfl⟩, h⟩ := h; rw [h.fabric]
theorem channel (io ch : Nat) : t.channel io ch = s.channel io ch := by
  obtain ⟨_, ⟨_, rfl⟩, h⟩ := h
  unfold State.channel State.ioDie
  rw [h.ioDies]

end StartOnly

/-- A channel has begun its first transfer, and of the rest only what a start may change has changed. -/
theorem StartOnly.begins {u : State} {r : Running} {rest : List Desc} (h : StartOnly s u) (ps : List Packet) (hqueue : (s.channel io ch).queue = d :: rest)
    (hdesc : r.desc = d) :
    let t := (u.modChannel io ch (·.begun r)).inject ps
    (t.channel io ch).running = some r ∧ (t.channel io ch).queue = rest ∧ (t.channel io ch).elem = ((s.channel io ch).elem + d.count) % 2 ^ 32 ∧
      t.mem = s.mem ∧ t.cores = s.cores ∧ t.fabric.packets.length = s.fabric.packets.length + ps.length := by
  intro t
  have hch : t.channel io ch = (s.channel io ch).begun r := by
    rw [← h.channel]
    exact u.channel_modChannel_same io ch (·.begun r)
  rw [hch]
  refine ⟨rfl, ?_, by rw [← hdesc]; rfl, h.mem, h.cores, ?_⟩
  · rw [Channel.begun, hqueue]
    rfl
  · rw [State.inject_packets, List.length_append, State.length_entering]
    exact congrArg (·.length + ps.length) h.packets

/-! ### The completion of a transfer (R240, R241, R243) -/

variable {r : Running}

/-- A transfer that has moved everything writes its HBM units and sends its completion packets. -/
theorem exec_dmaTransferComplete (hrun : (s.channel io ch).running = some r) (hmoved : s.moved io ch r = true) (hactive : s.thermal.active = false)
    (hio : s.ioUsable io = true) (hstack : s.descGone r.desc = true ∨ s.targetUsable (s.unitTarget r.desc.hbmSide 0) = true) :
    let w := s.writeHbm io ch r
    exec (.dmaTransferComplete io ch) s =
      .next ((w.2.modChannel io ch (fun c => { c with running := none })).inject (w.2.completionPackets io ch w.1)) := by
  have hmay : s.moved io ch r = true ∧ (!s.thermal.active) = true ∧ s.ioUsable io = true ∧
      (s.descGone r.desc = true ∨ s.targetUsable (s.unitTarget r.desc.hbmSide 0) = true) := ⟨hmoved, by simp [hactive], hio, hstack⟩
  show execDmaTransferComplete io ch s = _
  unfold execDmaTransferComplete
  simp only [hrun, if_pos hmay]

/-- Whether a transfer writes no HBM unit as it completes. -/
def Running.still (r : Running) : Prop := r.desc.fromHbm = true ∨ r.err = 3 ∨ r.err = 4

/-- What a transfer from row memory has made of the rows that it has read. -/
def State.madeOf (s : State) (io ch : Nat) (r : Running) : Moved :=
  let d := r.desc
  let row := fun i => tget ([], false) r.rows i
  let n := unitsFor d.sfmt d.count
  s.convertUnits (channelCode io ch) d r.elem ((List.range n).map row) (if d.ssc then (List.range (scaleUnits d.count)).map (fun i => row (n + i)) else [])

/-- Writes unit `u.2` from an address on, where it may be used. -/
def State.putUnit (a : Nat) (u : (List Byte × Bool) × Nat) (s : State) : State :=
  if s.targetUsable (s.unitTarget a u.2) then s.writeRow (s.cellAddr (s.unitTarget a u.2)) u.1.1 u.1.2 else s

/-- The address and bytes that `State.putUnit` writes, if any. -/
def State.unitPut (s : State) (a : Nat) (u : (List Byte × Bool) × Nat) : Option (Nat × List Byte) :=
  if s.targetUsable (s.unitTarget a u.2) then some (s.cellAddr (s.unitTarget a u.2), u.1.1) else none

/-- Writes consecutive units from an address on. -/
def State.putUnits (s : State) (a : Nat) (us : List (List Byte × Bool)) : State := forEach (us.zip (List.range us.length)) (State.putUnit a) s

theorem State.writeHbm_still (h : r.still) : s.writeHbm io ch r = (r, s) := by
  unfold State.writeHbm
  exact if_pos h

theorem State.writeHbm_moved (h : ¬r.still) :
    s.writeHbm io ch r = (r.took (s.madeOf io ch r), (s.putUnits r.desc.dst (s.madeOf io ch r).units).putUnits r.desc.scale (s.madeOf io ch r).scales) := by
  unfold State.writeHbm
  exact if_neg h

/-- Memory after whole units have been written to it. -/
def writeUnits (m : List Host.Cell) (us : List (Nat × List Byte)) : List Host.Cell := us.foldl (fun b u => writeBytes b u.1 (fitBytes 512 u.2)) m

/-- The state with other memory and poison marks. -/
def State.withMem (s : State) (m : List Host.Cell) (q : List Nat) : State := { s with mem := m, poison := q }

/-- Where a unit goes depends on no memory. -/
theorem State.putUnit_withMem (s : State) (a : Nat) (u : (List Byte × Bool) × Nat) (m : List Host.Cell) (q : List Nat) :
    ∃ q', (s.withMem m q).putUnit a u = s.withMem (writeUnits m (s.unitPut a u).toList) q' := by
  have hput : (s.withMem m q).putUnit a u =
      if s.targetUsable (s.unitTarget a u.2) then (s.withMem m q).writeRow (s.cellAddr (s.unitTarget a u.2)) u.1.1 u.1.2 else s.withMem m q := rfl
  rw [hput]
  unfold State.unitPut
  split
  · exact ⟨_, rfl⟩
  · exact ⟨q, rfl⟩

/-- Units are written each to its place, first to last; but for their poison marks nothing else changes. -/
theorem forEach_putUnit (s : State) (a : Nat) (us : List ((List Byte × Bool) × Nat)) (m : List Host.Cell) (q : List Nat) :
    ∃ q', forEach us (State.putUnit a) (s.withMem m q) = s.withMem (writeUnits m (us.filterMap (s.unitPut a))) q' := by
  induction us generalizing m q with
  | nil => exact ⟨q, rfl⟩
  | cons u us ih =>
    obtain ⟨q1, h1⟩ := s.putUnit_withMem a u m q
    obtain ⟨q2, h2⟩ := ih (writeUnits m (s.unitPut a u).toList) q1
    refine ⟨q2, ?_⟩
    rw [forEach_cons, h1, h2]
    cases hput : s.unitPut a u <;> simp [hput, writeUnits]

/-- The addresses and bytes of consecutive units from an address on that may be used. -/
def State.unitPuts (s : State) (a : Nat) (us : List (List Byte × Bool)) : List (Nat × List Byte) :=
  ((List.range us.length).zip us).filterMap (fun u =>
    if s.targetUsable (s.unitTarget a u.1) then some (s.cellAddr (s.unitTarget a u.1), u.2.1) else none)

theorem State.putUnits_withMem (s : State) (a : Nat) (us : List (List Byte × Bool)) (m : List Host.Cell) (q : List Nat) :
    ∃ q', (s.withMem m q).putUnits a us = s.withMem (writeUnits m (s.unitPuts a us)) q' := by
  have hswap : (List.range us.length).zip us = (us.zip (List.range us.length)).map Prod.swap := (List.zip_swap _ _).symm
  have hputs : s.unitPuts a us = (us.zip (List.range us.length)).filterMap (s.unitPut a) := by
    rw [State.unitPuts, hswap, List.filterMap_map]
    rfl
  rw [hputs]
  exact forEach_putUnit s a _ m q

/-- A transfer to HBM writes its units from DST on and its block scales from SCALE on. -/
theorem State.putUnits_twice (s : State) (a b : Nat) (us vs : List (List Byte × Bool)) :
    ∃ q, (s.putUnits a us).putUnits b vs = s.withMem (writeUnits s.mem (s.unitPuts a us ++ s.unitPuts b vs)) q := by
  obtain ⟨q1, h1⟩ := s.putUnits_withMem a us s.mem s.poison
  obtain ⟨q2, h2⟩ := s.putUnits_withMem b vs (writeUnits s.mem (s.unitPuts a us)) q1
  refine ⟨q2, ?_⟩
  rw [show s.putUnits a us = _ from h1, h2, writeUnits, writeUnits, writeUnits, List.foldl_append]

/-- The packets of a completion: the row if it is asked for, and the increment if it is (R243). -/
theorem State.completionPackets_has (s : State) (io ch : Nat) (r : Running) :
    (r.desc.cw = true → ∃ p ∈ s.completionPackets io ch r, p.typ = 0 ∧ p.payload = completionRow r) ∧
      (r.desc.notify = true → ∃ p ∈ s.completionPackets io ch r, p.typ = 1 ∧ p.dctr = r.desc.ctr ∧ p.last = true) ∧
      (s.completionPackets io ch r).length = bit r.desc.cw + bit r.desc.notify := by
  unfold State.completionPackets
  extract_lets d _ base f
  have hbase : base.typ = 0 := rfl
  change (d.cw = true → _) ∧ (d.notify = true → _) ∧ _ = bit d.cw + bit d.notify
  cases d.cw <;> cases d.notify <;> simp [bit, hbase, d]

/-- What the completion of a transfer leaves, its units written. -/
theorem State.completed_leaves (s : State) (io ch : Nat) (r : Running) (m : List Host.Cell) (q : List Nat) :
    let u := s.withMem m q
    let t := (u.modChannel io ch (fun c => { c with running := none })).inject (u.completionPackets io ch r)
    ∃ ps, (t.channel io ch).running = none ∧ (t.channel io ch).queue = (s.channel io ch).queue ∧ t.mem = m ∧ t.cores = s.cores ∧
      t.fabric.packets = s.fabric.packets ++ ps ∧ (r.desc.cw = true → ∃ p ∈ ps, p.typ = 0 ∧ p.payload = completionRow r) ∧
      (r.desc.notify = true → ∃ p ∈ ps, p.typ = 1 ∧ p.dctr = r.desc.ctr ∧ p.last = true) ∧ ps.length = bit r.desc.cw + bit r.desc.notify := by
  intro u t
  obtain ⟨hrow, hnotify, hlen⟩ := u.completionPackets_has io ch r
  have hch : t.channel io ch = _ := u.channel_modChannel_same io ch (fun c => { c with running := none })
  refine ⟨_, congrArg Channel.running hch, (congrArg Channel.queue hch).trans rfl, rfl, rfl, rfl, fun h => ?_, fun h => ?_, ?_⟩
  · obtain ⟨p, hp, htyp0, hpayload⟩ := hrow h
    obtain ⟨k, hk⟩ := State.entered_mem_entering _ _ hp (by omega)
    exact ⟨_, hk, htyp0, hpayload⟩
  · obtain ⟨p, hp, htyp1, hctr, hlast⟩ := hnotify h
    obtain ⟨k, hk⟩ := State.entered_mem_entering _ _ hp (by omega)
    exact ⟨_, hk, htyp1, hctr, hlast⟩
  · rw [State.length_entering, hlen]

end

/-! ### The statement -/

/-- Settles O48: a launch row's answers are those of `exec_dmaLaunch_accepted` and its fellows, a start is `State.startDesc` by its source, and a completion is
`exec_dmaTransferComplete` with the units of `State.writeHbm` and the packets of `State.completionPackets_has`. -/
theorem plannedTransfers : Obligations.PlannedTransfers := by
  unfold Obligations.PlannedTransfers
  refine ⟨fun i s p => ?_, fun io ch s d rest _ _ hidle hqueue hactive hio hstack => ?_, fun io ch s r _ _ hrun hmoved hactive hio hstack => ?_⟩
  · intro io ch hp hready htyp hplace hplace' haddr hio
    have hat : s.LaunchAt i p := ⟨hp, hready, htyp, hplace, hplace', haddr, hio⟩
    refine ⟨fun hok => ?_, fun k hbad => ?_⟩
    · have hch := (s.dropPacket i).channel_modChannel_same io ch (fun c => { c with queue := c.queue ++ launchSlots p.core p.payload })
      exact ⟨_, _, exec_dmaLaunch_accepted hat hok, congrArg Channel.queue hch, (congrArg Channel.running hch).trans rfl, rfl, rfl,
        State.inject_answer (q := replyTo p 5 [] false none) rfl (show (5 : Nat) ≠ 7 by decide), rfl, rfl, rfl⟩
    · have hanswer : ∀ u : State, u.fabric = (s.dropPacket i).fabric → (u.inject [replyTo p 6 [] false (some k)]).fabric.packets =
          s.fabric.packets.eraseIdx i ++ [(replyTo p 6 [] false (some k)).entered u.fabric.nextUid] := fun u hu =>
        State.inject_answer (by rw [hu]; rfl) (show (6 : Nat) ≠ 7 by decide)
      by_cases hk : k = .protection
      · subst hk
        obtain ⟨hmem, hfabric⟩ := (s.dropPacket i).senderFault_keeps p .protection
        exact ⟨_, _, exec_dmaLaunch_protection hat hbad, State.senderFault_ioDies _ _ _, hmem, fun h => absurd rfl h,
          fun _ hcore => (s.dropPacket i).senderFault_faulted hcore .protection, hanswer _ hfabric, rfl, rfl, rfl, rfl⟩
      · exact ⟨_, _, exec_dmaLaunch_refused hat hbad hk, rfl, rfl, fun _ => rfl, fun h => absurd h hk, hanswer _ rfl, rfl, rfl, rfl, rfl⟩
  · have hexec := exec_dmaTransferStart hidle hqueue hactive hio hstack
    cases hgone : s.descGone d with
    | true =>
      have hch := s.channel_modChannel_same io ch (·.begun { desc := d, started := s.now, elem := (s.channel io ch).elem, err := 4 })
      refine ⟨_, _, hexec.trans (congrArg Host.Outcome.next (State.startDesc_gone hgone)), congrArg Channel.running hch, rfl, rfl,
        (congrArg Channel.queue hch).trans ?_, congrArg Channel.elem hch, rfl, rfl, fun _ => ⟨rfl, rfl⟩, fun h => by cases h⟩
      rw [Channel.begun, hqueue]
      rfl
    | false =>
      obtain ⟨u, r, ps, hu, hstart, hdesc, helem, hlen⟩ := State.startDesc_served (io := io) (ch := ch) hgone
      obtain ⟨hrunning, hrest, hnext, hmem, hcores, hpackets⟩ := hu.begins (io := io) (ch := ch) ps hqueue hdesc
      exact ⟨_, r, hexec.trans (congrArg Host.Outcome.next hstart), hrunning, hdesc, helem, hrest, hnext, hmem, hcores, (fun h => by cases h),
        fun _ => by rw [← Desc.sends, ← hlen]; exact hpackets⟩
  · intro d row still n m put
    have hexec := exec_dmaTransferComplete hrun hmoved hactive hio hstack
    by_cases hs : r.still
    · rw [State.writeHbm_still hs] at hexec
      obtain ⟨ps, hrunning, hqueue, hmem, hcores, hpackets, hrow, hnotify, hlen⟩ := s.completed_leaves io ch r s.mem s.poison
      exact ⟨_, ps, hexec, hrunning, hqueue, fun _ => hmem, fun h => absurd hs h, hcores, hpackets, fun _ => hrow, fun h => absurd hs h, hnotify, hlen⟩
    · rw [State.writeHbm_moved hs] at hexec
      obtain ⟨q, hq⟩ := s.putUnits_twice r.desc.dst r.desc.scale (s.madeOf io ch r).units (s.madeOf io ch r).scales
      obtain ⟨ps, hrunning, hqueue, hmem, hcores, hpackets, hrow, hnotify, hlen⟩ := s.completed_leaves io ch (r.took (s.madeOf io ch r)) _ q
      dsimp only at hexec
      rw [hq] at hexec
      exact ⟨_, ps, hexec, hrunning, hqueue, fun h => absurd h hs, fun _ => hmem, hcores, hpackets, fun h => absurd h hs, fun _ => hrow, hnotify, hlen⟩

end Sys2Proof.Machine
end

section
/-! PROOF. Sensors, stacks, flow, and the thermal controller's updates (13 R434 to R442; 06 R251). -/

namespace Sys2Proof.Machine

/-! ### Notices and the watch for the response's end (R443, R447) -/

/-- `t` differs from `s` in the log, the thermal notices given this second and the watch for the response's end alone. -/
def ThermalNoted (s t : State) : Prop := ∃ n e l, t = { s with thermal := { s.thermal with noticed := n, exitFrom := e }, log := l }

namespace ThermalNoted

variable {s t u : State}

theorem refl (s : State) : ThermalNoted s s := ⟨_, _, _, rfl⟩

theorem trans (h : ThermalNoted s t) (h' : ThermalNoted t u) : ThermalNoted s u := by
  obtain ⟨_, _, _, rfl⟩ := h
  obtain ⟨_, _, _, rfl⟩ := h'
  exact ⟨_, _, _, rfl⟩

end ThermalNoted

theorem State.thermalNotice_noted (s : State) (reason unit value : Nat) : ThermalNoted s (s.thermalNotice reason unit value) := by
  unfold State.thermalNotice
  split
  · exact .refl s
  · obtain ⟨l, hl⟩ := State.event_eq { s with thermal := { s.thermal with noticed := reason :: s.thermal.noticed } } 0xE003
      (reason + s.power.profile * 2 ^ 8 + unit * 2 ^ 16 + value % 2 ^ 16 * 2 ^ 48) false
    rw [hl]
    exact ⟨_, _, _, rfl⟩

/-- A notice given on a condition. -/
theorem State.thermalNoticeIf_noted (s : State) (c : Prop) [Decidable c] (reason unit value : Nat) :
    ThermalNoted s (if c then s.thermalNotice reason unit value else s) := by
  split
  · exact s.thermalNotice_noted _ _ _
  · exact .refl s

theorem State.watchExit_noted (s : State) : ThermalNoted s s.watchExit := by
  unfold State.watchExit
  split
  · exact ⟨_, _, _, rfl⟩
  · exact .refl s

/-! ### Sensors (R434, R436) -/

section

variable {n : Nat} {a b : Int} {s : State}

/-- A pair without fault whose two readings are valid and no more than 6 °C apart stays without fault, and none is substituted. -/
theorem Pair.sampled_good {p : Pair} (now : Nat) (hfault : p.fault = false) (hsub : p.substituted = false) (hclose : a - b ≤ deg 6 ∧ b - a ≤ deg 6) :
    (p.sampled now (some a) (some b)).fault = false ∧ (p.sampled now (some a) (some b)).substituted = false := by
  have hdiffer : ¬(a - b > deg 6 ∨ b - a > deg 6) := by omega
  unfold Pair.sampled
  simp [hdiffer, hfault, hsub]

/-- With both readings valid and no fault the higher governs (R436). -/
theorem Pair.govern_good {p : Pair} (hfault : p.fault = false) (ha : p.primary = some a) (hb : p.secondary = some b) : p.govern = max a b := by
  unfold Pair.govern
  simp [hfault, ha, hb]

/-- A good sample of a pair writes that pair, and of the rest only what follows the highest cluster reading. -/
theorem State.samplePair_good (ha : validIn (-20) 150 a = some a) (hb : validIn (-20) 150 b = some b) (hfault : (s.pair n).fault = false)
    (hsub : (s.pair n).substituted = false) (hclose : a - b ≤ deg 6 ∧ b - a ≤ deg 6) :
    ∃ q, q.governed = max a b ∧ q.fault = false ∧ (s.samplePair n a b).thermal.pairs = (s.setPair n q).thermal.pairs := by
  obtain ⟨hq, hqs⟩ := Pair.sampled_good (p := s.pair n) s.now hfault hsub hclose
  unfold State.samplePair
  rw [ha, hb]
  extract_lets p q g q1 s1 s2 s3
  have hg : g = max a b := (if_neg (by rw [show q.substituted = false from hqs]; decide)).trans (Pair.govern_good hq rfl rfl)
  have hs2 : s2 = s1 := if_neg (by rw [show q1.fault = false from hq, Bool.false_and]; decide)
  have hs3 : s3 = s2 := if_neg (by rw [show q1.substituted = false from hqs, Bool.false_and]; decide)
  refine ⟨q1, hg, hq, ?_⟩
  obtain ⟨_, _, _, h⟩ := (if n < 288 then s3.noteHottest else s3).watchExit_noted
  rw [h, hs3, hs2]
  show (if n < 288 then s1.noteHottest else s1).thermal.pairs = s1.thermal.pairs
  split <;> rfl

/-- A good sample of a die's or the hub's pair. -/
theorem exec_sensorSample_pair (hn : n < 301) : exec (.sensorSample n a b) s = .next (s.samplePair n a b) := if_pos (.inl hn)

theorem exec_sensorSample_lid : exec (.sensorSample 301 a b) s = .next (s.sampleLid a b) := by
  show execSensorSample 301 a b s = _
  unfold execSensorSample
  rw [if_neg (by omega), if_pos rfl]

/-- The lid's sample gives inlet and outlet, and writes no pair. -/
theorem State.sampleLid_reads (s : State) (a b : Int) :
    (s.sampleLid a b).thermal.inlet = validIn (-10) 100 a ∧ (s.sampleLid a b).thermal.outlet = validIn (-10) 100 b ∧
      (s.sampleLid a b).thermal.pairs = s.thermal.pairs ∧ (s.sampleLid a b).mem = s.mem := by
  unfold State.sampleLid
  extract_lets i _ s1
  have hnotice : ThermalNoted s1 (if s1.inletOk then s1 else s1.inletNotice) := by
    split
    · exact .refl s1
    · exact s1.thermalNotice_noted _ _ _
  obtain ⟨_, _, _, h⟩ := hnotice.trans (State.watchExit_noted _)
  rw [h]
  exact ⟨rfl, rfl, rfl, rfl⟩

end

/-! ### What a stack's controller has found (R247, R252) -/

/-- `t` differs from `s` in the packets, the units, the flash, the log and the poison marks alone, and no poison mark is gone. -/
def FoundOnly (s t : State) : Prop :=
  ∃ f u fl l q, t = { s with fabric := f, units := u, flash := fl, log := l, poison := q } ∧ ∀ a ∈ s.poison, a ∈ q

namespace FoundOnly

variable {s t u : State}

theorem refl (s : State) : FoundOnly s s := ⟨_, _, _, _, _, rfl, fun _ h => h⟩

theorem trans (h : FoundOnly s t) (h' : FoundOnly t u) : FoundOnly s u := by
  obtain ⟨_, _, _, _, _, rfl, hq⟩ := h
  obtain ⟨_, _, _, _, _, rfl, hq'⟩ := h'
  exact ⟨_, _, _, _, _, rfl, fun a ha => hq' a (hq a ha)⟩

theorem of_recordsOnly (h : RecordsOnly s t) : FoundOnly s t := by
  obtain ⟨_, _, _, rfl⟩ := h
  exact ⟨_, _, _, _, _, rfl, fun _ h => h⟩

theorem mem (h : FoundOnly s t) : t.mem = s.mem := by obtain ⟨_, _, _, _, _, rfl, _⟩ := h; rfl
theorem fuses (h : FoundOnly s t) : t.fuses = s.fuses := by obtain ⟨_, _, _, _, _, rfl, _⟩ := h; rfl
theorem stack (h : FoundOnly s t) (k : Nat) : t.stack k = s.stack k := by obtain ⟨_, _, _, _, _, rfl, _⟩ := h; rfl

theorem isPoisoned (h : FoundOnly s t) {a : Nat} (ha : s.isPoisoned a = true) : t.isPoisoned a = true := by
  obtain ⟨_, _, _, _, _, rfl, hq⟩ := h
  exact List.contains_iff_mem.2 (hq a (List.contains_iff_mem.1 ha))

end FoundOnly

theorem State.setUnit_suspect_recordsOnly (s : State) (u source : Nat) : RecordsOnly s (s.setUnit u 4 source) := by
  unfold State.setUnit
  extract_lets e s1 s2
  split
  · exact .refl s
  · rw [if_neg (by omega)]
    exact .trans (.write s _ _ _) (State.event_recordsOnly _ _ _ _)

/-- The mark of any unit but the hub: its packets are poisoned, and it is a suspect in the records. -/
theorem State.markUnit_foundOnly (s : State) {u : Nat} (hu : u ≠ hubUnit) (code reporter : Nat) : FoundOnly s (s.markUnit u code reporter) := by
  unfold State.markUnit
  extract_lets st _ s1 s2
  have h1 : FoundOnly s s1 := ⟨_, _, _, _, _, rfl, fun _ h => h⟩
  have h2 : FoundOnly s s2 := h1.trans (.of_recordsOnly (State.addError_recordsOnly _ _))
  rw [if_neg hu]
  split
  · exact .refl s
  · split
    · exact h2
    · exact h2.trans (.trans (.of_recordsOnly (s2.setUnit_suspect_recordsOnly _ _)) ⟨_, _, _, _, _, rfl, fun _ h => h⟩)

/-- A new poison mark takes none away. -/
theorem State.markPoison_foundOnly (s : State) (a : Nat) : FoundOnly s (s.markPoison a true) :=
  ⟨_, _, _, _, _, rfl, fun _ h => mem_insertNat.2 (.inr h)⟩

/-- An error that a stack's controller reports leaves memory, the fuses and every stack; an uncorrected one of its own stack poisons its unit (log entry 110). -/
theorem State.hbmError_found (s : State) (stack : Nat) (e : Nat × Nat) :
    FoundOnly s (s.hbmError stack e) ∧
      (e.2 = 2 → (hbmPlace s.fuses.part e.1).map (·.1) = some stack → (s.hbmError stack e).isPoisoned (hbmAddr (e.1 / 512 * 512)) = true) := by
  unfold State.hbmError
  split
  · next hplace => exact ⟨.refl s, fun _ h => by simp [hplace] at h⟩
  next k pc turn hplace =>
  split
  · next hother =>
    refine ⟨.refl s, fun he h => ?_⟩
    rw [hplace] at h
    have hk : k = stack := Option.some.inj h
    omega
  · extract_lets a x s1
    have hcount : ∀ u : State, FoundOnly u (u.countEvent x false) := fun u => .of_recordsOnly (u.countEvent_recordsOnly x false)
    have hunit : x.unit ≠ hubUnit := by
      show unitId 5 stack (0x100 + pc) ≠ hubUnit
      unfold hubUnit unitId
      omega
    have hs1 : FoundOnly s s1 ∧ (e.2 = 2 → s1.isPoisoned (hbmAddr a) = true) := by
      unfold s1
      split
      · exact ⟨(s.markPoison_foundOnly _).trans (hcount _),
          fun _ => (hcount _).isPoisoned (List.contains_iff_mem.2 (mem_insertNat.2 (.inl rfl)))⟩
      · next he => exact ⟨hcount s, fun h => absurd h he⟩
    have hrest : ∀ u, FoundOnly s1 u → FoundOnly s u ∧
        (e.2 = 2 → (hbmPlace s.fuses.part e.1).map (·.1) = some stack → u.isPoisoned (hbmAddr a) = true) := fun u hu =>
      ⟨hs1.1.trans hu, fun he _ => hu.isPoisoned (hs1.2 he)⟩
    split
    · exact hrest _ (.trans (.of_recordsOnly (s1.addError_recordsOnly _)) (State.markUnit_foundOnly _ hunit _ _))
    · exact hrest _ (.refl s1)

/-- The state with all that a stack's controller has found taken in. -/
def State.hbmErrors (s : State) (stack : Nat) (es : List (Nat × Nat)) : State := forEach es (fun e s => s.hbmError stack e) s

theorem State.hbmErrors_foundOnly (s : State) (stack : Nat) (es : List (Nat × Nat)) : FoundOnly s (s.hbmErrors stack es) :=
  forEach_holds (FoundOnly s) es _ s (.refl s) fun e t ht => ht.trans (t.hbmError_found stack e).1

/-- Each uncorrected finding of the stack has poisoned its unit. -/
theorem State.hbmErrors_poison {s : State} {stack : Nat} {es : List (Nat × Nat)} {e : Nat × Nat} (he : e ∈ es) (hbad : e.2 = 2)
    (hplace : (hbmPlace s.fuses.part e.1).map (·.1) = some stack) : (s.hbmErrors stack es).isPoisoned (hbmAddr (e.1 / 512 * 512)) = true := by
  have hall : (s.hbmErrors stack es).fuses = s.fuses → (s.hbmErrors stack es).isPoisoned (hbmAddr (e.1 / 512 * 512)) = true := by
    refine forEach_establishes (fun t => t.fuses = s.fuses → t.isPoisoned (hbmAddr (e.1 / 512 * 512)) = true) _ s he (fun t ht => ?_) (fun y t ih ht => ?_)
    · exact (t.hbmError_found stack e).2 hbad (by rw [← (t.hbmError_found stack e).1.fuses, ht]; exact hplace)
    · exact (t.hbmError_found stack y).1.isPoisoned (ih ((t.hbmError_found stack y).1.fuses.symm.trans ht))
  exact hall (s.hbmErrors_foundOnly stack es).fuses

/-! ### The stacks' temperatures (R251) -/

/-- Whether a stack refreshes at double rate after a reading: from above 85 °C until 82 °C. -/
def doubledAt (r : Int) (before : Bool) : Bool := if r > deg 85 then true else if r ≤ deg 82 then false else before

/-- A valid reading of a stack. -/
theorem exec_hbmTemperatureRead_valid {k : Nat} {r : Int} (es : List (Nat × Nat)) {s : State} (hpart : (partStacks s.fuses.part).contains k = true)
    (hvalid : validIn (-20) 125 r = some r) :
    ∃ t x, exec (.hbmTemperatureRead k r es) s = .next t ∧ ThermalNoted ((s.hbmErrors k es).setStack k x) t ∧ x.temp = r ∧ x.valid = true ∧
      x.doubled = doubledAt r (s.stack k).doubled := by
  have hin : ¬(!(partStacks s.fuses.part).contains k) = true := by rw [hpart]; decide
  have hexec : exec (.hbmTemperatureRead k r es) s = execHbmTemperatureRead k r es s := rfl
  rw [hexec]
  unfold execHbmTemperatureRead
  rw [if_neg hin, hvalid]
  extract_lets u x v since taken dbl x1 s1
  refine ⟨_, x1, rfl, .trans ?_ (State.watchExit_noted _), rfl, rfl, ?_⟩
  · exact s1.thermalNoticeIf_noted _ _ _ _
  · show dbl = _
    rw [← (s.hbmErrors_foundOnly k es).stack k]
    rfl

end Sys2Proof.Machine
end

section
/-! PROOF. The thermal controller's updates and seconds, coolant loss and the hard limit (13 R435, R439, R444 to R449; Table 13.2). -/

namespace Sys2Proof.Machine

/-! ### The thermal demand (R439, R440) -/

/-- A hot unit's step of the demand: F / 16 up, no further than 32 bits hold. -/
def State.tdRaised (s : State) : Nat := min (2 ^ 32 - 1) (s.thermal.td + s.frameTicks / 16)

/-- An update of the demand takes its time, and raises it while a cluster has been hot throughout. -/
theorem exec_thermalDemandUpdate (s : State) :
    ∃ t, exec .thermalDemandUpdate s = .next t ∧ t.thermal.tdAt = s.tdTime ∧ t.mem = s.mem ∧
      (∀ ci ∈ s.clusters_, hotThroughout s.tdTime (s.pair ci).hotSince = true → t.thermal.td = s.tdRaised) := by
  have hexec : exec .thermalDemandUpdate s = execThermalDemandUpdate s := rfl
  rw [hexec]
  unfold execThermalDemandUpdate
  extract_lets t s0 ks st hot cool step old td ex pend s1 _ _ s2 s3 s4 s5
  have h1 : ∃ ps, s1 = { s0 with thermal := { s0.thermal with pairs := ps } } :=
    forEach_holds (fun u => ∃ ps, u = { s0 with thermal := { s0.thermal with pairs := ps } }) ks _ s0 ⟨_, rfl⟩ fun k u ⟨_, hu⟩ => by
      rw [hu]
      exact ⟨_, rfl⟩
  have hnoted : ThermalNoted s2 s5 :=
    ((s2.thermalNoticeIf_noted _ 2 0 0).trans (s3.thermalNoticeIf_noted _ 3 0 0)).trans (s4.thermalNoticeIf_noted _ 11 0 0)
  have hmem : s2.mem = s.mem := by
    obtain ⟨ps, h⟩ := h1
    show s1.mem = s.mem
    rw [h]
    rfl
  have htd : ∀ ci ∈ s.clusters_, hotThroughout s.tdTime (s.pair ci).hotSince = true → td = s.tdRaised := fun ci hci hhot =>
    if_pos (Bool.or_eq_true_iff.2 (.inl (List.any_eq_true.2 ⟨ci, List.mem_append_left _ hci, hhot⟩)))
  obtain ⟨n, e, l, h5⟩ := hnoted
  obtain ⟨c, hc⟩ := s5.requestStretch_clock
  refine ⟨_, rfl, ?_⟩
  rw [hc, h5]
  exact ⟨rfl, hmem, htd⟩

/-! ### A second's flow (R435) -/

/-- A second's end gives the flow of its pulses, which are counted afresh. -/
theorem exec_thermalSecond (s : State) :
    ∃ t, exec .thermalSecond s = .next t ∧ t.thermal.flow = 600 * s.thermal.pulses ∧ t.thermal.pulses = 0 ∧ t.thermal.lastSecond = s.thermalEnd ∧
      t.mem = s.mem := by
  have hexec : exec .thermalSecond s = execThermalSecond s := rfl
  rw [hexec]
  unfold execThermalSecond
  extract_lets t s0 h n bad inSum inN rail pin ths ths theta cap flow _ s1 s2 s3 s4 s5
  clear_value theta cap ths
  have h3 : ThermalNoted s2 s3 := by
    unfold s3
    split
    · exact .refl s2
    · exact s2.thermalNotice_noted _ _ _
  have h4 : ThermalNoted s3 s4 := by
    unfold s4
    split
    · exact s3.thermalNoticeIf_noted _ _ _ _
    · exact .refl s3
  have h5 : ThermalNoted s4 s5 := by
    unfold s5
    split
    · exact s4.thermalNoticeIf_noted _ _ _ _
    · exact .refl s4
  obtain ⟨_, _, _, hnoted⟩ := ((((s1.thermalNoticeIf_noted _ 6 0 _).trans h3).trans h4).trans h5).trans s5.watchExit_noted
  refine ⟨_, rfl, ?_⟩
  rw [hnoted]
  exact ⟨rfl, rfl, rfl, rfl⟩

/-! ### What the response ends (Table 13.2) -/

/-- The clock, the pins, the clusters, the stacks and the thermal part stay, and the step runs on if it did. -/
structure KeepsResponse (s t : State) : Prop where
  clock : t.clock = s.clock
  pins : t.pins = s.pins
  clusters : t.clusters = s.clusters
  hbm : t.hbm = s.hbm
  thermal : t.thermal = s.thermal
  running : t.isRunning = s.isRunning

namespace KeepsResponse

variable {s t u : State}

theorem refl (s : State) : KeepsResponse s s := ⟨rfl, rfl, rfl, rfl, rfl, rfl⟩

theorem trans (h : KeepsResponse s t) (h' : KeepsResponse t u) : KeepsResponse s u :=
  ⟨h'.clock.trans h.clock, h'.pins.trans h.pins, h'.clusters.trans h.clusters, h'.hbm.trans h.hbm, h'.thermal.trans h.thermal,
    h'.running.trans h.running⟩

theorem of_failuresOnly (h : FailuresOnly s t) : KeepsResponse s t := by
  obtain ⟨_, _, _, _, _, _, rfl⟩ := h
  exact ⟨rfl, rfl, rfl, rfl, rfl, rfl⟩

theorem forEach {β : Type} {xs : List β} {f : β → State → State} (s : State) (h : ∀ x t, KeepsResponse t (f x t)) : KeepsResponse s (forEach xs f s) :=
  forEach_holds (KeepsResponse s) xs f s (.refl s) fun x t ht => ht.trans (h x t)

end KeepsResponse

theorem State.failWith_keepsResponse (s : State) (e : ErrIn) (detail : Nat) : KeepsResponse s (s.failWith e detail) := by
  unfold State.failWith
  split
  · exact .of_failuresOnly ((s.addError_failuresOnly _).trans (State.failStep_failuresOnly _ _ _ _ _))
  · exact .refl s

theorem State.endXfer_keepsResponse (s : State) (x : Xfer) : KeepsResponse s (s.endXfer x) := by
  unfold State.endXfer State.endStepXfer
  extract_lets _ s1
  have h1 : KeepsResponse s s1 := ⟨rfl, rfl, rfl, rfl, rfl, rfl⟩
  split
  · split
    · split
      · exact h1.trans (s1.failWith_keepsResponse _ _)
      · exact h1
    · exact ⟨rfl, rfl, rfl, rfl, rfl, rfl⟩
  · exact ⟨rfl, rfl, rfl, rfl, rfl, rfl⟩

theorem State.abortXfer_keepsResponse (s : State) (x : Xfer) (status err : Nat) : KeepsResponse s (s.abortXfer x status err) :=
  .trans (t := s.dropPieces x) ⟨rfl, rfl, rfl, rfl, rfl, rfl⟩ (State.endXfer_keepsResponse _ _)

theorem State.discardPlan_keepsResponse (s : State) : KeepsResponse s s.discardPlan := by
  have hrun : ({ s with plan := none, step := if s.isRunning then s.step else { s.step with state := .noPlan } } : State).isRunning = s.isRunning := by
    cases h : s.isRunning with
    | true => exact h
    | false => rfl
  unfold State.discardPlan
  dsimp only
  split
  · exact ⟨rfl, rfl, rfl, rfl, rfl, hrun⟩
  · exact ⟨rfl, rfl, rfl, rfl, rfl, hrun⟩

theorem State.stopLoad_keepsResponse (s : State) : KeepsResponse s s.stopLoad := by
  unfold State.stopLoad
  split
  · exact .refl s
  · refine .trans (t := State.discardPlan _) (.trans (s := s) ?_ (State.discardPlan_keepsResponse _)) ⟨rfl, rfl, rfl, rfl, rfl, rfl⟩
    exact ⟨rfl, rfl, rfl, rfl, rfl, rfl⟩

/-! ### The response (R444, R445) -/

/-- What the response has begun: clusters held, stacks in self-refresh, and a running step failed with 0x040A; the clock and the pins stay. -/
structure Responding (s t : State) : Prop where
  active : t.thermal.active = true
  clock : t.clock = s.clock
  pins : t.pins = s.pins
  held : ∀ ci ∈ s.clusters_, (t.cluster ci).held = true
  refresh : ∀ k ∈ partStacks s.fuses.part, (t.stack k).selfRefresh = true
  failed : s.isRunning = true → ∃ f ∈ t.step.faults, f.status = 0x40A

/-- Holding clusters writes the clusters alone, and holds each of them. -/
theorem forEach_hold (cs : List Nat) (s : State) :
    let t := forEach cs (fun ci s => s.modCluster ci (fun c => { c with held := true })) s
    (∃ c, t = { s with clusters := c }) ∧ ∀ ci ∈ cs, (t.cluster ci).held = true := by
  refine ⟨forEach_holds (fun t => ∃ c, t = { s with clusters := c }) cs _ s ⟨_, rfl⟩ fun ci t ⟨_, ht⟩ => by rw [ht]; exact ⟨_, rfl⟩, fun ci hci => ?_⟩
  refine forEach_establishes (fun t => (t.cluster ci).held = true) _ s hci (fun t => ?_) (fun cj t ht => ?_)
  · rw [State.cluster_modCluster_same]
  · rw [State.modCluster, State.cluster_setCluster]
    split
    · rfl
    · exact ht

/-- Sending stacks into self-refresh writes the stacks alone, and each of them. -/
theorem forEach_selfRefresh (ks : List Nat) (s : State) :
    let t := forEach ks (fun k s => s.setStack k { s.stack k with selfRefresh := true }) s
    (∃ h, t = { s with hbm := h }) ∧ ∀ k ∈ ks, (t.stack k).selfRefresh = true := by
  refine ⟨forEach_holds (fun t => ∃ h, t = { s with hbm := h }) ks _ s ⟨_, rfl⟩ fun k t ⟨_, ht⟩ => by rw [ht]; exact ⟨_, rfl⟩, fun k hk => ?_⟩
  refine forEach_establishes (fun t => (t.stack k).selfRefresh = true) _ s hk (fun t => ?_) (fun j t ht => ?_)
  · rw [State.stack_setStack, if_pos rfl]
  · rw [State.stack_setStack]
    split
    · rfl
    · exact ht

theorem State.beginResponse_responds (s : State) (condition : Nat) : Responding s (s.beginResponse condition) := by
  unfold State.beginResponse
  extract_lets s1 s2 _ _ s3 s4 s5
  obtain ⟨⟨cs, h1⟩, hheld⟩ := forEach_hold s.clusters_ s
  obtain ⟨⟨hbm, h2⟩, hrefresh⟩ := forEach_selfRefresh (partStacks s.fuses.part) s1
  have hs1 : s1 = { s with clusters := cs } := h1
  have hs2 : s2 = { s1 with hbm := hbm } := h2
  have hevent : KeepsResponse s3 (s3.event 0xE005 0 true) := by
    obtain ⟨l, hl⟩ := s3.event_eq 0xE005 0 true
    rw [hl]
    exact ⟨rfl, rfl, rfl, rfl, rfl, rfl⟩
  have hended : KeepsResponse s3 s5.stopLoad :=
    ((hevent.trans (.of_failuresOnly (State.addError_failuresOnly _ _))).trans (.forEach s4 fun x t => t.abortXfer_keepsResponse x _ _)).trans
      s5.stopLoad_keepsResponse
  have hall := hended.trans (.of_failuresOnly (s5.stopLoad.failStep_failuresOnly s5.step.frame 0x40A 0xFFFF 0))
  have hclusters : s3.clusters = s1.clusters := by show s2.clusters = _; rw [hs2]
  have hstacks : s3.hbm = s2.hbm := rfl
  have hclock : s3.clock = s.clock := by show s2.clock = _; rw [hs2, hs1]
  have hpins : s3.pins = s.pins := by show s2.pins = _; rw [hs2, hs1]
  have hstep : s3.step = s.step := by show s2.step = _; rw [hs2, hs1]
  exact
    { active := by rw [hall.thermal]
      clock := hall.clock.trans hclock
      pins := hall.pins.trans hpins
      held := fun ci hci => by
        rw [State.cluster, hall.clusters, hclusters]
        exact hheld ci hci
      refresh := fun k hk => by
        rw [State.stack, hall.hbm, hstacks]
        exact hrefresh k hk
      failed := fun hrun => by
        have hrun3 : s3.isRunning = true := by rw [State.isRunning, hstep]; exact hrun
        rw [State.failStep_running (hended.running.trans hrun3)]
        exact ⟨_, List.mem_append_right _ (List.mem_singleton.2 rfl), rfl⟩ }

/-- With the detection armed and no response under way, 500 ms without a pulse begin the response (R444). -/
theorem exec_coolantLossDetect_flow {s : State} (harmed : s.thermal.armed = true) (hactive : s.thermal.active = false) :
    exec (.coolantLossDetect 1) s = .next ((s.advanceTo (s.thermal.lastPulse + 5 * 10 ^ 8)).beginResponse 1) := by
  show execCoolantLossDetect 1 s = _
  unfold execCoolantLossDetect
  rw [if_neg (by simp [harmed, hactive]), if_pos rfl]

/-! ### The hard limit (R448, R449) -/

section

variable {u run : Nat} {r : Int} {s : State}

/-- The panel with the shutdown record of a unit written, and PWR_SHDN_N driven low. -/
def State.shutDown (s : State) (u : Nat) (r : Int) : State :=
  { s with pins := { s.pins with shutdown := some (u, r, s.now), shdnN := false } }

/-- Two samples at the limit of an armed unit shut the panel down, and begin the response if none is under way. -/
theorem exec_hardLimit_reached (hof : s.hardRunOf u = some (r, run)) (hrun : 2 ≤ run) (hshdn : s.pins.shdnN = true) (harmed : s.hardArmed u = true) :
    exec (.hardLimit u r) s =
      .next (if (s.shutDown u r).thermal.active then s.shutDown u r else (s.shutDown u r).beginResponse 0) := by
  show execHardLimit u r s = _
  unfold execHardLimit
  rw [hof]
  exact if_pos ⟨hrun, rfl, hshdn, harmed⟩

/-- Before its stage a unit's hard limit does nothing (Table 14.8). -/
theorem exec_hardLimit_unarmed (hof : s.hardRunOf u = some (r, run)) (harmed : s.hardArmed u = false) : exec (.hardLimit u r) s = .next s := by
  show execHardLimit u r s = _
  unfold execHardLimit
  rw [hof]
  exact if_neg (by simp [harmed])

end

/-! ### The statement -/

/-- Settles O56: samples, readings, updates, seconds, the response and the hard limit, each by its law above. -/
theorem thermalControl : Obligations.ThermalControl := by
  unfold Obligations.ThermalControl
  refine ⟨fun n a b s hn ha hb hfault hsub hclose => ?_, fun a b s => ⟨_, exec_sensorSample_lid, s.sampleLid_reads a b⟩, fun k r es s hpart hvalid => ?_,
    fun s haux => ?_, fun s haux => ?_, exec_thermalDemandUpdate, exec_thermalSecond, fun s harmed hactive => ?_,
    fun u run r s hof hrun hshdn harmed => ?_, fun u run r s hof harmed => exec_hardLimit_unarmed hof harmed⟩
  · obtain ⟨q, hgoverned, hgood, hpairs⟩ := State.samplePair_good ha hb hfault hsub hclose
    have hpair : ∀ m, (s.samplePair n a b).pair m = if m = n then q else s.pair m := fun m => by
      rw [State.pair, hpairs]
      exact s.pair_setPair n q m
    refine ⟨_, exec_sensorSample_pair hn, ?_, ?_, fun m hm => ?_⟩
    · rw [hpair, if_pos rfl, hgoverned]
    · rw [hpair, if_pos rfl, hgood]
    · rw [hpair, if_neg hm]
  · obtain ⟨t, x, hexec, ⟨_, _, _, ht⟩, htemp, hok, hdoubled⟩ := exec_hbmTemperatureRead_valid es hpart hvalid
    have hstack : t.stack k = x := by
      rw [ht]
      exact ((s.hbmErrors k es).stack_setStack k x k).trans (if_pos rfl)
    refine ⟨t, hexec, by rw [hstack, htemp], by rw [hstack, hok], ?_, by rw [hstack, hdoubled]; rfl, fun e he hbad hplace => ?_⟩
    · rw [ht]
      exact (s.hbmErrors_foundOnly k es).mem
    · rw [ht]
      exact State.hbmErrors_poison he hbad hplace
  · exact if_pos (by rw [haux]; decide)
  · exact if_neg (by rw [haux]; decide)
  · have hresponse := (s.advanceTo (s.thermal.lastPulse + 5 * 10 ^ 8)).beginResponse_responds 1
    refine ⟨_, exec_coolantLossDetect_flow harmed hactive, hresponse.active, ?_, hresponse.held, hresponse.refresh, hresponse.failed⟩
    rw [State.now, hresponse.clock]
    exact Nat.le_max_right _ _
  · refine ⟨_, exec_hardLimit_reached hof hrun hshdn harmed, ?_⟩
    split
    · next hactive => exact ⟨rfl, rfl, hactive⟩
    · have hresponse := (s.shutDown u r).beginResponse_responds 0
      rw [hresponse.pins]
      exact ⟨rfl, rfl, hresponse.active⟩

end Sys2Proof.Machine
end

section
/-! PROOF. What counted events and error records leave: the event counted, the next record number, and all but the records (15 R479 to R487). -/

namespace Sys2Proof.Machine

section

variable {s t : State}

theorem RecordsOnly.poison (h : RecordsOnly s t) : t.poison = s.poison := by obtain ⟨_, _, _, rfl⟩ := h; rfl
theorem RecordsOnly.cores (h : RecordsOnly s t) : t.cores = s.cores := by obtain ⟨_, _, _, rfl⟩ := h; rfl
theorem RecordsOnly.fabric (h : RecordsOnly s t) : t.fabric = s.fabric := by obtain ⟨_, _, _, rfl⟩ := h; rfl
theorem FailuresOnly.counts (h : FailuresOnly s t) : t.units.counts = s.units.counts := by obtain ⟨_, _, _, _, _, _, rfl⟩ := h; rfl

end

/-! ### Error records -/

@[simp] theorem State.failStep_units (s : State) (frame status core detail : Nat) : (s.failStep frame status core detail).units = s.units := by
  unfold State.failStep
  split <;> rfl

@[simp] theorem State.addError_counts (s : State) (e : ErrIn) : (s.addError e).units.counts = s.units.counts := by rw [s.addError_units]

@[simp] theorem State.addLedger_counts (s : State) (unit action source detail : Nat) :
    (s.addLedger unit action source detail).units.counts = s.units.counts := by
  unfold State.addLedger
  dsimp only
  split
  · rfl
  · split
    · exact s.addError_counts _
    · rfl

/-! ### Counted events (R481, R487) -/

/-- Some event is counted at a unit address under a code. -/
def State.Counted (s : State) (unit code : Nat) : Prop := ∃ e ∈ s.units.counts, e.unit = unit ∧ e.code = code

theorem State.Counted.of_eq {s t : State} {unit code : Nat} (h : s.Counted unit code) (ht : t.units.counts = s.units.counts) : t.Counted unit code := by
  rwa [State.Counted, ht]

/-- The count entry of a unit address and code is theirs. -/
theorem State.countEntry_names (s : State) (unit code : Nat) : (s.countEntry unit code).unit = unit ∧ (s.countEntry unit code).code = code := by
  unfold State.countEntry
  split
  · next c hc =>
    have h := List.find?_some hc
    simp only [Bool.and_eq_true, beq_iff_eq] at h
    exact h.1
  · exact ⟨rfl, rfl⟩

theorem State.storeCount_counted (s : State) (c : CountEntry) : (s.storeCount c).Counted c.unit c.code :=
  ⟨c, List.mem_append_right _ (List.mem_singleton.2 rfl), rfl, rfl⟩

theorem State.countEvent_counted (s : State) (e : ErrIn) (failsStep : Bool) : (s.countEvent e failsStep).Counted e.address e.code := by
  obtain ⟨hunit, hcode⟩ := s.countEntry_names e.address e.code
  unfold State.countEvent
  extract_lets c n s1 _ s2
  have h1 : s1.Counted e.address e.code := by
    have h : s1.Counted c.unit c.code := s.storeCount_counted _
    rwa [show c.unit = e.address from hunit, show c.code = e.code from hcode] at h
  have h2 : s2.Counted e.address e.code := h1.of_eq (State.addError_counts _ _)
  split
  · split
    · exact h2.of_eq (s2.addLedger_counts _ _ _ _)
    · exact h2
  · split
    · exact h1.of_eq (s1.addError_counts _)
    · exact h1

/-- A lane's event is counted against it, and leaves records alone (R292). -/
theorem State.countLane_counted (s : State) {e : ErrIn} (hkey : e.key = none) : RecordsOnly s (s.countLane e) ∧ (s.countLane e).Counted e.unit e.code := by
  have haddress : e.address = e.unit := by rw [ErrIn.address, hkey]; rfl
  rw [← haddress]
  unfold State.countLane
  extract_lets x s1
  split
  · have h1 : s1.Counted e.address e.code := s.countEvent_counted _ _
    exact ⟨(s.countEvent_recordsOnly _ _).trans (.write s1 _ _ _), h1.of_eq rfl⟩
  · exact ⟨s.countEvent_recordsOnly _ _, s.countEvent_counted x _⟩

/-! ### Faults against a sender -/

/-- The fault that a die raises against a sender makes one error record (R215, R284). -/
theorem State.senderFault_seq (s : State) (p : Packet) (kind : CoreFaultKind) : (s.senderFault p kind).units.seq = s.units.seq + 1 := by
  unfold State.senderFault State.coreFault
  split
  · exact (congrArg Units.seq (State.failStep_units _ _ _ _ _)).trans (State.addError_seq _ _)
  · exact (congrArg Units.seq (State.failStep_units _ _ _ _ _)).trans (State.addError_seq _ _)

end Sys2Proof.Machine
end

section
/-! PROOF. Reductions: an input that is held, the last one, and one that its record does not name (07 R280 to R284). -/

namespace Sys2Proof.Machine

/-- A packet that enters the fabric keeps what it says; its number, input and flits are new. -/
theorem State.inject_as (s : State) (q : Packet) :
    ∃ n here w, (s.inject [q]).fabric.packets = s.fabric.packets ++ [{ q with uid := n, fromPort := 0, gone := 0, isLocal := here, wait := w }] := by
  rw [State.inject_packets]
  unfold State.entering State.entering
  split <;> exact ⟨_, _, _, rfl⟩

theorem State.consumeInputs_failuresOnly (s : State) (die : Nat) (ins : List RedInput) : FailuresOnly s (s.consumeInputs die ins) :=
  .forEach s fun _ t => t.poisonRead_failuresOnly _ _

/-- What a node keeps of an input from a direction. -/
def Packet.redInput (p : Packet) (dir : Nat) : RedInput :=
  { dir := dir, bytes := p.payload, drow := p.drow, dcore := p.dcore, dctr := p.dctr, poison := p.poison, core := p.core }

section

variable {i d dir : Nat} {s : State} {p : Packet} {t : RedTree}

theorem exec_reduceInputArrival (hp : s.packet i = some p) (hready : s.ready i p = true) (htyp : p.typ = 7) (hdie : s.dieAt p.place = some d)
    (hgone : s.dieGone p.place = false) : exec (.reduceInputArrival i) s = .next (s.reduceInput i d p) := by
  show execReduceInputArrival i s = _
  unfold execReduceInputArrival
  rw [hp]
  dsimp only
  rw [hdie]
  dsimp only
  rw [if_neg (by simp [hready, htyp]), hgone, if_neg (by decide)]

/-- An input at a die with no record of its reduction, or from no neighbour of the die, is discarded (R284). -/
theorem State.reduceInput_unknown (h : s.treeOf d p.routeId p.plane = none ∨ dirOf d p.src = none) :
    s.reduceInput i d p = (s.dropPacket i).senderFault p .route := by
  unfold State.reduceInput
  split
  · next htree hdir => rw [htree, hdir] at h; simp at h
  · rfl

/-- Whether a record names a direction from which no input is held. -/
def RedTree.takes (t : RedTree) (held : List RedInput) (dir : Nat) : Prop := t.inMask.testBit dir = true ∧ held.all (fun x => x.dir != dir) = true

/-- The held inputs of a reduction at a die. -/
def State.heldInputs (s : State) (d : Nat) (p : Packet) : List RedInput := tget [] s.fabric.reds (redKey d p.routeId p.plane)

/-- An input that the record does not name, or a second from one direction, is discarded (R284). -/
theorem State.reduceInput_refused (htree : s.treeOf d p.routeId p.plane = some t) (hdir : dirOf d p.src = some dir) (h : ¬t.takes (s.heldInputs d p) dir) :
    s.reduceInput i d p = (s.dropPacket i).senderFault p .route := by
  unfold State.reduceInput
  rw [htree, hdir]
  exact if_neg h

/-- An input that is not the last joins those held (R282). -/
theorem State.reduceInput_held (htree : s.treeOf d p.routeId p.plane = some t) (hdir : dirOf d p.src = some dir) (h : t.takes (s.heldInputs d p) dir)
    (hmore : (s.heldInputs d p).length + 1 ≠ t.fanin) :
    s.reduceInput i d p = { s with fabric := { s.fabric with
      packets := s.fabric.packets.eraseIdx i
      reds := tset [] s.fabric.reds (redKey d p.routeId p.plane) (s.heldInputs d p ++ [p.redInput dir]) } } := by
  unfold State.reduceInput
  rw [htree, hdir]
  exact (if_pos h).trans (if_neg (by rw [List.length_append]; exact hmore))

/-- The last input frees the entry, and what the node combined sets out (R282). -/
theorem State.reduceInput_last (htree : s.treeOf d p.routeId p.plane = some t) (hdir : dirOf d p.src = some dir) (h : t.takes (s.heldInputs d p) dir)
    (hlast : (s.heldInputs d p).length + 1 = t.fanin) :
    ∃ c, FailuresOnly (s.dropPacket i) c ∧ s.reduceInput i d p =
      State.inject { c with fabric := { c.fabric with reds := terase (redKey d p.routeId p.plane) s.fabric.reds } }
        [s.redResult d t (s.heldInputs d p ++ [p.redInput dir])] := by
  refine ⟨_, (s.dropPacket i).consumeInputs_failuresOnly d (orderInputs (s.heldInputs d p ++ [p.redInput dir])), ?_⟩
  unfold State.reduceInput
  rw [htree, hdir]
  exact (if_pos h).trans (if_pos (by rw [List.length_append]; exact hlast))

end

/-- Settles O46: an input is held, is the last, or is refused, each by its law above. -/
theorem reductionsCombine : Obligations.ReductionsCombine := by
  unfold Obligations.ReductionsCombine
  intro i d s p key held hp hready htyp hdie hgone discarded
  have hexec := exec_reduceInputArrival hp hready htyp hdie hgone
  have hdiscarded : s.reduceInput i d p = (s.dropPacket i).senderFault p .route → discarded := fun h => by
    obtain ⟨hmem, hfabric⟩ := (s.dropPacket i).senderFault_keeps p .route
    exact ⟨_, hexec.trans (congrArg Host.Outcome.next h), by rw [hfabric]; rfl, by rw [hfabric]; rfl, hmem, State.senderFault_seq _ _ _⟩
  refine ⟨fun t dir htree hdir => ⟨fun hmask hfirst => ?_, fun h => hdiscarded (State.reduceInput_refused htree hdir ?_)⟩,
    fun h => hdiscarded (State.reduceInput_unknown h)⟩
  · intro x
    refine ⟨fun hmore => hexec.trans (congrArg Host.Outcome.next (State.reduceInput_held htree hdir ⟨hmask, hfirst⟩ hmore)), fun hlast => ?_⟩
    obtain ⟨c, hc, hreduce⟩ := State.reduceInput_last (i := i) htree hdir ⟨hmask, hfirst⟩ hlast
    obtain ⟨n, here, w, hpackets⟩ := State.inject_as { c with fabric := { c.fabric with reds := terase key s.fabric.reds } } (s.redResult d t (held ++ [x]))
    refine ⟨_, { s.redResult d t (held ++ [x]) with uid := n, fromPort := 0, gone := 0, isLocal := here, wait := w },
      hexec.trans (congrArg Host.Outcome.next hreduce), hpackets.trans ?_, ?_, rfl, rfl, rfl, rfl, rfl, hc.mem, hc.cores⟩
    · show c.fabric.packets ++ _ = _
      rw [hc.fabric]
      rfl
    · exact (tget_terase [] s.fabric.reds key key).trans (if_pos rfl)
  · rintro ⟨hmask, hfirst⟩
    rcases h with h | h
    · exact Bool.false_ne_true (h.symm.trans hmask)
    · exact Bool.false_ne_true (h.symm.trans hfirst)

end Sys2Proof.Machine
end

section
/-! PROOF. A flit at a router: the packet's way on, its discard, its poison, and its sink (07 R258, R260, R261, R272, R279, R292, R293; 08 R320; 10 R387). -/

namespace Sys2Proof.Machine

/-! ### What a router's outputs count -/

/-- `t` differs from `s` in the fabric alone, which holds the same packets. -/
def OutputsOnly (s t : State) : Prop := ∃ f : Fabric, t = { s with fabric := f } ∧ f.packets = s.fabric.packets

theorem OutputsOnly.trans {s t u : State} (h : OutputsOnly s t) (h' : OutputsOnly t u) : OutputsOnly s u := by
  obtain ⟨_, rfl, hf⟩ := h
  obtain ⟨g, rfl, hg⟩ := h'
  exact ⟨g, rfl, hg.trans hf⟩

theorem OutputsOnly.forEach {β : Type} {xs : List β} {f : β → State → State} (s : State) (h : ∀ x t, OutputsOnly t (f x t)) : OutputsOnly s (forEach xs f s) :=
  forEach_holds (OutputsOnly s) xs f s ⟨_, rfl, rfl⟩ fun x t ht => ht.trans (h x t)

theorem State.countOut_outputsOnly (s : State) (p : Packet) (port x : Nat) : OutputsOnly s (s.countOut p port x) := by
  unfold State.countOut
  extract_lets k s1
  have h1 : OutputsOnly s s1 := by
    unfold s1
    split <;> exact ⟨_, rfl, rfl⟩
  exact h1.trans ⟨_, rfl, rfl⟩

theorem State.countEdge_outputsOnly (s : State) (n : Nat) (p : Packet) (flits : Nat) : OutputsOnly s (s.countEdge n p flits) := by
  unfold State.countEdge
  dsimp only
  split
  · exact ⟨_, rfl, rfl⟩
  · split
    · exact ⟨_, rfl, rfl⟩
    · split <;> exact ⟨_, rfl, rfl⟩

/-! ### A packet one branch on -/

section

variable (s : State) (p : Packet) (x : Nat) (b : Nat × Nat × Bool)

@[simp] theorem State.along_uid : (s.along p b).uid = p.uid := by unfold State.along; split <;> rfl
@[simp] theorem State.along_typ : (s.along p b).typ = p.typ := by unfold State.along; split <;> rfl
@[simp] theorem State.along_poison : (s.along p b).poison = p.poison := by unfold State.along; split <;> rfl
@[simp] theorem State.along_payload : (s.along p b).payload = p.payload := by unfold State.along; split <;> rfl

@[simp] theorem State.along_poisoned (bad : Bool) : s.along { p with poison := bad } b = { s.along p b with poison := bad } := by
  unfold State.along
  split <;> rfl

/-- A packet's way does not depend on its poison. -/
@[simp] theorem State.hops_poisoned (bad : Bool) : s.hops { p with poison := bad } = s.hops p := by
  have htree : s.treeHops { p with poison := bad } = s.treeHops p := by
    unfold State.treeHops
    simp only [State.along_poisoned]
    rfl
  unfold State.hops
  rw [htree]
  rfl

end

/-! ### What sinks (Table 7.7, R275, R320) -/

/-- Whether a packet is whole at a local output and of a type that may sink there. -/
def Packet.Sinks (p : Packet) : Prop := p.whole = true ∧ 9 ≤ p.typ ∧ p.typ ≠ 0xA

/-- Of the entries that a packet's head flit makes, only one at the local output of a packet of one flit may sink. -/
theorem State.landing_stays (s : State) {p : Packet} (x : Nat) {b : Nat × Nat × Bool} (h : b.1 ≠ 0 ∨ p.typ < 9 ∨ p.typ = 0xA ∨ 1 < p.flits) :
    ¬(s.landing p x b).Sinks := by
  rintro ⟨hwhole, hfrom, hhost⟩
  have htyp : (s.landing p x b).typ = p.typ := s.along_typ p b
  have hflits : (s.landing p x b).flits = p.flits := by
    unfold Packet.flits
    rw [show (s.landing p x b).payload = p.payload from s.along_payload p b]
  rw [htyp] at hfrom hhost
  obtain ⟨hlocal, hlength⟩ := Bool.and_eq_true_iff.1 hwhole
  rw [hflits] at hlength
  have hlength : p.flits ≤ 1 := of_decide_eq_true hlength
  rcases h with hb | htyp | htyp | hflits
  · have hlocal : (s.along p b).isLocal = true := hlocal
    rw [State.along, if_neg hb] at hlocal
    obtain ⟨hred, _⟩ := Bool.and_eq_true_iff.1 hlocal
    have hred : p.typ = 7 := eq_of_beq hred
    omega
  · omega
  · exact hhost htyp
  · omega

/-- `t` differs from `s` in the fabric, the group, the I/O dies and the ports alone. -/
def SinksOnly (s t : State) : Prop := ∃ f g ds qs, t = { s with fabric := f, group := g, ioDies := ds, ports := qs }

namespace SinksOnly

variable {s t u : State}

theorem trans (h : SinksOnly s t) (h' : SinksOnly t u) : SinksOnly s u := by
  obtain ⟨_, _, _, _, rfl⟩ := h
  obtain ⟨_, _, _, _, rfl⟩ := h'
  exact ⟨_, _, _, _, rfl⟩

theorem of_egressOnly (h : EgressOnly s t) : SinksOnly s t := by
  obtain ⟨_, _, rfl⟩ := h
  exact ⟨_, _, _, _, rfl⟩

theorem mem (h : SinksOnly s t) : t.mem = s.mem := by obtain ⟨_, _, _, _, rfl⟩ := h; rfl
theorem cores (h : SinksOnly s t) : t.cores = s.cores := by obtain ⟨_, _, _, _, rfl⟩ := h; rfl
theorem units (h : SinksOnly s t) : t.units = s.units := by obtain ⟨_, _, _, _, rfl⟩ := h; rfl

end SinksOnly

/-- `t` is `s` but for packets that have sunk and what became of them. -/
def SunkOnly (s t : State) : Prop := SinksOnly s t ∧ ∀ e ∈ s.fabric.packets, ¬e.Sinks → e ∈ t.fabric.packets

theorem SunkOnly.refl (s : State) : SunkOnly s s := ⟨⟨_, _, _, _, rfl⟩, fun _ he _ => he⟩

theorem SunkOnly.trans {s t u : State} (h : SunkOnly s t) (h' : SunkOnly t u) : SunkOnly s u :=
  ⟨h.1.trans h'.1, fun e he hstays => h'.2 e (h.2 e he hstays) hstays⟩

theorem State.answerBlock_sunkOnly (s : State) (p : Packet) : SunkOnly s (s.answerBlock p) := by
  unfold State.answerBlock
  split
  · split
    · exact .refl s
    · exact ⟨⟨_, _, _, _, rfl⟩, fun _ he _ => List.mem_append_left _ he⟩
  · exact .refl s

theorem State.queueTx_sunkOnly (s : State) (io vc : Nat) (p : Packet) : SunkOnly s (s.queueTx io vc p) := by
  have h := s.queueTx_egressOnly io vc p
  exact ⟨.of_egressOnly h, fun e he _ => by rwa [h.fabric]⟩

/-- A packet that sinks leaves the fabric; the others stay. -/
theorem State.dropPacket_sunkOnly {s : State} {i : Nat} {p : Packet} (hp : s.packet i = some p) (hsinks : p.Sinks) : SunkOnly s (s.dropPacket i) := by
  refine ⟨⟨_, _, _, _, rfl⟩, fun e he hstays => ?_⟩
  obtain ⟨j, hj⟩ := List.mem_iff_getElem?.1 he
  refine List.mem_eraseIdx_iff_getElem?.2 ⟨j, fun hji => hstays ?_, hj⟩
  rw [hji] at hj
  exact Option.some.inj (hp.symm.trans hj) ▸ hsinks

theorem State.sink_sunkOnly (s : State) (uid place : Nat) : SunkOnly s (s.sink uid place) := by
  unfold State.sink
  split
  · exact .refl s
  next i _ =>
  split
  · exact .refl s
  next p hp =>
  split
  · exact .refl s
  next hmay =>
  have hsinks : p.Sinks := by
    simp only [Bool.not_eq_true', not_or, Bool.not_eq_false, Nat.not_lt] at hmay
    exact ⟨hmay.1, hmay.2.1, hmay.2.2.1⟩
  have h0 := State.dropPacket_sunkOnly hp hsinks
  dsimp only
  split
  · split
    · exact h0.trans ⟨⟨_, _, _, _, rfl⟩, fun _ he _ => he⟩
    · exact h0.trans (State.queueTx_sunkOnly _ _ _ _)
  · split
    · exact h0.trans (State.answerBlock_sunkOnly _ _)
    · split
      · exact h0.trans (State.queueTx_sunkOnly _ _ _ _)
      · exact h0

theorem State.sinkAll_sunkOnly (s : State) (hs : List (Nat × Nat × Bool)) (p : Packet) : SunkOnly s (s.sinkAll hs p) :=
  forEach_holds (SunkOnly s) _ _ s (.refl s) fun _ t ht => ht.trans (t.sink_sunkOnly p.uid p.place)

/-- The sink finds the last packet in the fabric, where no other of its number is at a local output. -/
theorem State.entryAt_last {s : State} {ps : List Packet} {p : Packet} (hps : s.fabric.packets = ps ++ [p]) (hlocal : p.isLocal = true)
    (halone : ∀ e ∈ ps, e.uid = p.uid → e.isLocal = false) : s.entryAt p.uid p.place true = some ps.length := by
  have hnone : ps.findIdx? (fun q => q.uid == p.uid && q.place == p.place && q.isLocal == true) = none := by
    refine List.findIdx?_eq_none_iff.2 fun e he => ?_
    by_cases huid : e.uid = p.uid
    · simp [halone e he huid]
    · simp [huid]
  rw [State.entryAt, hps, List.findIdx?_append, hnone]
  simp [hlocal]

/-- What becomes of the last packet in the fabric: transit at the hub joins what it receives; transit, and management for another panel, goes into the egress
buffers of its I/O die (R260, R320). -/
theorem State.sink_last {s : State} {ps : List Packet} {p : Packet} (hps : s.fabric.packets = ps ++ [p]) (hwhole : p.whole = true)
    (halone : ∀ e ∈ ps, e.uid = p.uid → e.isLocal = false) :
    let u := s.setPackets ps
    (p.typ = 0xB → p.place = hubPlace → s.sink p.uid p.place = { u with group := { u.group with hubRx := u.group.hubRx ++ [p.bare] } }) ∧
      (p.typ = 0xB ∨ (p.typ = 9 ∧ p.src ≠ hubPlace ∧ 0x1000 ≤ p.dst) → p.place ≠ hubPlace →
        s.sink p.uid p.place = u.queueTx (p.place - 0x100) p.vc p.bare) := by
  intro u
  have hentry := State.entryAt_last hps (Bool.and_eq_true_iff.1 hwhole).1 halone
  have hpacket : s.packet ps.length = some p := by simp [State.packet, hps]
  have hdrop : s.dropPacket ps.length = u := by simp [State.dropPacket, hps, List.eraseIdx_append_of_length_le, u]
  have hblock : p.typ = 0xB ∨ p.src ≠ hubPlace → p.ofBlock = false := fun h => by
    unfold Packet.ofBlock
    rcases h with h | h
    · simp [h]
    · simp [h]
  unfold State.sink
  rw [hentry]
  dsimp only
  rw [hpacket]
  dsimp only
  rw [hdrop]
  refine ⟨fun htyp hplace => ?_, fun hkind hplace => ?_⟩
  · rw [if_neg (by simp [hwhole, htyp, hblock (.inl htyp)]), if_pos htyp, if_pos hplace]
  · have hnoblock : p.ofBlock = false := hblock (hkind.imp_right fun h => h.2.1)
    rw [if_neg (by rcases hkind with h | h <;> simp [hwhole, h, hnoblock])]
    rcases hkind with htyp | ⟨htyp, _, hdst⟩
    · rw [if_pos htyp, if_neg hplace]
    · rw [if_neg (by omega), if_neg hplace, if_pos hdst]

/-! ### A flit that leaves (R258, R261, R279) -/

/-- The packets at a place once a flit of one has left: a tail flit takes its entry away. -/
def State.leftBehind (s : State) (i : Nat) (p : Packet) : List Packet :=
  if p.flits ≤ p.gone + 1 then s.fabric.packets.eraseIdx i else s.fabric.packets.set i { p with gone := p.gone + 1, wait := p.wait.tail }

/-- An entry with the flit that joins it, if it is one of those at the branches' ends. -/
def Packet.joined (p : Packet) (ends : List Packet) (q : Packet) : Packet :=
  match ends.find? (fun e => q.uid == e.uid && q.place == e.place && q.isLocal == e.isLocal) with
  | some e => if p.gone = 0 then q else { q with wait := q.wait ++ e.wait, poison := q.poison || p.poison }
  | none => q

/-- A head flit joins nothing. -/
theorem Packet.joined_head {p : Packet} (h : p.gone = 0) (ends : List Packet) (q : Packet) : p.joined ends q = q := by
  unfold Packet.joined
  split
  · exact if_pos h
  · rfl

/-- The entry at a branch's end has one flit more once a later flit has joined it. -/
theorem Packet.joined_later {p : Packet} (h : p.gone ≠ 0) {ends : List Packet} {q e : Packet} (hends : ∀ e ∈ ends, e.wait.length = 1) (he : e ∈ ends)
    (huid : q.uid = e.uid) (hplace : q.place = e.place) (hlocal : q.isLocal = e.isLocal) :
    ∃ w b, p.joined ends q = { q with wait := w, poison := b } ∧ w.length = q.wait.length + 1 := by
  unfold Packet.joined
  split
  · next e' hfind =>
    rw [if_neg h]
    exact ⟨_, _, rfl, by rw [List.length_append, hends e' (List.mem_of_find?_eq_some hfind)]⟩
  · next hfind =>
    have hnot := List.find?_eq_none.1 hfind e he
    simp [huid, hplace, hlocal] at hnot

section

variable {s : State} {i x : Nat} {p : Packet}

/-- A flit that leaves changes the fabric alone: the packets at its place, and the entries at its branches' ends. -/
theorem State.moveFlit_moves (s : State) (i : Nat) (p : Packet) (x : Nat) :
    let ends := (s.hops p).map (s.landing p x)
    ∃ f : Fabric, s.moveFlit i p x = { s with fabric := f } ∧ f.packets = (s.leftBehind i p).map (p.joined ends) ++ (if p.gone = 0 then ends else []) := by
  intro ends
  unfold State.moveFlit
  extract_lets s1 s2 onward mine rest
  have h1 : OutputsOnly s s1 := .forEach s fun b t => t.countOut_outputsOnly p b.1 x
  have h2 : OutputsOnly s s2 := by
    unfold s2
    split
    · exact h1.trans (.forEach s1 fun b t => t.countEdge_outputsOnly _ p p.flits)
    · exact h1
  obtain ⟨f, hs2, hf⟩ := h2
  have hrest : rest = s.leftBehind i p := by
    show (if mine.gone ≥ p.flits then s2.fabric.packets.eraseIdx i else s2.fabric.packets.set i mine) = _
    rw [hs2]
    dsimp only
    rw [hf]
    rfl
  rw [hrest]
  exact ⟨_, by rw [hs2], rfl⟩

/-- A flit leaves by every branch, and what is then whole at the local output sinks. -/
def State.forward (s : State) (i : Nat) (p : Packet) (x : Nat) : State := (s.moveFlit i p x).sinkAll (s.hops p) p

theorem State.forward_sinksOnly (s : State) (i : Nat) (p : Packet) (x : Nat) : SinksOnly s (s.forward i p x) := by
  obtain ⟨f, hf, _⟩ := s.moveFlit_moves i p x
  have hmove : SinksOnly s (s.moveFlit i p x) := ⟨_, _, _, _, hf⟩
  exact hmove.trans ((s.moveFlit i p x).sinkAll_sunkOnly (s.hops p) p).1

/-- A head flit makes the packet's entry at each branch's end. -/
theorem State.forward_lands {b : Nat × Nat × Bool} (hgone : p.gone = 0) (hb : b ∈ s.hops p) (hstays : b.1 ≠ 0 ∨ p.typ < 9 ∨ p.typ = 0xA ∨ 1 < p.flits) :
    s.landing p x b ∈ (s.forward i p x).fabric.packets := by
  obtain ⟨f, hf, hpackets⟩ := s.moveFlit_moves i p x
  refine ((s.moveFlit i p x).sinkAll_sunkOnly (s.hops p) p).2 _ ?_ (s.landing_stays x hstays)
  rw [hf, hpackets, if_pos hgone]
  exact List.mem_append_right _ (List.mem_map_of_mem hb)

/-- A later flit joins the packet's entry at each branch's end. -/
theorem State.forward_joins {j : Nat} {e : Packet} {b : Nat × Nat × Bool} (hgone : p.gone ≠ 0) (hb : b ∈ s.hops p) (hj : j ≠ i)
    (he : s.packet j = some e) (hstays : e.isLocal = false ∨ e.typ < 9 ∨ e.typ = 0xA) (huid : e.uid = p.uid) (hplace : e.place = (s.along p b).place)
    (hlocal : e.isLocal = (s.along p b).isLocal) :
    ∃ f ∈ (s.forward i p x).fabric.packets, f.uid = e.uid ∧ f.place = e.place ∧ f.isLocal = e.isLocal ∧ f.wait.length = e.wait.length + 1 := by
  obtain ⟨f, hf, hpackets⟩ := s.moveFlit_moves i p x
  have hends : ∀ e ∈ (s.hops p).map (s.landing p x), e.wait.length = 1 := fun e he => by
    obtain ⟨c, _, rfl⟩ := List.mem_map.1 he
    rfl
  obtain ⟨w, bad, hjoined, hlength⟩ := Packet.joined_later hgone hends (List.mem_map_of_mem hb) (huid.trans (s.along_uid p b).symm) hplace hlocal
  have hleft : e ∈ s.leftBehind i p := by
    unfold State.leftBehind
    split
    · exact List.mem_eraseIdx_iff_getElem?.2 ⟨j, hj, he⟩
    · exact List.mem_of_getElem? ((List.getElem?_set_ne hj.symm).trans he)
  have hmoved : p.joined ((s.hops p).map (s.landing p x)) e ∈ (s.moveFlit i p x).fabric.packets := by
    rw [hf, hpackets]
    exact List.mem_append_left _ (List.mem_map_of_mem hleft)
  rw [hjoined] at hmoved
  refine ⟨_, ((s.moveFlit i p x).sinkAll_sunkOnly (s.hops p) p).2 _ hmoved ?_, rfl, rfl, rfl, hlength⟩
  rintro ⟨hwhole, hfrom, hhost⟩
  rcases hstays with h | h | h
  · exact Bool.false_ne_true (h.symm.trans (Bool.and_eq_true_iff.1 hwhole).1)
  · exact Nat.not_lt.2 hfrom h
  · exact hhost h

/-- A packet of one flit whose way ends here sinks as the last packet in the fabric. -/
theorem State.forward_sole (hflits : p.flits = 1) (hgone : p.gone = 0) (hhops : s.hops p = [(0, p.place, false)])
    (halone : ∀ e ∈ s.fabric.packets, e.uid = p.uid → e.isLocal = false) :
    ∃ f : Fabric, f.packets = s.fabric.packets.eraseIdx i ∧ let u : State := { s with fabric := f }
      (p.typ = 0xB → p.place = hubPlace → s.forward i p x = { u with group := { u.group with hubRx := u.group.hubRx ++ [p.bare] } }) ∧
        (p.typ = 0xB ∨ (p.typ = 9 ∧ p.src ≠ hubPlace ∧ 0x1000 ≤ p.dst) → p.place ≠ hubPlace →
          s.forward i p x = u.queueTx (p.place - 0x100) p.vc p.bare) := by
  obtain ⟨f, hf, hpackets⟩ := s.moveFlit_moves i p x
  have hleft : s.leftBehind i p = s.fabric.packets.eraseIdx i := if_pos (by omega)
  rw [hleft, if_pos hgone, hhops, List.map_congr_left fun q _ => p.joined_head hgone _ q, List.map_id'] at hpackets
  have hforward : s.forward i p x = State.sink { s with fabric := f } p.uid p.place := by
    unfold State.forward
    rw [hhops, hf]
    rfl
  have hwhole : (s.landing p x (0, p.place, false)).whole = true := by
    have : p.flits ≤ 1 := by omega
    exact Bool.and_eq_true_iff.2 ⟨rfl, decide_eq_true this⟩
  obtain ⟨hhub, hleaves⟩ := State.sink_last (s := { s with fabric := f }) hpackets hwhole fun e he => halone e (List.mem_of_mem_eraseIdx he)
  rw [hforward]
  exact ⟨{ f with packets := s.fabric.packets.eraseIdx i }, rfl, hhub, hleaves⟩

end

/-! ### The checks of a flit (R292, R293) -/

theorem State.enterLocal_eq (s : State) (p : Packet) (x : Nat) : ∃ ps, s.enterLocal p x = s.setPackets ps := by
  unfold State.enterLocal
  split <;> exact ⟨_, rfl⟩

theorem State.laneError_recordsOnly (s : State) (p : Packet) (lane : Option Nat) : RecordsOnly s (s.laneError p lane) := by
  unfold State.laneError
  split
  · exact .refl s
  · split
    · exact .refl s
    · exact (State.countLane_counted _ rfl).1

theorem State.laneError_counted {p : Packet} (h : p.fromPort ≠ 0) (s : State) (l : Nat) :
    (s.laneError p (some l)).Counted (chargedLane p (some l)) 0x1010 := by
  unfold State.laneError
  dsimp only
  rw [if_neg h]
  exact (State.countLane_counted _ rfl).2

theorem State.poisonPacket_recordsOnly (s : State) (i : Nat) (p : Packet) :
    RecordsOnly (s.setPackets (s.fabric.packets.set i { p with poison := true })) (s.poisonPacket i p) := State.addError_recordsOnly _ _

/-- A packet that is lost is noted where it is planned. -/
theorem State.lose_eq (s : State) (p : Packet) :
    s.lose p = { s with fabric := { s.fabric with lost := if p.planned then s.fabric.lost ++ [p] else s.fabric.lost } } := by
  unfold State.lose
  split <;> rfl

/-- A discarded header leaves the fabric, is counted against the lane charged, and loses a planned packet (R293). -/
theorem State.discardHeader_discards (s : State) (i : Nat) (p : Packet) (lane : Option Nat) :
    let t := s.discardHeader i p lane
    t.fabric.packets = s.fabric.packets.eraseIdx i ∧ t.fabric.lost = (if p.planned then s.fabric.lost ++ [p] else s.fabric.lost) ∧ t.mem = s.mem ∧
      t.cores = s.cores ∧ t.Counted (chargedLane p lane) 0x1012 := by
  unfold State.discardHeader
  obtain ⟨hrec, hcount⟩ := (s.dropPacket i).countLane_counted
    (e := { unit := chargedLane p lane, code := 0x1012, cls := 0, location := p.headNat, reporter := s.reporterAt p.place }) rfl
  dsimp only
  rw [State.lose_eq]
  exact ⟨congrArg Fabric.packets hrec.fabric, by rw [hrec.fabric]; rfl, hrec.mem, hrec.cores, hcount⟩

/-- The panel once a router has checked a flit: a corrected lane's error counted, and a bad payload's packet poisoned. -/
def State.checked (s : State) (i : Nat) (p : Packet) (fine : Bool) (lane : Option Nat) : State :=
  if fine then s.laneError p lane else (s.laneError p lane).poisonPacket i p

/-- What becomes of a checked flit: it stops before a unit that may not be used, leaves when its way is free, and else waits. -/
def State.goesOn (s : State) (i : Nat) (p q : Packet) (x : Nat) : State :=
  if !s.wayUsable p then s.setPackets (s.fabric.packets.set i { p with poison := true })
  else if s.eligible i p x then s.forward i q x else s

section

variable {s : State} {i x : Nat} {p q : Packet}

theorem State.goesOn_forward (husable : s.wayUsable p = true) (hfree : s.eligible i p x = true) : s.goesOn i p q x = s.forward i q x := by
  unfold State.goesOn
  rw [if_neg (by simp [husable]), if_pos hfree]

theorem State.goesOn_marked (husable : s.wayUsable p = false) :
    s.goesOn i p q x = s.setPackets (s.fabric.packets.set i { p with poison := true }) := if_pos (by rw [husable]; rfl)

/-- A number of a packet in the fabric offers nothing new. -/
theorem State.offer_packet (hp : s.packet i = some p) : s.offer i = s := if_pos (List.getElem?_eq_some_iff.1 hp).1

section

variable {s0 : State} {lane : Option Nat} (hp : s.packet i = some p) (hlocal : p.isLocal = false) (hs0 : s.enterLocal p x = s0)
  (hq : (s0.packet i).getD p = q) (hhead : s0.atHead i q x = true)
include hp hlocal hs0 hq hhead

/-- What becomes of a flit at the head of its partition: a bad header that came by a link is discarded with its packet, and every other flit is checked and
goes on; one from the local input has crossed no link that could harm it (R293). -/
theorem exec_arrival (headerOk payloadOk : Bool) :
    let fine := payloadOk || q.fromPort == 0
    exec (.fabricPacketArrival i x headerOk payloadOk lane) s =
      .next (if !headerOk ∧ q.fromPort ≠ 0 ∧ q.gone = 0 then s0.discardHeader i q lane
        else (s0.checked i q fine lane).goesOn i q (if fine then q else { q with poison := true }) x) := by
  intro fine
  show execFabricPacketArrival i x headerOk payloadOk lane s = _
  unfold execFabricPacketArrival
  rw [State.offer_packet hp]
  dsimp only
  rw [hp]
  dsimp only
  rw [if_neg (by simp [hlocal]), hs0, hq, if_neg (by simp [hhead])]
  by_cases hbad : (!headerOk) = true ∧ q.fromPort ≠ 0 ∧ q.gone = 0
  · rw [if_pos hbad, if_pos hbad]
  · rw [if_neg hbad, if_neg hbad]
    exact (Eq.trans (apply_ite Host.Outcome.next _ _ _) (if_congr Iff.rfl rfl (apply_ite Host.Outcome.next _ _ _))).symm

/-- A flit with nothing wrong goes on. -/
theorem exec_arrival_good : exec (.fabricPacketArrival i x true true lane) s = .next ((s0.laneError q lane).goesOn i q q x) :=
  (exec_arrival hp hlocal hs0 hq hhead true true).trans (congrArg Host.Outcome.next (if_neg (by simp)))

/-- A flit with a bad payload goes on with its packet poisoned. -/
theorem exec_arrival_badPayload (hport : q.fromPort ≠ 0) :
    exec (.fabricPacketArrival i x true false lane) s =
      .next (((s0.laneError q lane).poisonPacket i q).goesOn i q { q with poison := true } x) := by
  have hfine : (false || q.fromPort == 0) = false := by simp [hport]
  rw [exec_arrival hp hlocal hs0 hq hhead true false, hfine, if_neg (by simp)]
  rfl

/-- A head flit with a bad header, that came by a link, is discarded. -/
theorem exec_arrival_badHeader (hport : q.fromPort ≠ 0) (hgone : q.gone = 0) (ok : Bool) :
    exec (.fabricPacketArrival i x false ok lane) s = .next (s0.discardHeader i q lane) :=
  (exec_arrival hp hlocal hs0 hq hhead false ok).trans (congrArg Host.Outcome.next (if_pos ⟨rfl, hport, hgone⟩))

/-- A flit from the local input goes on as it is. -/
theorem exec_arrival_local (hport : q.fromPort = 0) (headerOk payloadOk : Bool) :
    exec (.fabricPacketArrival i x headerOk payloadOk lane) s = .next ((s0.laneError q lane).goesOn i q q x) := by
  have hfine : (payloadOk || q.fromPort == 0) = true := by simp [hport]
  rw [exec_arrival hp hlocal hs0 hq hhead headerOk payloadOk, hfine, if_neg (by simp [hport])]
  rfl

end

end

/-! ### The statement -/

/-- Settles O43: a flit at the head of its partition is discarded, or checked and then forwarded, stopped, or left waiting, each by its law above. -/
theorem packetsForward : Obligations.PacketsForward := by
  unfold Obligations.PacketsForward
  intro i x lane s p s0 q s1 hp hlocal hhead
  obtain ⟨ps, hs0⟩ := s.enterLocal_eq p x
  have h0 : s0 = s.setPackets ps := hs0
  have h1 : RecordsOnly s0 s1 := s0.laneError_recordsOnly q lane
  have hmem0 : s0.mem = s.mem := by rw [h0]; rfl
  have hcores0 : s0.cores = s.cores := by rw [h0]; rfl
  have hmem1 : s1.mem = s.mem := h1.mem.trans hmem0
  have hcores1 : s1.cores = s.cores := h1.cores.trans hcores0
  have hgood := exec_arrival_good (lane := lane) hp hlocal (s0 := s0) (q := q) rfl rfl hhead
  refine ⟨fun husable hfree => ?_, ?_, fun hflits hgone hhops halone husable hfree => ?_, fun hgone hport ok => ?_, fun hport headerOk payloadOk => ?_,
    fun hmarked => ?_⟩
  · have ht := s1.forward_sinksOnly i q x
    refine ⟨_, hgood.trans (congrArg Host.Outcome.next (State.goesOn_forward husable hfree)), ht.mem.trans hmem1, ht.cores.trans hcores1, ht.units,
      fun hgone b hb => State.forward_lands hgone hb, fun hgone j e b hb hj he => State.forward_joins hgone hb hj he, fun l hl hport => ?_⟩
    subst hl
    exact (s0.laneError_counted hport l).of_eq (congrArg Units.counts ht.units)
  · intro s2 hport husable hfree
    have h2 : RecordsOnly _ s2 := s1.poisonPacket_recordsOnly i q
    have ht := s2.forward_sinksOnly i { q with poison := true } x
    refine ⟨_, (exec_arrival_badPayload hp hlocal (s0 := s0) (q := q) rfl rfl hhead hport).trans
      (congrArg Host.Outcome.next (State.goesOn_forward husable hfree)), ht.mem.trans (h2.mem.trans hmem1), ht.cores.trans (h2.cores.trans hcores1),
      fun hgone b hb hstays => ?_⟩
    have hlands := State.forward_lands (i := i) (x := x) (p := { q with poison := true }) hgone (by rwa [State.hops_poisoned]) hstays
    refine ⟨_, hlands, s2.along_uid _ b, ?_, s2.along_poison _ b⟩
    show (s2.along { q with poison := true } b).place = _
    rw [State.along_poisoned]
  · obtain ⟨f, hf, hhub, hleaves⟩ := State.forward_sole (i := i) (x := x) hflits hgone hhops (by rwa [h1.fabric])
    have hpackets : f.packets = s0.fabric.packets.eraseIdx i := by rw [hf, h1.fabric]
    have hexec := hgood.trans (congrArg Host.Outcome.next (State.goesOn_forward husable hfree))
    refine ⟨fun htyp hplace => ⟨_, hexec.trans (congrArg Host.Outcome.next (hhub htyp hplace)), ?_, hpackets, hmem1, hcores1⟩, fun hkind _ hplace =>
      ⟨_, hexec.trans (congrArg Host.Outcome.next (hleaves hkind hplace)), hpackets, rfl, hmem1, hcores1⟩⟩
    show s1.group.hubRx ++ _ = _
    rw [h1.group, h0]
    rfl
  · obtain ⟨hpackets, hlost, hmem, hcores, hcount⟩ := s0.discardHeader_discards i q lane
    refine ⟨_, exec_arrival_badHeader hp hlocal rfl rfl hhead hport hgone ok, hpackets, hlost.trans ?_, hmem.trans hmem0, hcores.trans hcores0, hcount⟩
    rw [h0]
    rfl
  · exact (exec_arrival_local hp hlocal (s0 := s0) (q := q) rfl rfl hhead hport headerOk payloadOk).trans hgood.symm
  · refine ⟨_, hgood.trans (congrArg Host.Outcome.next (State.goesOn_marked hmarked)), ?_, hmem1, hcores1⟩
    show s1.fabric.packets.set _ _ = _
    rw [h1.fabric]

end Sys2Proof.Machine
end

section
/-! PROOF. Windows of TC0 and the arbiters, and findings in the rows of memories (06 R230, R231; 07 R274, R288, R289; Table 15.1). -/

namespace Sys2Proof.Machine

/-! ### Opportunities (R288, R289) -/

theorem Arbiter.grant_freeze (a : Arbiter) (quota : Nat) (high : Bool) (reqs : List Nat) : (a.grant quota high reqs).2.freeze = a.freeze := by
  unfold Arbiter.grant
  split
  · rfl
  · split
    · rfl
    · split <;> rfl

/-- Granting leaves the freeze as it is. -/
theorem Arbiter.run_freeze (quota kept n : Nat) (a : Arbiter) : (Arbiter.run quota kept n a).freeze = a.freeze := by
  induction n generalizing a with
  | zero => rfl
  | succ n ih =>
    unfold Arbiter.run
    split
    · rfl
    · have hgrant := a.grant_freeze quota (a.reqs.any (fun r => r.who == none)) (if a.left ≤ kept - a.used then [] else a.reqs.filterMap (·.who))
      split
      · rfl
      · next h => rw [h] at hgrant; exact (ih _).trans hgrant

/-- With no request there is nothing to grant. -/
theorem Arbiter.run_idle (quota kept n : Nat) {a : Arbiter} (h : a.reqs = []) : Arbiter.run quota kept n a = a := by
  cases n with
  | zero => rfl
  | succ n => simp [Arbiter.run, Arbiter.grant, h]

theorem State.arbiter_runArbiter (s : State) (n kept m : Nat) :
    (s.runArbiter n kept).arbiter m =
      if m = n ∧ s.frozen n = false then Arbiter.run (arbQuota n) kept (s.arbiter n).left (s.arbiter n) else s.arbiter m := by
  unfold State.runArbiter
  by_cases hfrozen : s.frozen n = true
  · simp [hfrozen]
  · rw [if_neg hfrozen, State.arbiter_setArbiter]
    simp [hfrozen]

theorem State.runArbiter_other (s : State) {n m : Nat} (kept : Nat) (h : m ≠ n) : (s.runArbiter n kept).arbiter m = s.arbiter m := by
  rw [s.arbiter_runArbiter, if_neg fun hm => h hm.1]

theorem State.runArbiter_freeze (s : State) (n kept : Nat) : ((s.runArbiter n kept).arbiter n).freeze = (s.arbiter n).freeze := by
  rw [s.arbiter_runArbiter]
  split
  · exact Arbiter.run_freeze _ _ _ _
  · rfl

/-- An arbiter that nothing asks, or that is frozen, grants nothing. -/
theorem State.runArbiter_idle {s : State} {n : Nat} (kept : Nat) (h : (s.arbiter n).reqs = [] ∨ s.frozen n = true) :
    (s.runArbiter n kept).arbiter n = s.arbiter n := by
  rw [s.arbiter_runArbiter]
  split
  · next hopen =>
    rcases h with h | h
    · exact Arbiter.run_idle _ _ _ h
    · exact absurd (h.symm.trans hopen.2) (by decide)
  · rfl

/-! ### A window's start -/

/-- A table filled from a list of keys holds each one's value. -/
theorem tget_fill {α : Type} [DecidableEq α] (d : α) (f : Nat → α) (ks : List Nat) (t : Tab α) (j : Nat) :
    tget d (ks.foldl (fun t i => tset d t i (f i)) t) j = if j ∈ ks then f j else tget d t j := by
  induction ks generalizing t with
  | nil => rfl
  | cons k ks ih =>
    rw [List.foldl_cons, ih, tget_tset]
    by_cases hk : j = k
    · simp [hk]
    · simp [hk]

theorem State.arbiter_newWindow (s : State) (n m : Nat) :
    (s.newWindow n).arbiter m = if m = n then
      { s.arbiter n with used := 0, left := 256, ctr := (arbRequesters n).foldl (fun t i => tset 0 t i (s.arbWeight n i : Int)) [] } else s.arbiter m :=
  s.arbiter_setArbiter _ _ _

/-- The freeze is the arbiter's own, or that of a retirement decided. -/
theorem State.frozen_of_eq {s t : State} {n : Nat} (hfreeze : (t.arbiter n).freeze = (s.arbiter n).freeze) (hunits : t.units = s.units) :
    t.frozen n = s.frozen n := by
  rw [State.frozen, hfreeze, hunits, State.frozen]

theorem ArbitersOnly.units {s t : State} (h : ArbitersOnly s t) : t.units = s.units := by obtain ⟨_, rfl⟩ := h; rfl
theorem ArbitersOnly.mem {s t : State} (h : ArbitersOnly s t) : t.mem = s.mem := by obtain ⟨_, rfl⟩ := h; rfl
theorem ArbitersOnly.cores {s t : State} (h : ArbitersOnly s t) : t.cores = s.cores := by obtain ⟨_, rfl⟩ := h; rfl

/-- The weights are settings. -/
theorem ArbitersOnly.arbWeight {s t : State} (h : ArbitersOnly s t) (n i : Nat) : t.arbWeight n i = s.arbWeight n i := by obtain ⟨_, rfl⟩ := h; rfl

/-- An arbiter's counts after its window has started and nothing is granted yet. -/
def Arbiter.Reloaded (a b : Arbiter) (s : State) (n : Nat) : Prop :=
  b.used = 0 ∧ b.left = 256 ∧ b.reqs = a.reqs ∧ ∀ j ∈ arbRequesters n, tget 0 b.ctr j = (s.arbWeight n j : Int)

/-- A window's start reloads the arbiter, whose requests then take what they can; no other arbiter changes (R288, R289). -/
theorem State.windowStart_reloads (s : State) (n : Nat) :
    let u := s.runArbiter n 0
    let t := (u.newWindow n).runArbiter n (arbQuota n)
    ArbitersOnly s t ∧ (∀ m, m ≠ n → t.arbiter m = s.arbiter m) ∧ (t.arbiter n).freeze = (s.arbiter n).freeze ∧
      (((s.arbiter n).reqs = [] ∨ s.frozen n = true) → (s.arbiter n).Reloaded (t.arbiter n) s n) := by
  intro u t
  have hu := s.runArbiter_arbitersOnly n 0
  have hnew : (u.newWindow n).arbiter n = _ := (u.arbiter_newWindow n n).trans (if_pos rfl)
  have hfreeze : ((u.newWindow n).arbiter n).freeze = (s.arbiter n).freeze := by rw [hnew]; exact s.runArbiter_freeze n 0
  refine ⟨(hu.trans ⟨_, rfl⟩).trans ((u.newWindow n).runArbiter_arbitersOnly _ _), fun m hm => ?_,
    ((u.newWindow n).runArbiter_freeze _ _).trans hfreeze, fun hidle => ?_⟩
  · rw [(u.newWindow n).runArbiter_other _ hm, u.arbiter_newWindow, if_neg hm, s.runArbiter_other _ hm]
  · have hreqs : ((u.newWindow n).arbiter n).reqs = (s.arbiter n).reqs := by
      rw [hnew, ← State.runArbiter_idle 0 hidle]
    have hidle' : ((u.newWindow n).arbiter n).reqs = [] ∨ (u.newWindow n).frozen n = true := by
      rw [hreqs, State.frozen_of_eq hfreeze hu.units]
      exact hidle
    have ht : t.arbiter n = (u.newWindow n).arbiter n := State.runArbiter_idle _ hidle'
    refine ⟨by rw [ht, hnew], by rw [ht, hnew], by rw [ht, hreqs], fun j hj => ?_⟩
    rw [ht, hnew]
    exact (tget_fill 0 _ (arbRequesters n) [] j).trans ((if_pos hj).trans (by rw [hu.arbWeight]))

theorem exec_arbiterWindowStart {n : Nat} (h : arbiterOk n = true) (s : State) :
    exec (.arbiterWindowStart n) s = .next (((s.runArbiter n 0).newWindow n).runArbiter n (arbQuota n)) := if_pos h

/-! ### Findings (R230, R231, Table 15.1) -/

/-- A memory's error is counted against its row; else it leaves records, and the free value that is its syndrome. -/
theorem State.memoryError_counted (s : State) (key location die cycle : Nat) (bad : Bool) (flags : Nat) :
    RecordsOnly (s.takeFree 1) (s.memoryError key location die cycle bad flags) ∧
      (s.memoryError key location die cycle bad flags).Counted key (if bad then 0x1002 else 0x1001) :=
  ⟨State.countEvent_recordsOnly _ _ _, State.countEvent_counted _ _ _⟩

/-- A number of a row memory is none of a core's accumulator memory or instruction store. -/
theorem coreArray_rowMemory {m : Nat} (h : m < 2304 ∨ (0x80000000 ≤ m ∧ m < 0x80000000 + 288)) : coreArray m = none := by
  unfold coreArray
  rw [if_neg (by omega), if_neg (by omega)]

/-- Whether an outcome is an uncorrectable error. -/
def uncorrectable (outcome : Nat) : Bool := outcome == 2 || outcome == 4

theorem uncorrectable_iff {outcome : Nat} : uncorrectable outcome = true ↔ outcome = 2 ∨ outcome = 4 := by simp [uncorrectable]

section

variable {m row outcome word : Nat} {s : State}

/-- The mark of an uncorrectable finding. -/
def State.found (s : State) (m row outcome : Nat) : State := if uncorrectable outcome then s.markPoison (memRowAddr m row) true else s

theorem State.found_poison (s : State) (m row outcome : Nat) :
    (uncorrectable outcome = true → (s.found m row outcome).isPoisoned (memRowAddr m row) = true) ∧
      (¬uncorrectable outcome = true → (s.found m row outcome).poison = s.poison) := by
  unfold State.found
  refine ⟨fun h => ?_, fun h => by rw [if_neg h]⟩
  rw [if_pos h]
  exact List.contains_iff_mem.2 (mem_insertNat.2 (.inl rfl))

theorem exec_scrubRow (hm : m < 2304 ∨ (0x80000000 ≤ m ∧ m < 0x80000000 + 288)) (hrow : row < memRows m) (hfrom : 1 ≤ outcome) (hto : outcome ≤ 4)
    (hclock : outcome ≤ 2 → s.clusterGated (memCluster m) = false) :
    ∃ cycle, exec (.scrubRow m row outcome word) s = .next ((s.found m row outcome).memoryError
      (rowKey (s.memUnit m) (bit (decide (0x80000000 ≤ m))) row) (rowLocation m row word) (memCluster m / 2) cycle (uncorrectable outcome)
      (s.poisonFlags (panelTarget s.units.gridClass (memRowAddr m row)))) := by
  have hmay : ¬(row ≥ memRows m ∨ (s.clusterGated (memCluster m) = true ∧ outcome ≤ 2) ∨ outcome = 0 ∨ outcome > 4) := by
    rintro (h | ⟨h, hle⟩ | h | h)
    · omega
    · exact Bool.false_ne_true ((hclock hle).symm.trans h)
    · omega
    · omega
  refine ⟨if m < 2304 ∧ 3 ≤ outcome then (s.core m).cycle else 0, ?_⟩
  show execScrubRow m row outcome word s = _
  unfold execScrubRow
  rw [coreArray_rowMemory hm]
  dsimp only
  rw [if_neg (by simpa [or_iff_not_imp_left] using hm), if_neg hmay]
  rfl

theorem exec_scrubRow_array {kind c : Nat} (harray : coreArray m = some (kind, c)) (hrow : row < (if kind = 2 then 2048 else 8192)) (hfrom : 3 ≤ outcome)
    (hto : outcome ≤ 4) : exec (.scrubRow m row outcome word) s = .next (s.coreArrayError kind c row word (outcome == 4)) := by
  show execScrubRow m row outcome word s = _
  unfold execScrubRow
  rw [harray]
  exact if_neg (by omega)

end

/-- `t` is `s` after a word's error in a core's accumulator memory or instruction store. -/
def State.WordCounted (s t : State) (kind c row : Nat) (bad : Bool) : Prop :=
  t.mem = s.mem ∧ t.poison = s.poison ∧ (∀ d, d ≠ c → t.core d = s.core d) ∧ (kind = 2 → bad = true → (t.core c).accBad.contains row = true) ∧
    t.Counted (rowKey (s.coreUnit c) kind row) (if bad then 0x1002 else 0x1001)

/-- What a word of an accumulator memory or instruction store leaves: its row's count, and of an accumulator row the core's mark (R230). -/
theorem State.coreArrayError_counted (s : State) (kind c row word : Nat) (bad : Bool) :
    s.WordCounted (s.coreArrayError kind c row word bad) kind c row bad := by
  unfold State.coreArrayError
  extract_lets l s1
  obtain ⟨h1, hcount⟩ := s.memoryError_counted (rowKey (s.coreUnit c) kind row) l (c / 16) (s.core c).cycle bad 0
  have hcore : ∀ d, s1.core d = s.core d := fun d => by rw [State.core, h1.cores]; rfl
  split
  · next hgood => exact ⟨h1.mem, h1.poison, fun d _ => hcore d, fun _ hbad => by simp [hbad] at hgood, hcount⟩
  · split
    · refine ⟨h1.mem, h1.poison, fun d hd => (State.core_setCore_ne _ _ _ _ hd).trans (hcore d), fun _ _ => ?_, hcount.of_eq rfl⟩
      rw [State.core_setCore_same, contains_insertNat]
      simp
    · next hkind =>
      have h2 := s1.poisonRead_failuresOnly c
        { unit := s1.coreUnit c, code := 0x403, cls := 2, location := l, aux := 1, cycle := (s1.core c).cycle, reporter := c / 16 }
      exact ⟨h2.mem.trans h1.mem, h2.poison.trans h1.poison, fun d _ => (h2.core d).trans (hcore d), fun h => absurd h hkind, hcount.of_eq h2.counts⟩

/-! ### The statement -/

/-- Settles O47: the windows are `State.windowStart_reloads`, the findings `State.memoryError_counted` and `State.coreArrayError_counted`. -/
theorem windowsAndScrub : Obligations.WindowsAndScrub := by
  unfold Obligations.WindowsAndScrub
  refine ⟨fun s => rfl, fun n s hok => ?_, fun m row outcome word s => ?_, fun m kind c row outcome word s harray hrow hfrom hto => ?_⟩
  · obtain ⟨hkeeps, hothers, hfreeze, hreloads⟩ := s.windowStart_reloads n
    exact ⟨_, exec_arbiterWindowStart hok s, hothers, hkeeps.mem, hkeeps.cores, hfreeze, hreloads⟩
  · intro a bad hm hrow hfrom hto hclock
    obtain ⟨cycle, hexec⟩ := exec_scrubRow (word := word) hm hrow hfrom hto hclock
    obtain ⟨hmarked, hunmarked⟩ := s.found_poison m row outcome
    obtain ⟨hrec, hcount⟩ := (s.found m row outcome).memoryError_counted (rowKey (s.memUnit m) (bit (decide (0x80000000 ≤ m))) row)
      (rowLocation m row word) (memCluster m / 2) cycle (uncorrectable outcome) (s.poisonFlags (panelTarget s.units.gridClass (memRowAddr m row)))
    have hkept : (s.found m row outcome).mem = s.mem ∧ (s.found m row outcome).cores = s.cores := by
      unfold State.found
      split <;> exact ⟨rfl, rfl⟩
    refine ⟨_, hexec, hrec.mem.trans hkept.1, hrec.cores.trans hkept.2, fun h => ?_, fun h => ?_, ?_⟩
    · rw [State.isPoisoned, hrec.poison]
      exact hmarked (uncorrectable_iff.2 h)
    · exact hrec.poison.trans (hunmarked fun hu => h (uncorrectable_iff.1 hu))
    · obtain ⟨e, he, hunit, hcode⟩ := hcount
      exact ⟨e, he, hunit, hcode.trans (if_congr uncorrectable_iff rfl rfl)⟩
  · obtain ⟨hmem, hpoison, hothers, hbad, e, he, hunit, hcode⟩ := s.coreArrayError_counted kind c row word (outcome == 4)
    exact ⟨_, exec_scrubRow_array harray hrow hfrom hto, hmem, hpoison, hothers, fun hk ho => hbad hk (beq_iff_eq.2 ho),
      e, he, hunit, hcode.trans (if_congr beq_iff_eq rfl rfl)⟩

end Sys2Proof.Machine
end

section
/-! PROOF. A packet's bytes on a bundle, and the packet that they hold (07 R258, R259, R293; Table 7.2). -/

namespace Sys2Proof.Machine

/-! ### Little-endian numbers and their fields (R16) -/

theorem leNat_toLE (n x : Nat) : leNat (toLE n x) = x % 256 ^ n := by
  induction n generalizing x with
  | zero => exact (Nat.mod_one x).symm
  | succ n ih =>
    rw [toLE, leNat, ih, pow_succ', Nat.mod_mul]
    rfl

theorem take_toLE {k n : Nat} (h : k ≤ n) (x : Nat) : (toLE n x).take k = toLE k x := by
  induction k generalizing n x with
  | zero => rfl
  | succ k ih =>
    obtain ⟨n, rfl⟩ := Nat.exists_eq_add_of_le' (Nat.one_le_of_lt h)
    rw [toLE, List.take_succ_cons, ih (by omega), toLE]

theorem drop_toLE (o n x : Nat) : (toLE n x).drop o = toLE (n - o) (x / 256 ^ o) := by
  induction o generalizing n x with
  | zero => simp
  | succ o ih =>
    cases n with
    | zero => simp [toLE]
    | succ n => rw [toLE, List.drop_succ_cons, ih, Nat.succ_sub_succ, Nat.div_div_eq_div_mul, ← pow_succ']

/-- Bytes `o` to `o + k - 1` of a number. -/
theorem field_toLE {o k n : Nat} (h : o + k ≤ n) (x : Nat) : field (toLE n x) o k = x / 256 ^ o % 256 ^ k := by
  rw [field, drop_toLE, take_toLE (by omega), leNat_toLE]

theorem field_append_left {as : List Byte} {o n : Nat} (h : o + n ≤ as.length) (bs : List Byte) : field (as ++ bs) o n = field as o n := by
  rw [field, List.drop_append_of_le_length (by omega), List.take_append_of_le_length (by rw [List.length_drop]; omega), field]

theorem field_append_right {as : List Byte} {o : Nat} (h : as.length ≤ o) (bs : List Byte) (n : Nat) :
    field (as ++ bs) o n = field bs (o - as.length) n := by
  rw [field, List.drop_append, List.drop_eq_nil_of_le h, List.nil_append, field]

/-! ### HCHK (R259) -/

theorem crcBit_lt_two_pow (c : Nat) : crcBit c < 2 ^ 16 := by
  have h : 2 * c % 65536 < 2 ^ 16 := Nat.mod_lt _ (by decide)
  unfold crcBit
  split
  · exact Nat.xor_lt_two_pow h (by decide)
  · exact h

theorem crc16_lt_two_pow (bs : List Byte) : crc16 bs < 2 ^ 16 := by
  refine List.foldlRecOn (motive := (· < 2 ^ 16)) bs _ (by decide) fun c hc b _ => ?_
  have hb : b.toNat * 256 < 2 ^ 16 := by have := b.isLt; omega
  exact List.foldlRecOn (motive := (· < 2 ^ 16)) _ _ (Nat.xor_lt_two_pow hc hb) fun c _ _ _ => crcBit_lt_two_pow c

/-! ### The header's bytes (Table 7.2) -/

section

variable (p : Packet) (pad : List Byte)

@[simp] theorem Packet.length_headBytes : p.headBytes.length = 30 := by simp [Packet.headBytes, toLE_length]

theorem Packet.take_encode : (p.encode ++ pad).take 30 = p.headBytes := by
  rw [Packet.encode, List.append_assoc, List.append_assoc, List.take_left' p.length_headBytes]

theorem Packet.drop_encode : (p.encode ++ pad).drop 32 = p.payload ++ pad := by
  rw [Packet.encode, List.append_assoc, List.drop_left' (by simp [toLE_length])]

/-- The header of a packet stands at the front of its bytes. -/
theorem Packet.field_encode {o n : Nat} (h : o + n ≤ 30) : field (p.encode ++ pad) o n = field p.headBytes o n := by
  rw [Packet.encode, List.append_assoc, List.append_assoc, field_append_left (by rw [p.length_headBytes]; exact h)]

theorem Packet.field_hchk : field (p.encode ++ pad) 30 2 = crc16 p.headBytes := by
  rw [Packet.encode, List.append_assoc, List.append_assoc, field_append_right (by rw [p.length_headBytes]), p.length_headBytes,
    field_append_left (by rw [toLE_length]), field_toLE (by omega)]
  exact (congrArg (· % _) (Nat.div_one _)).trans (Nat.mod_eq_of_lt (crc16_lt_two_pow _))

/-- Bytes 0x00 to 0x07. -/
theorem Packet.field_headNat {o n : Nat} (h : o + n ≤ 8) : field p.headBytes o n = p.headNat / 256 ^ o % 256 ^ n := by
  simp only [Packet.headBytes, List.append_assoc]
  rw [field_append_left (by rw [toLE_length]; exact h), field_toLE h]

/-- Bytes 0x08 to 0x1D: each field that fits its bytes is there as it is. -/
theorem Packet.headBytes_fields (haddr : p.addr < 2 ^ 64) (hdrow : p.drow < 2 ^ 15) (hdm : p.dm < 2) (hdcore : p.dcore < 16) (hdctr : p.dctr < 16)
    (htag : p.tag < 2 ^ 16) (hcount : p.xferCount < 2 ^ 32) (hid : p.xferId < 2 ^ 16) (hlen : p.payload.length < 2 ^ 16) :
    field p.headBytes 8 8 = p.addr ∧ field p.headBytes 16 2 = p.drow + p.dm * 2 ^ 15 ∧ field p.headBytes 18 1 = p.dcore + p.dctr * 16 ∧
      field p.headBytes 20 2 = p.payload.length ∧ field p.headBytes 22 2 = p.tag ∧ field p.headBytes 24 4 = p.xferCount ∧
      field p.headBytes 28 2 = p.xferId := by
  simp only [Packet.headBytes, List.append_assoc]
  refine ⟨?_, ?_, ?_, ?_, ?_, ?_, ?_⟩ <;>
    simp (disch := simp [toLE_length]) only [field_append_right, field_append_left, toLE_length, field_toLE] <;> omega

end

/-- Fields of the header word of a packet whose fields fit: ROUTE, TYPE and KIND, the flags, SRC and DST. -/
theorem Packet.headNat_fields {p : Packet} (hroute : p.routeId < 2 ^ 16) (htyp : p.typ < 16) (hkind : p.kind < 4) (hcls : p.cls < 8)
    (hsrc : p.src < 2 ^ 16) (hdst : p.dst < 2 ^ 16) :
    field p.headBytes 0 2 = p.routeId ∧ field p.headBytes 2 1 = p.typ + p.kind * 16 ∧
      field p.headBytes 3 1 = p.cls + bit p.planned * 8 + bit p.poison * 16 + bit p.last * 32 ∧ field p.headBytes 4 2 = p.src ∧
      field p.headBytes 6 2 = p.dst := by
  have hbit : ∀ b, bit b ≤ 1 := by decide
  have hplanned := hbit p.planned
  have hpoison := hbit p.poison
  have hlast := hbit p.last
  refine ⟨?_, ?_, ?_, ?_, ?_⟩ <;> rw [p.field_headNat (by omega), Packet.headNat] <;> omega

/-- CLASS and the three flags above it come apart again. -/
theorem flags_apart {c : Nat} (hc : c < 8) (x y z : Bool) :
    (c + bit x * 8 + bit y * 16 + bit z * 32) % 8 = c ∧ (c + bit x * 8 + bit y * 16 + bit z * 32).testBit 3 = x ∧
      (c + bit x * 8 + bit y * 16 + bit z * 32).testBit 4 = y ∧ (c + bit x * 8 + bit y * 16 + bit z * 32).testBit 5 = z := by
  simp only [Nat.testBit_eq_decide_div_mod_eq]
  have hbit : ∀ b, bit b = 1 ↔ b = true := by decide
  have hle : ∀ b, bit b ≤ 1 := by decide
  have hx := hle x
  have hy := hle y
  have hz := hle z
  refine ⟨by omega, ?_, ?_, ?_⟩ <;> rw [Bool.eq_iff_iff, decide_eq_true_iff, ← hbit] <;> omega

/-! ### The statement -/

/-- Settles O60: the check agrees, and each field is read from where it was written. -/
theorem packetRoundTrip : Obligations.PacketRoundTrip := by
  unfold Obligations.PacketRoundTrip
  intro p hroute htyp hkind hcls hsrc hdst haddr hdrow hdm hdcore hdctr htag hcount hid hlen pad
  obtain ⟨eroute, ekind, eflags, esrc, edst⟩ := Packet.headNat_fields hroute htyp hkind hcls hsrc hdst
  obtain ⟨eaddr, erow, ecore, elen, etag, ecount, eid⟩ := p.headBytes_fields haddr hdrow hdm hdcore hdctr htag hcount hid hlen
  obtain ⟨ecls, eplanned, epoison, elast⟩ := flags_apart hcls p.planned p.poison p.last
  unfold decodePacket
  simp (disch := omega) only [p.take_encode, p.drop_encode, p.field_hchk, p.field_encode]
  simp only [eroute, ekind, eflags, esrc, edst, eaddr, erow, ecore, elen, etag, ecount, eid, ecls, eplanned, epoison, elast, List.take_left]
  have h1 : (p.typ + p.kind * 16) % 16 = p.typ := by omega
  have h2 : (p.typ + p.kind * 16) / 16 % 4 = p.kind := by omega
  have h3 : (p.drow + p.dm * 2 ^ 15) % 2 ^ 15 = p.drow := by omega
  have h4 : (p.drow + p.dm * 2 ^ 15) / 2 ^ 15 = p.dm := by omega
  have h5 : (p.dcore + p.dctr * 16) % 16 = p.dcore := by omega
  have h6 : (p.dcore + p.dctr * 16) / 16 = p.dctr := by omega
  simp only [h1, h2, h3, h4, h5, h6, ne_eq, not_true_eq_false, false_or, gt_iff_lt]

end Sys2Proof.Machine
end

section
/-! PROOF. Ports: training, its retry, peer verification and the identity reply (08 R307 to R309; 16 R504). -/

namespace Sys2Proof.Machine

/-! ### What settling the retrain commands writes -/

/-- `t` differs from `s` in the commands, the log and the group alone. -/
def AnswersOnly (s t : State) : Prop := ∃ c l g, t = { s with cmds := c, log := l, group := g }

namespace AnswersOnly

variable {s t u : State}

theorem refl (s : State) : AnswersOnly s s := ⟨_, _, _, rfl⟩

theorem trans (h : AnswersOnly s t) (h' : AnswersOnly t u) : AnswersOnly s u := by
  obtain ⟨_, _, _, rfl⟩ := h
  obtain ⟨_, _, _, rfl⟩ := h'
  exact ⟨_, _, _, rfl⟩

theorem forEach {β : Type} {xs : List β} {f : β → State → State} (s : State) (h : ∀ x t, AnswersOnly t (f x t)) : AnswersOnly s (forEach xs f s) :=
  forEach_holds (AnswersOnly s) xs f s (.refl s) fun x t ht => ht.trans (h x t)

end AnswersOnly

theorem State.answerRelay_answersOnly (s : State) (seq status detail result : Nat) : AnswersOnly s (s.answerRelay seq status detail result) := by
  unfold State.answerRelay State.relayDone
  split
  · split
    · exact .refl s
    · exact ⟨_, _, _, rfl⟩
  · exact ⟨_, _, _, rfl⟩

theorem State.settleRetrains_answersOnly (s : State) : AnswersOnly s s.settleRetrains := by
  unfold State.settleRetrains
  refine .trans ⟨_, _, _, rfl⟩ (AnswersOnly.forEach _ fun r t => ?_)
  dsimp only
  split
  · exact t.answerRelay_answersOnly _ _ _ _
  · split
    · exact .refl t
    · exact ⟨_, _, _, rfl⟩

/-! ### A port changes its state -/

@[simp] theorem State.port_modPort_same (s : State) (p : Nat) (f : Port → Port) : (s.modPort p f).port p = f (s.port p) := tget_tset_same _ _ _ _

@[simp] theorem State.takeFree_port (s : State) (n p : Nat) : (s.takeFree n).port p = s.port p := rfl

/-- A port that is not ACTIVE comes to another state: no step fails of it, and besides the port only the answers to ZL_RETRAIN change (R307, R334). -/
theorem State.portTo_moves {s : State} {p st : Nat} (hactive : (s.port p).state ≠ 4) (hother : (s.port p).state ≠ st) :
    AnswersOnly (s.modPort p (fun q => { q with state := st })) (s.portTo p st) := by
  have hstate : ∃ l, s.portState p st = { s.modPort p (fun q => { q with state := st }) with log := l } := by
    unfold State.portState
    dsimp only
    rw [if_neg hother, if_neg (fun h => hactive h.1)]
    exact State.event_eq _ _ _ _
  obtain ⟨l, hl⟩ := hstate
  rw [State.portTo, hl]
  exact .trans ⟨_, _, _, rfl⟩ (State.settleRetrains_answersOnly _)

/-- What the change of state of a port that is not ACTIVE leaves of the port, the free values, the time and the units. -/
theorem State.portTo_leaves {s : State} {p st : Nat} (hactive : (s.port p).state ≠ 4) (hother : (s.port p).state ≠ st) :
    (s.portTo p st).port p = { s.port p with state := st } ∧ (s.portTo p st).free = s.free ∧ (s.portTo p st).now = s.now ∧
      (s.portTo p st).units = s.units := by
  obtain ⟨_, _, _, h⟩ := State.portTo_moves hactive hother
  have hport := s.port_modPort_same p fun q => { q with state := st }
  rw [h]
  exact ⟨hport, rfl, rfl, rfl⟩

/-- A failed attempt leaves a port that was in neither DOWN nor ACTIVE DOWN, with its next attempt after 10 ms (R307). -/
theorem State.failTraining_leaves {s : State} {p : Nat} (hactive : (s.port p).state ≠ 4) (hdown : (s.port p).state ≠ 1) :
    (s.failTraining p).port p = { s.port p with width := 0, challenge := none, retryAt := some (s.now + 10 ^ 7), state := 1 } ∧
      (s.failTraining p).now = s.now ∧ (s.failTraining p).units = s.units := by
  obtain ⟨hport, -, hnow, hunits⟩ := State.portTo_leaves (st := 1)
    (s := s.modPort p (fun q => { q with width := 0, challenge := none, retryAt := some (s.now + 10 ^ 7) })) (p := p)
    (by rwa [State.port_modPort_same]) (by rwa [State.port_modPort_same])
  rw [State.port_modPort_same] at hport
  exact ⟨hport, hnow, hunits⟩

/-- An attempt begins with TRAINING, and no other is awaited (Table 8.5). -/
theorem State.startTraining_leaves {s : State} {p : Nat} (hactive : (s.port p).state ≠ 4) (htraining : (s.port p).state ≠ 2) :
    (s.startTraining p).port p = { s.port p with width := 0, challenge := none, retryAt := none, peerSlot := 0, peerPort := 0, state := 2 } ∧
      (s.startTraining p).now = s.now := by
  obtain ⟨hport, -, hnow, -⟩ := State.portTo_leaves (st := 2)
    (s := s.modPort p (fun q => { q with width := 0, challenge := none, retryAt := none, peerSlot := 0, peerPort := 0 })) (p := p)
    (by rwa [State.port_modPort_same]) (by rwa [State.port_modPort_same])
  rw [State.port_modPort_same] at hport
  exact ⟨hport, hnow⟩

@[simp] theorem State.addError_port (s : State) (e : ErrIn) (p : Nat) : (s.addError e).port p = s.port p := by
  obtain ⟨_, _, _, h⟩ := s.addError_recordsOnly e
  rw [h]
  rfl

/-- A failed verification makes one error record and leaves a VERIFYING port DOWN (R504, Table 8.5). -/
theorem State.failVerify_leaves {s : State} {p : Nat} (h : (s.port p).state = 3) :
    ((s.failVerify p).port p).state = 1 ∧ ((s.failVerify p).port p).challenge = none ∧ (s.failVerify p).now = s.now ∧
      (s.failVerify p).units.seq = s.units.seq + 1 := by
  obtain ⟨hport, hnow, hunits⟩ := State.failTraining_leaves (p := p)
    (s := s.addError { unit := unitId 6 p 0, code := 0x504, cls := 2, reporter := ioPlace (engineIo (p / 8)) }) (by simp [h]) (by simp [h])
  have hrecorded : (s.failVerify p).now = s.now := hnow.trans (congrArg Clock.timebase (s.addError_clock _))
  have hseq : (s.failVerify p).units.seq = s.units.seq + 1 := (congrArg Units.seq hunits).trans (s.addError_seq _)
  exact ⟨congrArg Port.state hport, congrArg Port.challenge hport, hrecorded, hseq⟩

/-! ### Training (R307, R309) -/

section

variable {s : State} {n : Nat}

/-- A port whose training ends well: its link fresh, its width and delay as measured, and a fresh challenge sent out unless the coolant-loss response holds it. -/
def State.trained (s : State) (trip : Nat) (q : Port) : Port :=
  { q.fresh with
    width := lanesOf (~~~q.laneRetired), delayNs := (trip + 1) / 2, retryAt := none, challenge := some (s.freeBytes 32, s.now),
    challengeHeld := s.thermal.active }

/-- A port in TRAINING with every lane good or retired and four left comes to VERIFYING. -/
theorem portTraining_trains (hn : n < 64) (hmay : s.mayTrain n = true) (hstate : (s.port n).state = 2) {good : BitVec 8} (trip : Nat)
    (hgood : (good ||| (s.port n).laneRetired) = 0xFF) (hfour : 4 ≤ lanesOf (~~~(s.port n).laneRetired)) :
    ∃ t, exec (.portTraining n good trip) s = .next t ∧ t.port n = { s.trained trip (s.port n) with state := 3 } ∧ t.free = s.free + 32 := by
  have hexec : exec (.portTraining n good trip) s = .next (((s.modPort n (s.trained trip)).takeFree 32).portTo n 3) := by
    show execPortTraining n good trip s = _
    simp only [execPortTraining, Nat.not_le.mpr hn, hmay, hstate, hgood, hfour]
    rfl
  have hold : (s.trained trip (s.port n)).state = 2 := hstate
  obtain ⟨hport, hfree, -, -⟩ := State.portTo_leaves (s := (s.modPort n (s.trained trip)).takeFree 32) (p := n) (st := 3) (by simp [hold]) (by simp [hold])
  rw [State.takeFree_port, State.port_modPort_same] at hport
  exact ⟨_, hexec, hport, hfree⟩

/-- A port in TRAINING that does not meet R307 fails the attempt. -/
theorem portTraining_fails (hn : n < 64) (hmay : s.mayTrain n = true) (hstate : (s.port n).state = 2) {good : BitVec 8} (trip : Nat)
    (hbad : ¬((good ||| (s.port n).laneRetired) = 0xFF ∧ 4 ≤ lanesOf (~~~(s.port n).laneRetired))) :
    exec (.portTraining n good trip) s = .next (s.failTraining n) := by
  show execPortTraining n good trip s = _
  simp only [execPortTraining, Nat.not_le.mpr hn, hmay, hstate, if_neg hbad]
  rfl

/-- At its retry time a DOWN port that may train begins the next attempt. -/
theorem exec_portRetryTimer {r : Nat} (hn : n < 64) (hstate : (s.port n).state = 1) (hretry : (s.port n).retryAt = some r)
    (hmay : s.mayTrain n = true) : exec (.portRetryTimer n) s = .next ((s.advanceTo r).startTraining n) := by
  show execPortRetryTimer n s = _
  simp [execPortRetryTimer, Nat.not_le.mpr hn, hstate, hretry, hmay]

/-! ### Verification (R308, R504) -/

/-- A reply in time that passes R308 makes a VERIFYING port ACTIVE. -/
theorem peerVerification_passes {sent : Nat} {ch : List Byte} {reply : PeerReply} (hn : n < 64) (hstate : (s.port n).state = 3)
    (hch : (s.port n).challenge = some (ch, sent)) (hthermal : s.thermal.active = false) (hheld : (s.port n).challengeHeld = false)
    (hok : s.now ≤ sent + 10 ^ 7 ∧ s.peerOk n ch reply = true ∧ (s.port n).delayNs ≤ s.setting keyDelayMax) :
    ∃ t, exec (.peerVerification n reply) s = .next t ∧
      t.port n = { s.port n with challenge := none, peerSlot := reply.slot % 4096, peerPort := reply.port, state := 4 } := by
  have hexec : exec (.peerVerification n reply) s = .next ((s.modPort n fun q => { q with
      challenge := none, peerSlot := reply.slot % 4096, peerPort := reply.port }).portTo n 4) := by
    show execPeerVerification n reply s = _
    simp only [execPeerVerification, Nat.not_le.mpr hn, hstate, hch, hthermal, hheld, if_pos hok]
    rfl
  obtain ⟨hport, -⟩ := State.portTo_leaves (st := 4) (p := n)
    (s := s.modPort n fun q => { q with challenge := none, peerSlot := reply.slot % 4096, peerPort := reply.port })
    (by simp [hstate]) (by simp [hstate])
  rw [State.port_modPort_same] at hport
  exact ⟨_, hexec, hport⟩

/-- Any other reply fails the verification. -/
theorem peerVerification_fails {sent : Nat} {ch : List Byte} {reply : PeerReply} (hn : n < 64) (hstate : (s.port n).state = 3)
    (hch : (s.port n).challenge = some (ch, sent)) (hthermal : s.thermal.active = false) (hheld : (s.port n).challengeHeld = false)
    (hbad : ¬(s.now ≤ sent + 10 ^ 7 ∧ s.peerOk n ch reply = true ∧ (s.port n).delayNs ≤ s.setting keyDelayMax)) :
    exec (.peerVerification n reply) s = .next (s.failVerify n) := by
  show execPeerVerification n reply s = _
  simp only [execPeerVerification, Nat.not_le.mpr hn, hstate, hch, hthermal, hheld, if_neg hbad]
  rfl

/-- No reply within 10 ms of the challenge fails the verification, once the challenge has gone out (R335). -/
theorem exec_identityReplyTimeout {sent : Nat} {ch : List Byte} (hn : n < 64) (hstate : (s.port n).state = 3)
    (hch : (s.port n).challenge = some (ch, sent)) :
    exec (.identityReplyTimeout n) s = if (s.port n).challengeHeld then .next s else .next ((s.advanceTo (sent + 10 ^ 7)).failVerify n) := by
  show execIdentityReplyTimeout n s = _
  simp only [execIdentityReplyTimeout, Nat.not_le.mpr hn, hstate, hch, if_false]

/-- The hub answers a challenge at a port that is VERIFYING or ACTIVE. -/
theorem exec_identityRequest (hn : n < 64) (hthermal : s.thermal.active = false) (hstate : (s.port n).state = 3 ∨ (s.port n).state = 4)
    (ch : List Byte) :
    exec (.identityRequest n ch) s = .next ((s.modPort n fun q => { q with
      reply := s.chain ++ s.identityBlock (digest64 (identityMessage ch (s.setting keyGroupId) s.groupSlot n)) }).takeFree 1) := by
  show execIdentityRequest n ch s = _
  have hup : ((s.port n).state == 3 || (s.port n).state == 4) = true := by simpa using hstate
  simp [execIdentityRequest, Nat.not_le.mpr hn, hthermal, hup]

end

/-! ### The statement -/

/-- Settles O50: training and its retry, the verification and its timeout, and the answer to a challenge, each by its law above. -/
theorem portsTrain : Obligations.PortsTrain := by
  unfold Obligations.PortsTrain
  refine ⟨?training, ?retry, ?verification, ?timeout, ?request⟩
  case training =>
    intro n trip good s q hn hmay hstate
    refine ⟨fun hgood hfour => ?_, fun hbad => ?_⟩
    · obtain ⟨t, ht, hport, hfree⟩ := portTraining_trains hn hmay hstate trip hgood hfour
      refine ⟨t, ht, ?_⟩
      rw [hport]
      exact ⟨rfl, rfl, rfl, rfl, rfl, rfl, hfree⟩
    · obtain ⟨hport, -⟩ := State.failTraining_leaves (s := s) (p := n) (hstate.trans_ne (by decide)) (hstate.trans_ne (by decide))
      exact ⟨_, portTraining_fails hn hmay hstate trip hbad, congrArg Port.state hport, congrArg Port.retryAt hport⟩
  case retry =>
    intro n r s hn hstate hretry hmay
    obtain ⟨hport, hnow⟩ := State.startTraining_leaves (s := s.advanceTo r) (p := n) (hstate.trans_ne (by decide)) (hstate.trans_ne (by decide))
    exact ⟨_, exec_portRetryTimer hn hstate hretry hmay, congrArg Port.state hport, congrArg Port.retryAt hport,
      (Nat.le_max_right _ _).trans hnow.ge⟩
  case verification =>
    intro n sent ch reply s hn hstate hch hthermal hheld
    split
    next hok =>
      obtain ⟨t, ht, hport⟩ := peerVerification_passes hn hstate hch hthermal hheld hok
      exact ⟨t, ht, congrArg Port.challenge hport, congrArg Port.state hport, congrArg Port.peerPort hport⟩
    next hbad =>
      obtain ⟨hdown, hnone, -⟩ := State.failVerify_leaves hstate
      exact ⟨_, peerVerification_fails hn hstate hch hthermal hheld hbad, hnone, hdown⟩
  case timeout =>
    intro n sent ch s hn hstate hch
    rw [exec_identityReplyTimeout hn hstate hch]
    refine ⟨fun hheld => if_pos hheld, fun hsent => ?_⟩
    obtain ⟨hdown, -, hnow, hseq⟩ := State.failVerify_leaves (s := s.advanceTo (sent + 10 ^ 7)) hstate
    exact ⟨_, if_neg (by simp [hsent]), hdown, (Nat.le_max_right _ _).trans hnow.ge, hseq⟩
  case request =>
    intro n ch s hn hthermal hstate
    refine ⟨_, exec_identityRequest hn hthermal hstate ch, ?_, rfl, rfl⟩
    rw [State.takeFree_port, State.port_modPort_same]

end Sys2Proof.Machine
end

section
/-! PROOF. ZL_RETRAIN and the state-load window in the control lane (08 R307, R336). -/

namespace Sys2Proof.Machine

/-! ### A command that came by a slot answers for itself -/

theorem leNat_lt (bs : List Byte) : leNat bs < 256 ^ bs.length := by
  induction bs with
  | nil => decide
  | cons b bs ih =>
    have hb : b.toNat < 256 := b.isLt
    rw [leNat, List.length_cons, Nat.pow_succ]
    omega

/-- A field of `n` bytes holds a number of as many bytes (R16). -/
theorem field_lt (bs : List Byte) (o n : Nat) : field bs o n < 256 ^ n :=
  (leNat_lt _).trans_le (Nat.pow_le_pow_right (by decide) (List.length_take_le _ _))

/-- The tag of a slot's command is one byte, below the tags of relayed commands (Table 9.7, R352). -/
theorem theCmd_tag_lt (s : State) (slot : Nat) : (theCmd s slot).tag < 256 := by
  have hslot : (s.slotCmd slot).tag < 256 := field_lt (s.slotBytes slot) 2 1
  unfold theCmd State.started
  split <;> exact hslot

/-- A command with a tag of its own makes its own record (R352). -/
theorem State.answer_own {c : Cmd} (h : c.tag < 256) (s : State) (status detail result : Nat) :
    s.answer c status detail result = answered s c status detail result := by
  rw [State.answer, if_neg (by omega)]
  rfl

/-- A window that passes its checks takes the place of the one before it (R336). -/
theorem runWindowOpen_opens {s : State} {c : Cmd} (h : s.windowFail c = none) :
    runWindowOpen c s = State.answer { s with group := { s.group with window := some {
      base := bitsOf (c.arg 0 8) 43 0, len := c.arg 8 8, slots := (List.range (c.arg 16 2)).map (fun i => c.arg (24 + 2 * i) 2) } } } c 0 0 0 := by
  simp only [runWindowOpen, h]

/-- Settles O37: each command runs in its lane, and the two on the window answer for themselves. -/
theorem retrainAndWindow : Obligations.RetrainAndWindow := by
  unfold Obligations.RetrainAndWindow
  intro slot s c t hl
  have htag : c.tag < 256 := theCmd_tag_lt s slot
  refine ⟨?retrain, ?opens, ?closes⟩
  case retrain =>
    intro ha
    have hrun : runControl c t = runZlRetrain c t := by simp [runControl, theCmd_opcode ha, c]
    exact (acceptAs_control (by decide) ha hl).trans (congrArg (fun x => Host.Outcome.next (lanesOn x)) hrun)
  case opens =>
    intro ha hpass
    have hrun : runControl c t = runWindowOpen c t := by simp [runControl, theCmd_opcode ha, c]
    rw [runWindowOpen_opens hpass, State.answer_own htag] at hrun
    exact (acceptAs_control (by decide) ha hl).trans (congrArg (fun x => Host.Outcome.next (lanesOn x)) hrun)
  case closes =>
    intro ha
    have hrun : runControl c t = runWindowClose c t := by simp [runControl, theCmd_opcode ha, c]
    rw [runWindowClose, State.answer_own htag] at hrun
    exact (acceptAs_control (by decide) ha hl).trans (congrArg (fun x => Host.Outcome.next (lanesOn x)) hrun)

end Sys2Proof.Machine
end

section
/-! PROOF. The transfer lane with nothing before a command, and the transfers that GROUP_COPY opens (08 R323, R326; 09 R350, R356). -/

namespace Sys2Proof.Machine

/-! ### The transfer lane -/

/-- A command of the transfer lane asks for nothing of the query lane. -/
theorem transferOps_lane : ∀ op ∈ transferOps, queryOps.contains op = false ∧ transferOps.contains op = true := by decide

/-- Which stacks a command waits for does not depend on the commands in the lanes. -/
theorem State.stacksWait_withCmds (s : State) (q : Cmds) (c : Cmd) : State.stacksWait { s with cmds := q } c = s.stacksWait c := by
  have hpieces : ∀ n a hi, State.hbmPieces { s with cmds := q } n a hi = s.hbmPieces n a hi := fun n a hi =>
    State.hbmPieces_congr (by rfl) (by rfl) n a hi
  have hstacks : ∀ a n, State.stacksOf { s with cmds := q } a n = s.stacksOf a n := fun a n => by
    simp only [State.stacksOf, State.hbmStacks, hpieces]
    rfl
  simp only [State.stacksWait, hstacks]
  rfl

/-- A command alone in the transfer lane starts, once the lanes have room and its stacks are ready, and leaves the queue empty (R350, R463). -/
theorem State.runTransfers_sole {s : State} {c : Cmd} (hf : TransferFree s) (hready : s.stacksWait (s.started c) = false) :
    State.runTransfers [c] { s with cmds := { s.cmds with xferQueue := [c] } } = runTransfer (s.started c) s := by
  obtain ⟨hlane, hqueue, hroom, hholding⟩ := hf
  have hload : State.loadRunning { s with cmds := { s.cmds with xferQueue := [c] } } = false := by simp [State.loadRunning, hholding, hlane]
  have hfits : ¬((s.cmds.xfers.filter (fun x => !x.ofStep)).length + s.group.copies.length ≥ 64) := Nat.not_le.mpr hroom
  have hstacks : State.stacksWait { s with cmds := { s.cmds with xferQueue := [c] } } (s.started c) = false :=
    (s.stacksWait_withCmds _ _).trans hready
  have hleaves : [c].filter (fun d => d.seq != c.seq) = s.cmds.xferQueue := by simp [hqueue]
  simp only [State.runTransfers, hload, Bool.false_and, Bool.false_eq_true, or_false, if_neg hfits, hleaves]
  exact if_neg (by simp [show State.started { s with cmds := { s.cmds with xferQueue := [c] } } c = s.started c from rfl, hstacks])

/-- With nothing in the control lane the transfers that wait are all that may start. -/
theorem State.runLanes_transfers {s : State} (h : s.cmds.lane = []) : s.runLanes = State.runTransfers s.cmds.xferQueue s := by
  rw [State.runLanes, h]
  rfl

/-- A transfer command whose slot is the next to be accepted, with nothing before it in its lane and its stacks ready, starts at once. -/
theorem acceptAs_transfer {slot op : Nat} {s : State} (hop : op ∈ transferOps) (ha : Accepts slot op s) (hf : TransferFree s)
    (hready : (s.takeSlot slot).stacksWait (theCmd s slot) = false) :
    acceptAs op slot s = .next (runTransfer (theCmd s slot) (s.takeSlot slot)) := by
  obtain ⟨hslot, hacc, hhead, hopcode, hpass⟩ := ha
  obtain ⟨hquery, htransfer⟩ := transferOps_lane op hop
  have hfree : TransferFree (s.takeSlot slot) := hf
  obtain ⟨hlane, hqueue, -⟩ := hf
  have hdispatch : (s.takeSlot slot).dispatch (s.slotCmd slot) = runTransfer (theCmd s slot) (s.takeSlot slot) := by
    rw [State.dispatch, hopcode, hquery, htransfer, if_neg Bool.false_ne_true, if_pos rfl, show (s.takeSlot slot).cmds.xferQueue = [] from hqueue,
      List.nil_append, State.runLanes_transfers (by exact hlane)]
    exact State.runTransfers_sole hfree hready
  simp [acceptAs, State.acceptSlot, hacc, hhead, hopcode, hpass, hdispatch, Nat.not_le.mpr hslot]

/-! ### The transfers of a copy -/

/-- The transfers that a copy opens, in order: where each begins, its units, and that none was sent again (R326, R356). -/
theorem State.sendCopies_opened (c : Cmd) (ks : List Nat) (s : State) :
    (State.sendCopies c ks s).1.map (fun o => (o.first, o.units, o.resends)) = ks.map (fun k => (63 * k, min 63 (c.arg 16 8 / 512 - 63 * k), 0)) := by
  induction ks generalizing s with
  | nil => rfl
  | cons k ks ih => exact congrArg (_ :: ·) (ih _)

/-- Sending them leaves memory, the log and the copies before this one. -/
theorem State.sendCopies_leaves (c : Cmd) (ks : List Nat) (s : State) :
    (State.sendCopies c ks s).2.mem = s.mem ∧ (State.sendCopies c ks s).2.log = s.log ∧
      (State.sendCopies c ks s).2.group.copies = s.group.copies := by
  induction ks generalizing s with
  | nil => exact ⟨rfl, rfl, rfl⟩
  | cons k ks ih => exact ih (s.sendCopy _ _ _ _).2

section

variable {s : State} {c : Cmd}

/-- A copy of no units is answered at once. -/
theorem runGroupCopy_empty (hpass : s.copyFail c = none) (hu : c.arg 16 8 / 512 = 0) : runGroupCopy c s = answered s c 0 0 0 := by
  simp only [runGroupCopy, hpass, if_pos hu]
  rfl

/-- A copy of some units opens a transfer for each 63 begun. -/
theorem runGroupCopy_opens (hpass : s.copyFail c = none) (hu : c.arg 16 8 / 512 ≠ 0) :
    let r := State.sendCopies c (List.range ((c.arg 16 8 / 512 + 62) / 63)) s
    runGroupCopy c s = { r.2 with group := { r.2.group with copies := r.2.group.copies ++
      [{ tag := c.tag, slot := c.arg 24 2, opened := r.1, acked := 0, refused := false }] } } := by
  simp only [runGroupCopy, hpass, if_neg hu]
  rfl

end

/-- Transfer `i` of a copy that sends all of its own begins 63 `i` units on. -/
theorem State.sendCopies_range (c : Cmd) (n : Nat) (s : State) :
    let opened := (State.sendCopies c (List.range n) s).1
    opened.length = n ∧ ∀ i o, opened[i]? = some o → o.first = 63 * i ∧ o.units = min 63 (c.arg 16 8 / 512 - 63 * i) ∧ o.resends = 0 := by
  intro opened
  have hmap := State.sendCopies_opened c (List.range n) s
  refine ⟨by simpa using congrArg List.length hmap, fun i o ho => ?_⟩
  have hi := congrArg (·[i]?) hmap
  simp only [List.getElem?_map] at hi
  rw [show (State.sendCopies c (List.range n) s).1[i]? = some o from ho] at hi
  obtain ⟨k, hk, hfields⟩ := Option.map_eq_some_iff.mp hi.symm
  obtain ⟨_, rfl⟩ := List.getElem?_eq_some_iff.mp hk
  rw [List.getElem_range] at hfields
  simp only [Prod.mk.injEq] at hfields
  exact ⟨hfields.1.symm, hfields.2.1.symm, hfields.2.2.symm⟩

/-- Settles O39: the command starts at once in its lane, and opens its transfers by the laws above. -/
theorem groupCopyOpens : Obligations.GroupCopyOpens := by
  unfold Obligations.GroupCopyOpens
  intro slot s c t u ha hf hready hpass
  have hrun : runTransfer c t = runGroupCopy c t := by simp [runTransfer, theCmd_opcode ha, c]
  have hexec : exec (.groupCopy slot) s = .next (runGroupCopy c t) := hrun ▸ acceptAs_transfer (by decide) ha hf hready
  refine ⟨fun hu => ?_, fun hu => ?_⟩
  · rw [hexec, runGroupCopy_empty hpass hu]
  · obtain ⟨hlength, hopened⟩ := State.sendCopies_range c ((u + 62) / 63) t
    obtain ⟨hmem, hlog, hcopies⟩ := State.sendCopies_leaves c (List.range ((u + 62) / 63)) t
    rw [runGroupCopy_opens hpass hu] at hexec
    exact ⟨_, _, hexec, congrArg (· ++ _) hcopies, hlength, hopened, hmem, congrArg Log.waiting hlog⟩

end Sys2Proof.Machine
end

section
/-! PROOF. Records in the log, the interrupts that they call for, the panel reset after PANEL_RESET's own record, and frames to the host (08 R311, R339, R341;
09 R348, R351, R357, R358, R364). -/

namespace Sys2Proof.Machine

/-! ### Records (R348, R357, R358) -/

section

variable {s : State} {r : Rec} {rest : List Rec}

/-- The panel with record `r` written and `rest` still waiting. -/
def State.recordWritten (s : State) (r : Rec) (rest : List Rec) : State :=
  { s.writeRecord r with
    log := { s.log with count := s.log.count + 1, waiting := rest }
    cmds := { s.cmds with inflight := s.cmds.inflight.filter (fun c => c.seq != r.seq) }
    irq := { s.irq with pendingLog := true, pendingFault := s.irq.pendingFault || r.fault,
                        unsignalled := s.irq.unsignalled ++ [(s.now, r.noIrq)], faultDue := s.irq.faultDue || r.fault } }

/-- With the log enabled, the link up and room, the first waiting record is written. -/
theorem State.writeWaiting_writes (hw : s.log.waiting = r :: rest) (he : s.log.enable = true) (hl : s.host.linkUp = true)
    (hroom : (s.log.count - s.log.cons).toNat < 4096) : s.writeWaiting = s.recordWritten r rest := by
  have hopen : s.log.enable ∧ s.host.linkUp ∧ s.logRoom := ⟨he, hl, decide_eq_true hroom⟩
  simp only [State.writeWaiting, hw, if_pos hopen]
  rfl

/-- After a record that is not PANEL_RESET's own the panel goes on. -/
theorem completionRecordWrite_goesOn (hw : s.log.waiting = r :: rest) (hwrites : s.writeWaiting = s.recordWritten r rest)
    (hother : r.opcode ≠ 0x702 ∨ r.status ≠ 0) : exec .completionRecordWrite s = .next (s.recordWritten r rest) := by
  have hno : ¬(r.opcode = 0x702 ∧ r.status = 0 ∧ (s.recordWritten r rest).log.waiting.length < (r :: rest).length) := fun h =>
    hother.elim (fun ho => ho h.1) (fun hs => hs h.2.1)
  show execCompletionRecordWrite s = _
  simp only [execCompletionRecordWrite, hw, hwrites, if_neg hno]

/-- After PANEL_RESET's own record the panel resets, under straps whose levels are free (R351; log entry 61). -/
theorem completionRecordWrite_resets (hw : s.log.waiting = r :: rest) (hwrites : s.writeWaiting = s.recordWritten r rest)
    (hopcode : r.opcode = 0x702) (hstatus : r.status = 0) :
    exec .completionRecordWrite s = .next (((s.recordWritten r rest).takeFree 1).panelReset (Config.strapPins s.free)) := by
  have hown : r.opcode = 0x702 ∧ r.status = 0 ∧ (s.recordWritten r rest).log.waiting.length < (r :: rest).length :=
    ⟨hopcode, hstatus, Nat.lt_succ_self rest.length⟩
  show execCompletionRecordWrite s = _
  simp only [execCompletionRecordWrite, hw, hwrites, if_pos hown]
  rfl

end

/-! ### Bring-up (R457, R474) -/

/-- The panel as bring-up samples the straps (R454, R455, Table 9.5). -/
def State.strapped (s : State) (straps : StrapPins) : State :=
  { s.cleared with
    straps := straps
    host := { s.cleared.host with width := if straps.hlw then 4 else 8 }
    power := { s.cleared.power with profile := straps.profile.toNat }
    boot := { s.cleared.boot with shown := (1, 4, 0, 0) } }

/-- Stage 0x01 begins, behind the error record that BOOT 2 and 3 make (Table 14.1). -/
theorem State.beginBringup_eq (s : State) (straps : StrapPins) :
    ∃ u, FailuresOnly (s.strapped straps) u ∧ s.beginBringup straps = u.beginStage 1 0 := by
  unfold State.beginBringup
  dsimp only
  split
  · exact ⟨_, State.addError_failuresOnly _ _, rfl⟩
  · exact ⟨_, .refl _, rfl⟩

/-- What bring-up begins with: the straps given, no memory, stage 0x01 alone under way, and host memory, fuses and flash as they were. -/
theorem State.beginBringup_leaves (s : State) (straps : StrapPins) :
    (s.beginBringup straps).hostMem = s.hostMem ∧ (s.beginBringup straps).boot.running = [(1, 0)] ∧ (s.beginBringup straps).straps = straps ∧
      (s.beginBringup straps).mem = [] ∧ (s.beginBringup straps).fuses = s.fuses ∧
      (s.beginBringup straps).flash = { s.flash with writing := none } := by
  obtain ⟨u, hu, h⟩ := s.beginBringup_eq straps
  obtain ⟨_, _, _, _, _, _, rfl⟩ := hu
  rw [h]
  exact ⟨rfl, rfl, rfl, rfl, rfl, rfl⟩

/-! ### Interrupts and frames (R339, R341, R364) -/

/-- While the link is down what goes to the host waits in frames. -/
theorem State.sendHost_waits {s : State} (h : s.host.linkUp = false) (bs : List Byte) :
    (s.sendHost bs).host = { s.host with out := s.host.out ++ hostFrames bs } := by
  simp [State.sendHost, HostPort.pump, h]

/-- A due interrupt names VECTOR, and no record before it is left to be signalled. -/
theorem exec_interruptMessage {s : State} (hdue : s.irqDue = true) (hl : s.host.linkUp = true) :
    exec .interruptMessage s = .next (State.sendHost { s with irq := { s.irq with
      sent := s.irq.sent ++ [s.irq.vector], unsignalled := [], faultDue := false } } (toLE 2 s.irq.vector)) :=
  if_pos ⟨hdue, hl⟩

/-! ### The statement -/

/-- Settles O42: the record and what follows it, the interrupt, and the frames, each by its law above. -/
theorem recordsAndInterrupts : Obligations.RecordsAndInterrupts := by
  unfold Obligations.RecordsAndInterrupts
  refine ⟨?written, ?interrupt, ?resets, ?frames⟩
  case written =>
    intro s r rest hw he hl hroom hother
    exact ⟨rfl, completionRecordWrite_goesOn hw (State.writeWaiting_writes hw he hl hroom) hother⟩
  case interrupt =>
    intro s hdue hl
    exact exec_interruptMessage hdue hl
  case resets =>
    intro s r rest hw he hl hroom hopcode hstatus hpwr hreset hshdn
    have hexec := completionRecordWrite_resets hw (State.writeWaiting_writes hw he hl hroom) hopcode hstatus
    rw [State.panelReset, if_pos ⟨hpwr, hreset, hshdn⟩] at hexec
    exact ⟨_, hexec, State.beginBringup_leaves _ _⟩
  case frames =>
    intro a bs s t
    exact ⟨rfl, fun hdown => State.sendHost_waits (s := { s with hostMem := writeBytes s.hostMem a bs }) hdown bs⟩

end Sys2Proof.Machine
end

section
/-! PROOF. The checks of acceptance, and the query lane, whose commands run in the step that accepts them (09 R347, R348, R353; Tables 9.8 and 9.10). -/

namespace Sys2Proof.Machine

/-! ### The checks of Table 9.8 -/

/-- What comes of a list of checks, each with its answer, in which the first to fail decides: the head's answer where it fails, else what comes of the rest. -/
theorem firstFailing_cons {α : Type} (fails : Bool) (x : α) (cs : List (Bool × α)) :
    (((fails, x) :: cs).find? (·.1)).map (·.2) = if fails then some x else (cs.find? (·.1)).map (·.2) := by
  cases fails <;> rfl

/-- The rows of Table 9.8: whether the check fails, with the status, DETAIL and record flags of its failure. -/
def State.acceptChecks (s : State) (c : Cmd) (b : List Byte) : List (Bool × Nat × Nat × Nat) :=
  let rsv := nonZero b 0x12 0x20
  [(!opcodeDefined c.opcode, 0x102, 0, 0), (bitsOf c.flags 7 3 != 0, 0x102, 3, 0), (rsv != [], 0x102, rsv.headD 0, 0),
   (s.cmds.inflight.any (fun d => d.tag == c.tag), 0x109, 2, 2), (!lengthOk c.opcode c.len || (!c.indirect && decide (224 < c.len)), 0x108, 4, 0),
   (c.indirect && c.len != 0 && c.payAddr % 64 != 0, 0x10A, 8, 0), (c.indirect && decide (2 ^ 20 < c.len), 0x10A, 4, 0),
   (!c.indirect && c.payAddr != 0, 0x10A, 8, 0), (c.dest != 0xFFFF && !(s.isManager && relayable c.opcode), 0x20B, 0, 0),
   (c.dest != 0xFFFF && decide (s.groupCount ≤ c.dest), 0x108, 0x10, 0)]

/-- Acceptance fails with the first row that does (R347). -/
theorem State.acceptFail_first (s : State) (c : Cmd) (b : List Byte) :
    s.acceptFail c b = ((s.acceptChecks c b).find? (·.1)).map (·.2) := by
  unfold State.acceptFail State.acceptChecks
  simp only [firstFailing_cons, List.find?_nil, Option.map_none]
  cases nonZero b 0x12 0x20 with
  | nil => simp [and_assoc]
  | cons x xs => simp

/-- A slot that fails acceptance is answered, and its command does nothing else. -/
theorem State.acceptSlot_refuses {s : State} {slot : Nat} {f : Nat × Nat × Nat} (h : s.acceptFail (s.slotCmd slot) (s.slotBytes slot) = some f) :
    s.acceptSlot slot = (s.takeSlot slot).completeAt (s.slotCmd slot) s.now f.1 0xFFFF f.2.1 0 0 f.2.2 := by
  simp only [State.acceptSlot, h]

/-! ### The query lane -/

/-- A query whose slot is accepted runs at once (R348). -/
theorem State.acceptSlot_query {slot op : Nat} {s : State} (hop : op ∈ queryOps) (ha : Accepts slot op s) :
    s.acceptSlot slot = runQuery (theCmd s slot) (s.takeSlot slot) := by
  obtain ⟨-, -, -, hopcode, hpass⟩ := ha
  simp only [State.acceptSlot, hpass, State.dispatch, hopcode, List.contains_iff_mem.2 hop, if_true]
  rfl

theorem acceptAs_query {slot op : Nat} {s : State} (hop : op ∈ queryOps) (ha : Accepts slot op s) :
    acceptAs op slot s = .next (runQuery (theCmd s slot) (s.takeSlot slot)) := by
  rw [← State.acceptSlot_query hop ha]
  obtain ⟨hslot, hacc, hhead, hopcode, -⟩ := ha
  simp [acceptAs, hacc, hhead, hopcode, Nat.not_le.mpr hslot]

/-- Where a query's payload holds HOST_ADDR (Table 9.10). -/
def queryAddrAt (op : Nat) : Nat := if op = 0x104 then 8 else if op = 0x601 then 32 else 0

/-- Every query checks the alignment of its HOST_ADDR before all else (R353; log entry 105). -/
theorem runQuery_misaligned {c : Cmd} (hop : c.opcode ∈ queryOps) (h : c.arg (queryAddrAt c.opcode) 8 % 64 ≠ 0) (s : State) :
    runQuery c s = answered s c 0x10A (c.at (queryAddrAt c.opcode)) 0 := by
  unfold runQuery
  split
  pick_goal 11
  · -- no further opcode is a query's
    simp_all [queryOps]
  all_goals
    rename_i hc
    rw [hc] at h ⊢
    exact if_pos h

/-- Settles O29: a refused slot is `State.acceptSlot_refuses`, the order of the checks `State.acceptFail_first`, and a misaligned query `runQuery_misaligned`. -/
theorem commandChecks : Obligations.CommandChecks := by
  unfold Obligations.CommandChecks
  refine ⟨?refused, ?order, ?misaligned⟩
  case refused =>
    intro slot s f c t hf
    exact State.acceptSlot_refuses hf
  case order =>
    intro c b s rsv checks
    exact s.acceptFail_first c b
  case misaligned =>
    intro slot op s c at_ hop ha hbad
    have hopcode : c.opcode = op := theCmd_opcode ha
    have hat : queryAddrAt c.opcode = at_ := by rw [hopcode]; rfl
    rw [State.acceptSlot_query hop ha, ← hat]
    exact runQuery_misaligned (by rwa [hopcode]) (by rwa [hat]) _

/-! ### Reports (R353) -/

/-- A block that a query writes, with its answer. -/
theorem State.writeHost_complete (s : State) (c : Cmd) (a : Nat) (block : List Byte) (n : Nat) :
    (s.writeHost a block).complete c 0 0 n = reported s c a block n := rfl

section

variable {c : Cmd} (h : c.arg 0 8 % 64 = 0) (s : State)

include h

theorem runQuery_info (hop : c.opcode = 0x001) : runQuery c s = reported s c (c.arg 0 8) s.infoBlock s.infoBlock.length := by
  have hrun : runQuery c s = runInfo c s := by simp [runQuery, hop]
  rw [hrun, runInfo, if_neg (not_not_intro h), State.reportTo, State.writeHost_complete]

theorem runQuery_healthCongestion (hop : c.opcode = 0x402) :
    runQuery c s = reported s c (c.arg 0 8) s.congestionMap s.congestionMap.length := by
  have hrun : runQuery c s = runHealthCongestion c s := by simp [runQuery, hop]
  rw [hrun, runHealthCongestion, if_neg (not_not_intro h), State.reportTo, State.writeHost_complete]

/-- The status words of the 64 ports take 512 B (Table 8.6). -/
theorem runQuery_healthPorts (hop : c.opcode = 0x403) :
    runQuery c s = reported s c (c.arg 0 8) ((List.range 64).flatMap (fun p => toLE 8 (s.portWord p))) 512 := by
  have hrun : runQuery c s = runHealthPorts c s := by simp [runQuery, hop]
  have hlength : ((List.range 64).flatMap (fun p => toLE 8 (s.portWord p))).length = 512 := by simp [toLE_length]
  rw [hrun, runHealthPorts, if_neg (not_not_intro h), State.reportTo, State.writeHost_complete, hlength]

theorem runQuery_healthUnits (hop : c.opcode = 0x404) : runQuery c s = reported s c (c.arg 0 8) s.unitsBlock s.unitsBlock.length := by
  have hrun : runQuery c s = runHealthUnits c s := by simp [runQuery, hop]
  rw [hrun, runHealthUnits, if_neg (not_not_intro h), State.reportTo, State.writeHost_complete]

theorem runQuery_healthSensors (hop : c.opcode = 0x405) : runQuery c s = reported s c (c.arg 0 8) s.sensorBlock 4872 := by
  have hrun : runQuery c s = runHealthSensors c s := by simp [runQuery, hop]
  rw [hrun, runHealthSensors, if_neg (not_not_intro h), State.writeHost_complete]

end

/-- Settles O26: each query runs as its slot is accepted, and an aligned one reports. -/
theorem reportsAnswerAtOnce : Obligations.ReportsAnswerAtOnce := by
  unfold Obligations.ReportsAnswerAtOnce
  intro slot s c t a haligned
  refine ⟨fun ha => ?info, fun ha => ?congestion, fun ha => ?ports, fun ha => ?units, fun ha => ?sensors⟩
  case info => exact runQuery_info haligned t (theCmd_opcode ha) ▸ acceptAs_query (by decide) ha
  case congestion => exact runQuery_healthCongestion haligned t (theCmd_opcode ha) ▸ acceptAs_query (by decide) ha
  case ports => exact runQuery_healthPorts haligned t (theCmd_opcode ha) ▸ acceptAs_query (by decide) ha
  case units => exact runQuery_healthUnits haligned t (theCmd_opcode ha) ▸ acceptAs_query (by decide) ha
  case sensors => exact runQuery_healthSensors haligned t (theCmd_opcode ha) ▸ acceptAs_query (by decide) ha

end Sys2Proof.Machine
end

section
/-! PROOF. DMA_WRITE and DMA_READ as they start, and a transfer command whose stacks are not ready (09 R354, R355; 14 R463). -/

namespace Sys2Proof.Machine

section

variable {s : State} {c : Cmd} {write : Bool}

/-- The transfer that a command opens: every piece to come, nothing moved (R354). -/
def State.opened (s : State) (c : Cmd) (write : Bool) : Xfer :=
  { cmd := c, write := write, hostAddr := c.arg 0 8, panelAddr := c.arg 8 8, count := c.arg 0x10 4, hfmt := c.arg 0x14 1 % 16,
    pfmt := c.arg 0x14 1 / 16, rm := c.arg 0x15 1 % 8, sat := (c.arg 0x15 1).testBit 3,
    pieces := s.piecesOf (c.arg 8 8) (unitsFor (c.arg 0x14 1 / 16) (c.arg 0x10 4)) (c.arg 0x14 1 / 16) (c.arg 0x10 4), words := [], status := 0,
    detail := 0 }

/-- A transfer of no elements is answered at once, with a word that shows DONE alone (R355). -/
theorem State.startXfer_empty (hpass : s.dmaFail c write = none) (hn : c.arg 0x10 4 = 0) :
    s.startXfer c write = s.completeAt c s.now 0 0xFFFF 0 0 (xferWord false false false 0) 0 := by
  simp only [State.startXfer, hpass, if_pos hn]

/-- A transfer of some elements joins those under way. -/
theorem State.startXfer_opens (hpass : s.dmaFail c write = none) (hn : c.arg 0x10 4 ≠ 0) :
    s.startXfer c write = { s with cmds := { s.cmds with xfers := s.cmds.xfers ++ [s.opened c write] } } := by
  simp only [State.startXfer, hpass, if_neg hn]
  rfl

end

/-- A command alone in the transfer lane whose stacks are not ready stays in the queue (R463). -/
theorem State.runTransfers_waits {s : State} {c : Cmd} (hwaits : s.stacksWait (s.started c) = true) :
    State.runTransfers [c] { s with cmds := { s.cmds with xferQueue := [c] } } = { s with cmds := { s.cmds with xferQueue := [c] } } := by
  have hstacks : State.stacksWait { s with cmds := { s.cmds with xferQueue := [c] } } (s.started c) = true :=
    (s.stacksWait_withCmds _ _).trans hwaits
  have hstarted : State.started { s with cmds := { s.cmds with xferQueue := [c] } } c = s.started c := rfl
  simp only [State.runTransfers, hstarted, hstacks, if_true, ite_self]

/-- A transfer command that is accepted with nothing before it in its lane joins the queue, and what can start then does. -/
theorem State.acceptSlot_transfer {slot op : Nat} {s : State} (hop : op ∈ transferOps) (ha : Accepts slot op s) (hf : TransferFree s) :
    s.acceptSlot slot = State.runTransfers [s.slotCmd slot]
      { s.takeSlot slot with cmds := { (s.takeSlot slot).cmds with xferQueue := [s.slotCmd slot] } } := by
  obtain ⟨-, -, -, hopcode, hpass⟩ := ha
  obtain ⟨hquery, htransfer⟩ := transferOps_lane op hop
  obtain ⟨hlane, hqueue, -⟩ := hf
  simp only [State.acceptSlot, hpass]
  rw [State.dispatch, hopcode, hquery, htransfer, if_neg Bool.false_ne_true, if_pos rfl, show (s.takeSlot slot).cmds.xferQueue = [] from hqueue,
    List.nil_append, State.runLanes_transfers (by exact hlane)]

/-- A DMA command that may start and passes Table 9.13 is answered at once or opens its transfer. -/
theorem acceptAs_startXfer {slot op : Nat} {write : Bool} {s : State} (hop : op ∈ transferOps) (ha : Accepts slot op s) (hf : TransferFree s)
    (hready : (s.takeSlot slot).stacksWait (theCmd s slot) = false)
    (hrun : runTransfer (theCmd s slot) (s.takeSlot slot) = (s.takeSlot slot).startXfer (theCmd s slot) write)
    (hpass : (s.takeSlot slot).dmaFail (theCmd s slot) write = none) :
    let c := theCmd s slot; let t := s.takeSlot slot
    (c.arg 0x10 4 = 0 → acceptAs op slot s = .next (t.completeAt c t.now 0 0xFFFF 0 0 (xferWord false false false 0) 0)) ∧
      (c.arg 0x10 4 ≠ 0 → acceptAs op slot s = .next { t with cmds := { t.cmds with xfers := t.cmds.xfers ++ [t.opened c write] } }) := by
  have hexec := acceptAs_transfer hop ha hf hready
  rw [hrun] at hexec
  exact ⟨fun hn => hexec.trans (congrArg Host.Outcome.next (State.startXfer_empty hpass hn)),
    fun hn => hexec.trans (congrArg Host.Outcome.next (State.startXfer_opens hpass hn))⟩

/-- Settles O38: a command that may start is `State.startXfer` in its lane, and one whose stacks are not ready stays in the queue. -/
theorem transfersStart : Obligations.TransfersStart := by
  unfold Obligations.TransfersStart
  refine ⟨?writes, ?reads, ?waits⟩
  case writes =>
    intro slot s c t pf n ha hf hready hpass
    exact acceptAs_startXfer (by decide) ha hf hready (by simp [runTransfer, theCmd_opcode ha, runDmaWrite]) hpass
  case reads =>
    intro slot s c t pf n ha hf hready hpass
    exact acceptAs_startXfer (by decide) ha hf hready (by simp [runTransfer, theCmd_opcode ha, runDmaRead]) hpass
  case waits =>
    intro slot op s c t ha hf hop hwaits
    exact (State.acceptSlot_transfer hop ha hf).trans (State.runTransfers_waits hwaits)

end Sys2Proof.Machine
end

section
/-! PROOF. COMPUTE_RESET as it starts, and the records by which PANEL_RESET ends what is in flight (09 R351, R355; 14 R475). -/

namespace Sys2Proof.Machine

/-- With no transfer command waiting none starts. -/
theorem lanesOn_of_no_queue {t : State} (h : t.cmds.xferQueue = []) : lanesOn t = t := by
  rw [lanesOn, h]
  rfl

/-- A COMPUTE_RESET with no reserved bit set waits for its first frame tick (R475). -/
theorem runComputeReset_begins {c : Cmd} (h : bitsOf (c.arg 0 4) 31 1 = 0) (s : State) :
    runComputeReset c s = { s with boot := { s.boot with resetTag := some (c.tag, (c.arg 0 4).testBit 0), resetAt := some (s.now + 1) } } :=
  if_neg (not_not_intro h)

/-! ### Transfers that end with 0x020F -/

/-- A transfer that PANEL_RESET ends: no piece is left, and its words cover the pieces that have run (R355). -/
def Xfer.reset (x : Xfer) : Xfer :=
  { x with status := 0x20F, detail := 0, pieces := [], words := x.words ++ (x.pieces.filter (·.running)).map (fun p => (p.first, p.word)) }

theorem State.abortXfer_reset (s : State) (x : Xfer) : s.abortXfer x 0x20F 0 = (s.dropPieces x).endXfer x.reset := rfl

@[simp] theorem Xfer.reset_ofStep (x : Xfer) : x.reset.ofStep = x.ofStep := rfl

/-- The record of a host's transfer that PANEL_RESET ends. -/
def State.resetRec (s : State) (x : Xfer) : Rec := { recOf s x.cmd 0x20F 0 x.moved with xferWord := mergeWords x.reset.words }

/-- From `s` to `t` the records `rs` join those that wait; commands in flight, the transfer queue, the clock and memory stay. -/
structure EndsWith (rs : List Rec) (s t : State) : Prop where
  waiting : t.log.waiting = s.log.waiting ++ rs
  inflight : t.cmds.inflight = s.cmds.inflight
  queue : t.cmds.xferQueue = s.cmds.xferQueue
  clock : t.clock = s.clock
  mem : t.mem = s.mem
  hostMem : t.hostMem = s.hostMem

theorem EndsWith.trans {rs rs' : List Rec} {s t u : State} (h : EndsWith rs s t) (h' : EndsWith rs' t u) : EndsWith (rs ++ rs') s u where
  waiting := by rw [h'.waiting, h.waiting, List.append_assoc]
  inflight := h'.inflight.trans h.inflight
  queue := h'.queue.trans h.queue
  clock := h'.clock.trans h.clock
  mem := h'.mem.trans h.mem
  hostMem := h'.hostMem.trans h.hostMem

/-- The time alone decides what a transfer's record says of the panel. -/
theorem State.resetRec_congr {s t : State} (h : t.clock = s.clock) : t.resetRec = s.resetRec := by
  funext x
  simp only [State.resetRec, recOf, State.now, h]

/-- What leaves with a transfer's pieces is in the fabric. -/
theorem State.dropPieces_eq (s : State) (x : Xfer) : ∃ f, s.dropPieces x = { s with fabric := f } := ⟨_, rfl⟩

/-- A transfer that PANEL_RESET ends makes its record; one of the step's own makes none. -/
theorem State.abortXfer_endsWith (s : State) (x : Xfer) :
    EndsWith (if x.ofStep then [] else [s.resetRec x]) s (s.abortXfer x 0x20F 0) := by
  obtain ⟨f, hf⟩ := s.dropPieces_eq x
  rw [State.abortXfer_reset, hf]
  cases hstep : x.ofStep with
  | false =>
    rw [State.endXfer_host (x := x.reset) rfl (x.reset_ofStep.trans hstep)]
    exact ⟨rfl, rfl, rfl, rfl, rfl, rfl⟩
  | true =>
    rw [State.endXfer_ofStep (x := x.reset) rfl (x.reset_ofStep.trans hstep), State.endStepXfer_other (x := x.reset) (show 0x20F ≠ 0x404 by decide)]
    exact ⟨(List.append_nil _).symm, rfl, rfl, rfl, rfl, rfl⟩

/-- PANEL_RESET ends every transfer, in order. -/
theorem State.abortXfers_endsWith (xs : List Xfer) (s : State) :
    EndsWith ((xs.filter (fun x => !x.ofStep)).map s.resetRec) s (forEach xs (fun x s => s.abortXfer x 0x20F 0) s) := by
  induction xs generalizing s with
  | nil => exact ⟨(List.append_nil _).symm, rfl, rfl, rfl, rfl, rfl⟩
  | cons x xs ih =>
    have hx := s.abortXfer_endsWith x
    have hxs := ih (s.abortXfer x 0x20F 0)
    rw [State.resetRec_congr hx.clock] at hxs
    rw [forEach_cons]
    cases hstep : x.ofStep with
    | false => simpa [hstep] using hx.trans hxs
    | true => simpa [hstep] using hx.trans hxs

/-! ### The other commands -/

/-- Commands that end with one status leave their records, in order, and nothing else. -/
theorem forEach_complete (ds : List Cmd) (status : Nat) (s : State) :
    forEach ds (fun d s => s.complete d status 0 0) s =
      { s with log := { s.log with waiting := s.log.waiting ++ ds.map (fun d => recOf s d status 0 0) } } := by
  induction ds generalizing s with
  | nil => simp
  | cons d ds ih =>
    rw [forEach_cons, ih, List.map_cons, List.append_cons]
    rfl

/-- The commands in flight that PANEL_RESET `c` has yet to end: neither itself nor one whose record is made. -/
def State.unanswered (s : State) (c : Cmd) : List Cmd :=
  s.cmds.inflight.filter (fun d => d.seq != c.seq && !(s.log.waiting.any (fun r => r.seq == d.seq)))

/-- A command in flight but PANEL_RESET itself has its record made or is yet to be ended. -/
theorem State.answered_or_unanswered {s : State} {c d : Cmd} (hd : d ∈ s.cmds.inflight) (hne : d.seq ≠ c.seq) :
    (∃ r ∈ s.log.waiting, r.seq = d.seq) ∨ d ∈ s.unanswered c := by
  by_cases hmade : s.log.waiting.any (fun r => r.seq == d.seq) = true
  · obtain ⟨r, hr, hseq⟩ := List.any_eq_true.1 hmade
    exact .inl ⟨r, hr, beq_iff_eq.1 hseq⟩
  · exact .inr (List.mem_filter.2 ⟨hd, by simp [hne, hmade]⟩)

/-- The panel once PANEL_RESET has ended the transfers. -/
def State.xfersEnded (s : State) : State :=
  forEach s.cmds.xfers (fun x s => s.abortXfer x 0x20F 0) { s with cmds := { s.cmds with xferQueue := [] } }

theorem State.xfersEnded_endsWith (s : State) :
    EndsWith ((s.cmds.xfers.filter (fun x => !x.ofStep)).map s.resetRec) { s with cmds := { s.cmds with xferQueue := [] } } s.xfersEnded := by
  have h := State.abortXfers_endsWith s.cmds.xfers { s with cmds := { s.cmds with xferQueue := [] } }
  rwa [show State.resetRec { s with cmds := { s.cmds with xferQueue := [] } } = s.resetRec from State.resetRec_congr rfl] at h

/-- PANEL_RESET ends the transfers, then the other commands in flight, and makes its own record last (R351). -/
theorem runPanelReset_ends (c : Cmd) (s : State) :
    runPanelReset c s = { s.xfersEnded with log := { s.xfersEnded.log with
      waiting := s.xfersEnded.log.waiting ++ (s.xfersEnded.unanswered c).map (fun d => recOf s.xfersEnded d 0x20F 0 0) ++
        [recOf s.xfersEnded c 0 0 0] } } := by
  show (forEach (s.xfersEnded.unanswered c) (fun d s => s.complete d 0x20F 0 0) s.xfersEnded).complete c 0 0 0 = _
  rw [forEach_complete]
  rfl

/-- The records of what PANEL_RESET `c` ends: the host's transfers, then the other commands in flight. -/
def State.endedRecs (s : State) (c : Cmd) : List Rec :=
  (s.cmds.xfers.filter (fun x => !x.ofStep)).map s.resetRec ++ (s.xfersEnded.unanswered c).map (fun d => recOf s d 0x20F 0 0)

theorem runPanelReset_waiting (c : Cmd) (s : State) :
    (runPanelReset c s).log.waiting = s.log.waiting ++ s.endedRecs c ++ [recOf s c 0 0 0] := by
  have hrec : ∀ d status, recOf s.xfersEnded d status 0 0 = recOf s d status 0 0 := fun d status => by
    simp only [recOf, State.now, s.xfersEnded_endsWith.clock]
  rw [runPanelReset_ends]
  simp only [hrec, s.xfersEnded_endsWith.waiting, State.endedRecs, List.append_assoc]

theorem State.endedRecs_status {s : State} {c : Cmd} {r : Rec} (h : r ∈ s.endedRecs c) : r.status = 0x20F := by
  obtain h | h := List.mem_append.1 h
  · obtain ⟨x, -, rfl⟩ := List.mem_map.1 h
    rfl
  · obtain ⟨d, -, rfl⟩ := List.mem_map.1 h
    rfl

/-- Each host's transfer has its record among them. -/
theorem State.resetRec_mem_endedRecs {s : State} {x : Xfer} (hx : x ∈ s.cmds.xfers) (hhost : x.ofStep = false) (c : Cmd) :
    s.resetRec x ∈ s.endedRecs c :=
  List.mem_append_left _ (List.mem_map_of_mem (List.mem_filter.2 ⟨hx, by simp [hhost]⟩))

/-- Every command in flight but PANEL_RESET itself has a record then, made before or now. -/
theorem State.exists_record_of_inflight {s : State} {c d : Cmd} (hd : d ∈ s.cmds.inflight) (hne : d.seq ≠ c.seq) :
    ∃ r ∈ s.log.waiting ++ s.endedRecs c, r.seq = d.seq := by
  have hends := s.xfersEnded_endsWith
  obtain ⟨r, hr, hseq⟩ | hd := State.answered_or_unanswered (s := s.xfersEnded) (hends.inflight ▸ hd) hne
  · rw [hends.waiting] at hr
    exact ⟨r, by rw [State.endedRecs, ← List.append_assoc]; exact List.mem_append_left _ hr, hseq⟩
  · exact ⟨_, List.mem_append_right _ (List.mem_append_right _ (List.mem_map_of_mem hd)), rfl⟩

/-- A PANEL_RESET whose lane is free runs at once, and no transfer command is left to start. -/
theorem exec_panelReset {slot : Nat} {s : State} (ha : Accepts slot 0x702 s) (hl : LaneFree slot s) :
    exec (.panelReset slot) s = .next (runPanelReset (theCmd s slot) (inLane s slot)) := by
  have hrun : runControl (theCmd s slot) (inLane s slot) = runPanelReset (theCmd s slot) (inLane s slot) := by simp [runControl, theCmd_opcode ha]
  have hqueue : (runPanelReset (theCmd s slot) (inLane s slot)).cmds.xferQueue = [] := by
    rw [runPanelReset_ends]
    exact (inLane s slot).xfersEnded_endsWith.queue
  refine (acceptAs_control (by decide) ha hl).trans ?_
  rw [hrun, lanesOn_of_no_queue hqueue]

/-- Settles O36: each reset runs in its lane; what a PANEL_RESET leaves is `runPanelReset_ends`, and its records are `runPanelReset_waiting`. -/
theorem resetsBegin : Obligations.ResetsBegin := by
  unfold Obligations.ResetsBegin
  intro slot s c t hl
  refine ⟨fun ha hrsv => ?compute, fun ha hnone => ?nothing, fun ha => ?transfers⟩
  case compute =>
    have hrun : runControl c t = runComputeReset c t := by simp [runControl, theCmd_opcode ha, c]
    rw [runComputeReset_begins hrsv] at hrun
    exact (acceptAs_control (by decide) ha hl).trans (congrArg (fun x => Host.Outcome.next (lanesOn x)) hrun)
  case nothing =>
    have hended : t.xfersEnded = { t with cmds := { t.cmds with xferQueue := [] } } := by
      rw [State.xfersEnded, show t.cmds.xfers = [] from hnone, forEach_nil]
    refine (exec_panelReset ha hl).trans (congrArg Host.Outcome.next ((runPanelReset_ends c t).trans ?_))
    rw [hended]
    rfl
  case transfers =>
    have hends := t.xfersEnded_endsWith
    have hrun := runPanelReset_ends c t
    refine ⟨_, t.endedRecs c, exec_panelReset ha hl, runPanelReset_waiting c t, fun r => State.endedRecs_status, ?inflight, ?words,
      (congrArg State.mem hrun).trans hends.mem, (congrArg State.hostMem hrun).trans hends.hostMem⟩
    case inflight =>
      intro d hd hne
      exact State.exists_record_of_inflight (s := t) hd hne
    case words =>
      intro x hx hhost
      exact ⟨t.resetRec x, State.resetRec_mem_endedRecs (s := t) hx hhost c, rfl, rfl, rfl⟩

end Sys2Proof.Machine
end

section
/-! PROOF. The host window: the log's registers, mailbox slots, refused accesses, and reads (09 R343, R346, R347, R358, R359; 14 R464). -/

namespace Sys2Proof.Machine

/-! ### Accesses with the link up -/

section

variable {s : State} {off : Nat} {bs : List Byte}

/-- An access that R343 refuses. -/
theorem exec_window_refused {wr : Bool} (hl : s.host.linkUp = true) (hbad : s.accessOk wr off bs.length = false) :
    exec (.hostWindowWrite wr off bs) s = .next (s.badAccess wr bs.length) := by
  show execHostWindowWrite wr off bs s = _
  simp [execHostWindowWrite, hl, hbad]

/-- A write within a mailbox slot. -/
theorem exec_window_slot (hl : s.host.linkUp = true) (hok : s.accessOk true off bs.length = true) (hin : inSlots off bs.length = true) :
    exec (.hostWindowWrite true off bs) s = .next (s.writeSlot off bs) := by
  show execHostWindowWrite true off bs s = _
  simp [execHostWindowWrite, hl, hok, hin]

/-- A read that R343 accepts. -/
theorem exec_window_read (hl : s.host.linkUp = true) (hok : s.accessOk false off bs.length = true) :
    exec (.hostWindowWrite false off bs) s =
      .next (State.sendHost { s with host := { s.host with readData := s.windowRead off bs.length } } (s.windowRead off bs.length)) := by
  show execHostWindowWrite false off bs s = _
  simp [execHostWindowWrite, hl, hok]

end

/-! ### Writes of a mailbox slot -/

section

variable {s : State} {off : Nat} {bs : List Byte}

/-- While the host owns a slot its bytes are written, and a slot whose OWN that sets joins the order of acceptance (R346, R347). -/
theorem State.writeSlot_free (hown : s.ownBit ((off - 0x1000) / 256) = false) :
    let slot := (off - 0x1000) / 256; let slots := writeBytes s.host.slots (off - 0x1000) bs
    s.writeSlot off bs = { s with host := { s.host with
      slots := slots, acceptQ := if (tget 0 slots (slot * 256 + 3)).getLsbD 0 then s.host.acceptQ ++ [slot] else s.host.acceptQ } } := by
  rw [State.writeSlot, if_neg (by simp [hown]), if_neg (by simp [hown])]
  dsimp only
  split
  next hset => rw [if_pos (by exact hset)]
  next hclear => rw [if_neg (by exact hclear)]

/-- A write of a slot that the panel owns is discarded (R346). -/
theorem State.writeSlot_owned (hown : s.ownBit ((off - 0x1000) / 256) = true)
    (hother : ¬((off - 0x1000) / 256 = 0 ∧ off + bs.length ≤ 0x1004 ∧ s.boot.recovery = true ∧ s.boot.running.contains (3, 0) = true)) :
    s.writeSlot off bs = { s with host := { s.host with ownedWrite := true } } := by
  rw [State.writeSlot, if_neg (fun h => hother h.2), if_pos hown]

/-- The starter in recovery takes a rewrite of the first bytes of slot 0, which it reads again (R464). -/
theorem State.writeSlot_recovery (hown : s.ownBit ((off - 0x1000) / 256) = true) (hslot : (off - 0x1000) / 256 = 0) (hfirst : off + bs.length ≤ 0x1004)
    (hrec : s.boot.recovery = true) (hrun : s.boot.running.contains (3, 0) = true) :
    (s.writeSlot off bs).host.slots = writeBytes s.host.slots (off - 0x1000) bs ∧ (s.writeSlot off bs).host.ownedWrite = s.host.ownedWrite ∧
      (s.writeSlot off bs).boot.reread = true := by
  rw [State.writeSlot, if_pos ⟨hown, hslot, hfirst, hrec, hrun⟩]
  dsimp only
  split
  · exact ⟨rfl, rfl, rfl⟩
  · exact ⟨rfl, rfl, rfl⟩

end

/-- Settles O41: the log's two registers, a slot write by who owns the slot, and an access that is refused or read, each by its law above. -/
theorem hostWindow : Obligations.HostWindow := by
  unfold Obligations.HostWindow
  refine ⟨?registers, ?slots, ?refused, ?reads⟩
  case registers =>
    intro s hl
    exact ⟨fun v => if_pos hl, fun v => if_pos hl⟩
  case slots =>
    intro off bs s hl hok hin slot slots
    rw [exec_window_slot hl hok hin]
    refine ⟨fun hown => congrArg Host.Outcome.next (State.writeSlot_free hown),
      fun hown hother => congrArg Host.Outcome.next (State.writeSlot_owned hown hother), fun hown hslot hfirst hrec hrun => ?_⟩
    exact ⟨_, rfl, State.writeSlot_recovery hown hslot hfirst hrec hrun⟩
  case refused =>
    intro wr off bs s hl hbad
    exact exec_window_refused hl hbad
  case reads =>
    intro off bs s hl hok
    exact exec_window_read hl hok

end Sys2Proof.Machine
end

section
/-! PROOF. The host link: training, the lanes that it runs on, and its loss (09 R340, R342; Table 9.17). -/

namespace Sys2Proof.Machine

/-! ### Records -/

/-- An event that finds room makes its record (R363). -/
theorem State.event_room {s : State} (h : s.eventsWaiting < 64) (code detail : Nat) (fault : Bool) :
    s.event code detail fault = s.pushRec
      { opcode := code, tag := 0, flags := 1, status := 0, slot := 0xFFFF, detail := detail, timebase := s.now, xferWord := 0, result := 0,
        noIrq := false, fault := fault } :=
  if_neg (Nat.not_le.2 h)

/-- An error is in the log once it is added: a full log drops its oldest record (R487). -/
theorem State.errRec_mem_addError (s : State) (e : ErrIn) : s.errRec e ∈ (s.addError e).units.errors := by
  have hnew : ∀ kept : List ErrRec, s.errRec e ∈ kept ++ [s.errRec e] := fun kept => List.mem_append_right _ (List.mem_singleton.2 rfl)
  unfold State.addError
  dsimp only
  split
  · exact hnew _
  · simp only [State.event_units]
    exact hnew _

/-- What fails the running step is in the error log with CLASS 1 (R486, R487). -/
theorem State.failWith_records {s : State} (hrun : s.isRunning = true) (e : ErrIn) (detail : Nat) :
    ∃ r ∈ (s.failWith e detail).units.errors, r.unit = e.unit ∧ r.code = e.code ∧ r.cls = 1 := by
  rw [State.failWith, if_pos hrun, State.failStep_units]
  exact ⟨_, State.errRec_mem_addError _ _, rfl, rfl, rfl⟩

/-- With no step running there is nothing to fail. -/
theorem State.failWith_idle {s : State} (h : s.isRunning = false) (e : ErrIn) (detail : Nat) : s.failWith e detail = s := by
  rw [State.failWith, if_neg (by simp [h])]

theorem State.failWith_failuresOnly (s : State) (e : ErrIn) (detail : Nat) : FailuresOnly s (s.failWith e detail) := by
  unfold State.failWith
  split
  · exact (s.addError_failuresOnly _).trans (State.failStep_failuresOnly _ _ _ _ _)
  · exact .refl s

theorem FailuresOnly.host {s t : State} (h : FailuresOnly s t) : t.host = s.host := by obtain ⟨_, _, _, _, _, _, rfl⟩ := h; rfl
theorem FailuresOnly.hostMem {s t : State} (h : FailuresOnly s t) : t.hostMem = s.hostMem := by obtain ⟨_, _, _, _, _, _, rfl⟩ := h; rfl
theorem FailuresOnly.clock {s t : State} (h : FailuresOnly s t) : t.clock = s.clock := by obtain ⟨_, _, _, _, _, _, rfl⟩ := h; rfl

/-! ### Training (R340) -/

section

variable {s : State} {good : BitVec 8}

/-- The link trains once the starter runs and enough lanes are good. -/
theorem exec_hostLinkTraining_trains {m : BitVec 8} (hstarter : (s.boot.done.contains (1, 0) || (s.boot.haltA && s.fuses.romOk)) = true)
    (hm : s.linkLanes good = some m) : exec (.hostLinkTraining good) s = .next (s.linkTrained m) := by
  show execHostLinkTraining good s = _
  simp only [execHostLinkTraining, hstarter, hm]
  rfl

/-- With neither group of four lanes whole the link is down. -/
theorem exec_hostLinkTraining_fails (hstarter : (s.boot.done.contains (1, 0) || (s.boot.haltA && s.fuses.romOk)) = true)
    (hnone : s.linkLanes good = none) : exec (.hostLinkTraining good) s = exec .hostLinkDown s := by
  show execHostLinkTraining good s = execHostLinkDown s
  simp only [execHostLinkTraining, hstarter, hnone]
  rfl

/-- Training makes the record of event 0xE007, and the link is up on its lanes (Table 9.17; log entry 81). -/
theorem State.linkTrained_eq (m : BitVec 8) (h : s.eventsWaiting < 64) :
    s.linkTrained m = State.pushRec { s with host := HostPort.pump { s.host with
      linkUp := true, width := lanesOf m, lanes := m, retrained := true, link := s.host.trainedLink } }
      { opcode := 0xE007, tag := 0, flags := 1, status := 0, slot := 0xFFFF, detail := lanesOf m, timebase := s.now, xferWord := 0, result := 0,
        noIrq := false, fault := decide (lanesOf m < s.host.width) } :=
  State.event_room (by exact h) _ _ _

/-- With no lane retired the good lanes alone choose the group (R339, R340). -/
theorem State.linkLanes_unretired (h : s.host.link.laneRetired = 0) :
    s.linkLanes good = if good = 0xFF ∧ s.straps.hlw = false then some 0xFF else if good &&& 0x0F = 0x0F then some 0x0F
      else if good &&& 0xF0 = 0xF0 ∧ s.straps.hlw = false then some 0xF0 else none := by
  have hgood : good &&& ~~~(0 : BitVec 8) = good := BitVec.and_allOnes
  simp only [State.linkLanes, h, hgood, Bool.not_eq_true']

end

/-! ### Loss (R342) -/

section

variable {s : State}

/-- The panel with its link down: what is not acknowledged waits before what was not sent. -/
def State.unlinked (s : State) : State :=
  { s with host := { s.host with
    linkUp := false, lanes := 0, out := s.host.link.replayBuf.map (·.2) ++ s.host.out, link := { s.host.link with replayBuf := [], resent := [] } } }

/-- With no piece under way the loss of the link ends no transfer; it fails a step whose inputs or outputs are moving. -/
theorem State.linkDown_eq (h : s.cmds.xfers.any (fun x => x.pieces.any (fun p => p.running)) = false) :
    s.linkDown = if s.stepMoves then s.unlinked.failWith { unit := unitId 6 0x80 0, code := 0x407, cls := 1 } 0 else s.unlinked := by
  have hnone : s.cmds.xfers.filter (fun x => x.pieces.any (fun p => p.running)) = [] :=
    List.filter_eq_nil_iff.2 fun x hx hr => absurd h (by simpa using ⟨x, hx, by simpa using hr⟩)
  show (if s.stepMoves then (forEach (s.cmds.xfers.filter _) _ s.unlinked).failWith _ 0 else forEach (s.cmds.xfers.filter _) _ s.unlinked) = _
  rw [hnone]
  rfl

/-- A step is moving inputs that nothing holds back, or outputs once its workers are done (R68, R351). -/
theorem State.stepMoves_iff (hrun : s.isRunning = true) (hmoving : s.stepMoving = true) :
    s.stepMoves = true ↔ (s.step.phase = .inputs ∧ s.inputsBlocked = false) ∨ (s.step.phase = .outputs ∧ s.workersDone = true) := by
  simp [State.stepMoves, hrun, hmoving]

theorem exec_hostLinkDown (hl : s.host.linkUp = true) : exec .hostLinkDown s = .next s.linkDown := if_pos hl

/-- A link that goes down with no transfer under way takes nothing else with it. -/
theorem State.linkDown_idle (h : s.cmds.xfers = []) : s.linkDown = s.unlinked := by
  have hstill : s.stepMoves = false := by simp [State.stepMoves, State.stepMoving, h]
  rw [State.linkDown_eq (by rw [h]; rfl), hstill]
  rfl

/-- What a link that goes down leaves of a running step whose transfers have no piece under way. -/
theorem State.linkDown_leaves (h : s.cmds.xfers.any (fun x => x.pieces.any (fun p => p.running)) = false) (hrun : s.isRunning = true) :
    FailuresOnly s.unlinked s.linkDown ∧
    s.linkDown.step.faults =
      (if s.stepMoves then s.step.faults ++ [{ frame := s.step.frame, status := 0x407, core := 0xFFFF, detail := 0 }] else s.step.faults) ∧
    (s.stepMoves = true → ∃ e ∈ s.linkDown.units.errors, e.unit = unitId 6 0x80 0 ∧ e.code = 0x407 ∧ e.cls = 1) := by
  have hrun' : s.unlinked.isRunning = true := hrun
  rw [State.linkDown_eq h]
  cases s.stepMoves with
  | true => exact ⟨State.failWith_failuresOnly _ _ _, (State.failWith_running hrun' _ _).2.2, fun _ => State.failWith_records hrun' _ _⟩
  | false => exact ⟨.refl _, rfl, fun hmoves => by simp at hmoves⟩

end

end Sys2Proof.Machine
end

section
/-! PROOF. The reference, the clock tree, beacons and crossing FIFOs, and droops (11 R390 to R404, Table 11.2). -/

namespace Sys2Proof.Machine

/-! ### The reference (Table 11.2) -/

section

variable {s : State}

/-- The reference's loss begins holdover, with an error record. -/
theorem exec_referenceLost (h : s.clock.ref = .locked) :
    exec .referenceLost s = .next (State.addError { s with clock := { s.clock with ref := .holdover, refLostAt := s.now, refExpired := false } }
      { unit := hubUnit, code := 0x1050, cls := 3 }) := by
  show execReferenceLost s = _
  simp only [execReferenceLost, h]

/-- Its return ends holdover, with an error record. -/
theorem exec_referenceReturned (h : s.clock.ref = .holdover) :
    exec .referenceReturned s = .next (State.addError { s with clock := { s.clock with ref := .locked, refExpired := false } }
      { unit := hubUnit, code := 0x1051, cls := 3 }) := by
  show execReferenceReturned s = _
  simp only [execReferenceReturned, h]

/-- The panel 100 ms after it lost its reference. -/
def State.holdoverExpired (s : State) : State :=
  { s.advanceTo (s.clock.refLostAt + 100 * 10 ^ 6) with
    clock := { (s.advanceTo (s.clock.refLostAt + 100 * 10 ^ 6)).clock with refExpired := true } }

/-- After 100 ms of holdover a running step fails with 0x0408. -/
theorem exec_referenceHoldoverExpire (href : s.clock.ref = .holdover) (hfirst : s.clock.refExpired = false) :
    exec .referenceHoldoverExpire s = .next (s.holdoverExpired.failWith { unit := refUnit, code := 0x408, cls := 1 } 0) :=
  if_pos ⟨href, hfirst⟩

/-- The step's failures after a failure that only a running step meets. -/
theorem State.failWith_faults (s : State) (e : ErrIn) (detail : Nat) :
    (s.failWith e detail).step.faults = if s.isRunning then
      s.step.faults ++ [{ frame := s.step.frame, status := e.code, core := 0xFFFF, detail := detail }] else s.step.faults := by
  cases hrun : s.isRunning with
  | true => exact (State.failWith_running hrun e detail).2.2
  | false =>
    rw [State.failWith_idle hrun]
    rfl

end

/-! ### The clock tree (R392) -/

/-- Each die is listed once. -/
theorem diePlaces_nodup : diePlaces.Nodup := by
  refine List.nodup_append.2 ⟨List.nodup_range, List.nodup_range.map fun a b h => ?_, fun a ha b hb => ?_⟩
  · simpa [ioPlace] using h
  · obtain ⟨io, -, rfl⟩ := List.mem_map.1 hb
    have := List.mem_range.1 ha
    simp only [ioPlace]
    omega

/-- Each die of a list changes its clock once, and no other does. -/
theorem dieClock_forEach_setDieClock {qs : List Nat} (hqs : qs.Nodup) (f : DieClock → DieClock) (s : State) (q : Nat) :
    (forEach qs (fun q s => s.setDieClock q (f (s.dieClock q))) s).dieClock q = if q ∈ qs then f (s.dieClock q) else s.dieClock q := by
  induction qs generalizing s with
  | nil => rfl
  | cons d qs ih =>
    obtain ⟨hd, hrest⟩ := List.nodup_cons.1 hqs
    rw [forEach_cons, ih hrest, State.dieClock_setDieClock]
    by_cases hq : q = d
    · subst hq
      simp [hd]
    · simp [hq]

section

variable {s : State} {die : Nat}

/-- A die's clock once it takes its reference from another parent. -/
def State.switched (s : State) (die : Nat) (b : Nat × Nat) : State :=
  s.setDieClock die { s.dieClock die with
    parent := b.1, depth := b.2 + 1, failed := insertNat (s.dieClock die).parent (s.dieClock die).failed, locked := true }

/-- A clock as deep as its die's new parent makes it. -/
def DieClock.deeper (c : DieClock) (new old : Nat) : DieClock := { c with depth := c.depth + new - old }

/-- A die with a neighbour left switches to it, and the dies below follow. -/
theorem exec_clockParentSwitch {b : Nat × Nat} (hdie : diePlace die = true)
    (hb : bestParent ((s.parentsLeft die).map (fun q => (q, s.clockDepth q))) = some b) :
    exec (.clockParentSwitch die) s = .next (forEach (s.diesBelow die)
      (fun q t => t.setDieClock q ((t.dieClock q).deeper (b.2 + 1) (s.dieClock die).depth)) (s.switched die b)) := by
  show execClockParentSwitch die s = _
  simp only [execClockParentSwitch, hdie, hb]
  rfl

/-- A die with no neighbour left stays in holdover. -/
theorem exec_clockParentSwitch_none (hdie : diePlace die = true) (hnone : s.parentsLeft die = []) :
    exec (.clockParentSwitch die) s = .next (s.setDieClock die { s.dieClock die with
      locked := false, failed := insertNat (s.dieClock die).parent (s.dieClock die).failed }) := by
  show execClockParentSwitch die s = _
  simp only [execClockParentSwitch, hdie, hnone]
  rfl

/-- The clocks after a switch, die by die. -/
theorem State.switched_dieClock (b : Nat × Nat) (q : Nat) :
    (forEach (s.diesBelow die) (fun q t => t.setDieClock q ((t.dieClock q).deeper (b.2 + 1) (s.dieClock die).depth)) (s.switched die b)).dieClock q =
      if q ∈ s.diesBelow die then ((s.switched die b).dieClock q).deeper (b.2 + 1) (s.dieClock die).depth else (s.switched die b).dieClock q :=
  dieClock_forEach_setDieClock (qs := s.diesBelow die) (diePlaces_nodup.filter _) (fun c => c.deeper (b.2 + 1) (s.dieClock die).depth) _ _

theorem State.ne_of_mem_diesBelow {q : Nat} (h : q ∈ s.diesBelow die) : q ≠ die := by
  simpa using (Bool.and_eq_true_iff.1 (List.mem_filter.1 h).2).1

end

/-! ### Beacons and crossing FIFOs (R395, R397 to R399) -/

/-- A die is not the hub. -/
theorem ne_hubPlace_of_diePlace {die : Nat} (h : diePlace die = true) : die ≠ hubPlace := by
  rintro rfl
  exact absurd h (by decide)

section

variable {s : State} {die : Nat}

/-- A die's clock at a beacon: the offset that is left, the one to slew away from now on, and the beacon's trim. -/
def State.beaconed (s : State) (die : Nat) (beacon : Nat × Nat) : DieClock :=
  { s.dieClock die with
    offset := (s.dieClock die).offsetAt s.now, slew := s.dieOffset die beacon.1 beacon.2, slewFrom := s.now, trim := s.clock.beaconTrim }

theorem exec_timingBeacon (hdie : diePlace die = true) (beacon : Nat × Nat) (seps : List (Nat × Nat)) :
    exec (.timingBeacon die beacon seps) s = .next ((s.setDieClock die (s.beaconed die beacon)).wander die seps) := by
  show execTimingBeacon die beacon seps s = _
  simp only [execTimingBeacon, if_neg (ne_hubPlace_of_diePlace hdie), hdie]
  rfl

/-- With no separation named only the die's clock entry is written anew. -/
theorem State.wander_nil (s : State) (die : Nat) : s.wander die [] = s.setDieClock die (s.dieClock die) := rfl

/-- A crossing FIFO that wander moves within its entries stands there. -/
theorem State.wander_within {k n : Nat} (s : State) (hk : hasFifo die k = true) (h1 : 1 ≤ n) (h7 : n ≤ 7) :
    s.wander die [(k, n)] = s.setDieClock die { s.dieClock die with fifos := tset 4 (s.dieClock die).fifos k n } := by
  have hn : min 8 n = n := Nat.min_eq_right (by omega)
  have hends : (n == 0 || decide (8 ≤ n)) = false := by simp; omega
  simp [State.wander, hk, hn, hends]

/-- One that would overflow or underflow corrupts what it holds. -/
theorem State.wander_beyond {k n : Nat} (s : State) (hk : hasFifo die k = true) (hlink : k < 0x100) (hn : n = 0 ∨ 8 ≤ n) :
    ∃ d, s.wander die [(k, n)] = (s.setDieClock die d).corruptFifo die k := by
  have hends : (n == 0 || decide (8 ≤ n)) = true := by simpa using hn
  simp only [State.wander, hk, hlink, hends, List.filter_cons, List.filter_nil, decide_true, Bool.and_self, if_true, forEach_cons, forEach_nil]
  exact ⟨_, rfl⟩

/-- An empty FIFO holds no flit to corrupt: its link's plane is charged alone (R292). -/
theorem State.corruptFifo_empty (s : State) (die key : Nat) (h : s.fabric.packets = []) :
    s.corruptFifo die key =
      s.countLane { unit := linkLane die (key / 8) (key % 8) 0x7FF, code := 0x1010, cls := 0, reporter := s.reporterAt die } := by
  rw [State.corruptFifo, h]
  rfl

end

/-- A slewed count never goes back: a µs takes one count of the offset away at most (R397, R398). -/
theorem DieClock.count_mono (c : DieClock) {n m : Nat} (h : n ≤ m) : (n : Int) + c.offsetAt n ≤ m + c.offsetAt m := by
  obtain hneg | hzero | hpos := lt_trichotomy c.slew 0
  · simp only [DieClock.offsetAt, Int.sign_eq_neg_one_of_neg hneg]
    omega
  · simp only [DieClock.offsetAt, hzero, Int.sign_zero, Int.zero_mul]
    omega
  · simp only [DieClock.offsetAt, Int.sign_eq_one_of_pos hpos]
    omega

/-! ### Droops (R404) -/

/-- A cluster that counts a droop with the frequency that it brought; a deep one holds its clock, which counts as well (Table 11.7). -/
def Cluster.drooped (c : Cluster) (mhz : Nat) (deep : Bool) : Cluster :=
  { c.noteMhz mhz with droops := min 65535 (c.droops + 1), holds := if deep then min 255 (c.holds + 1) else c.holds }

/-- A load step whose tests all pass ends every phase's run of failures (R421). -/
theorem State.testPhases_nil (s : State) (ci : Nat) : s.testPhases ci [] = s.modCluster ci (fun c => { c with phaseFails := [] }) := by
  simp [State.testPhases]

theorem State.cluster_modCluster_ne (s : State) {ci d : Nat} (f : Cluster → Cluster) (h : d ≠ ci) : (s.modCluster ci f).cluster d = s.cluster d :=
  (s.cluster_setCluster ci _ d).trans (if_neg h)

/-- A droop that fails no phase test is counted. -/
theorem exec_droopEvent {ci : Nat} (hci : ci < 288) (mhz : Nat) (deep : Bool) (s : State) :
    ∃ f, exec (.droopEvent ci (mhz, deep) []) s = .next ((s.modCluster ci (fun c => c.drooped f deep)).modCluster ci (fun c => { c with phaseFails := [] })) := by
  show ∃ f, execDroopEvent ci (mhz, deep) [] s = _
  simp only [execDroopEvent, if_neg (Nat.not_le.2 hci), State.testPhases_nil]
  exact ⟨_, rfl⟩

/-! ### The statement -/

/-- Settles O54: the link, the reference, the tree, the beacons and the droops, each by its law above. -/
theorem linksAndClocks : Obligations.LinksAndClocks := by
  unfold Obligations.LinksAndClocks
  refine ⟨?training, ?lanes, ?down, ?interrupted, ?lost, ?expired, ?returned, ?switches, ?holdover, ?beacon, ?monotone, ?droop⟩
  case training =>
    intro good s hstarter hroom
    refine ⟨fun m hm => ?_, fun hnone _ => exec_hostLinkTraining_fails hstarter hnone, fun hnone hdown => ?_⟩
    · rw [exec_hostLinkTraining_trains hstarter hm, State.linkTrained_eq m hroom]
      exact ⟨_, _, rfl, rfl, rfl, rfl, rfl, rfl, rfl⟩
    · exact (exec_hostLinkTraining_fails hstarter hnone).trans (if_neg (by simp [hdown]))
  case lanes =>
    intro good s hretired
    exact State.linkLanes_unretired hretired
  case down =>
    intro s hl hnone
    refine ⟨_, exec_hostLinkDown hl, ?_⟩
    rw [State.linkDown_idle hnone]
    exact ⟨rfl, rfl, rfl, rfl⟩
  case interrupted =>
    intro s hl hsome hown hnone hrun hmoving
    obtain ⟨honly, hfaults, herror⟩ := State.linkDown_leaves hnone hrun
    have hmoves := State.stepMoves_iff hrun hmoving
    refine ⟨_, exec_hostLinkDown hl, congrArg HostPort.linkUp honly.host, honly.mem, honly.hostMem, ?_, fun hfailed => herror ?_⟩
    · simp only [hfaults, hmoves]
    · by_contra hstill
      exact hfailed (hfaults.trans (if_neg hstill))
  case lost =>
    intro s href
    exact ⟨_, exec_referenceLost href, State.addError_clock _ _, State.addError_seq _ _, State.addError_step _ _⟩
  case expired =>
    intro s href hfirst
    have honly := s.holdoverExpired.failWith_failuresOnly { unit := refUnit, code := 0x408, cls := 1 } 0
    exact ⟨_, exec_referenceHoldoverExpire href hfirst, congrArg Clock.refExpired honly.clock, congrArg Clock.timebase honly.clock,
      State.failWith_faults _ _ _⟩
  case returned =>
    intro s href
    exact ⟨_, exec_referenceReturned href, State.addError_clock _ _, State.addError_seq _ _⟩
  case switches =>
    intro die b s hdie hb
    refine ⟨_, exec_clockParentSwitch hdie hb, ?_, fun q hq => ?_, fun q hne hq => ?_⟩
    · rw [State.switched_dieClock, if_neg fun h => State.ne_of_mem_diesBelow h rfl]
      exact (State.dieClock_setDieClock _ _ _ _).trans (if_pos rfl)
    · rw [State.switched_dieClock, if_pos hq, State.switched, State.dieClock_setDieClock, if_neg (State.ne_of_mem_diesBelow hq)]
      rfl
    · rw [State.switched_dieClock, if_neg hq, State.switched, State.dieClock_setDieClock, if_neg hne]
  case holdover =>
    intro die s hdie hnone
    exact exec_clockParentSwitch_none hdie hnone
  case beacon =>
    intro die beacon s hdie c c1
    have hset : (s.setDieClock die c1).dieClock die = c1 := (State.dieClock_setDieClock _ _ _ _).trans (if_pos rfl)
    refine ⟨⟨_, exec_timingBeacon hdie beacon [], ?_, rfl, rfl, fun q hne => ?_⟩, fun k n hk h1 h7 => ⟨_, exec_timingBeacon hdie beacon _, ?_⟩,
      fun k n hk hlink hn hempty => ⟨_, exec_timingBeacon hdie beacon _, ?_⟩⟩
    · exact (State.dieClock_setDieClock _ _ _ _).trans ((if_pos rfl).trans hset)
    · rw [State.wander_nil, State.dieClock_setDieClock, if_neg hne, State.dieClock_setDieClock, if_neg hne]
    · rw [State.wander_within _ hk h1 h7]
      refine ⟨(State.dieClock_setDieClock _ _ _ _).trans ((if_pos rfl).trans ?_), rfl, rfl⟩
      rw [show (s.setDieClock die (s.beaconed die beacon)).dieClock die = c1 from hset]
    · obtain ⟨d, hd⟩ := State.wander_beyond (s.setDieClock die (s.beaconed die beacon)) hk hlink hn
      rw [hd, State.corruptFifo_empty _ _ _ (by exact hempty)]
      obtain ⟨honly, hcounted⟩ := State.countLane_counted ((s.setDieClock die (s.beaconed die beacon)).setDieClock die d)
        (e := { unit := linkLane die (k / 8) (k % 8) 0x7FF, code := 0x1010, cls := 0,
                reporter := ((s.setDieClock die (s.beaconed die beacon)).setDieClock die d).reporterAt die }) rfl
      exact ⟨honly.fabric, hcounted⟩
  case monotone =>
    intro c n m h
    exact c.count_mono h
  case droop =>
    intro ci mhz deep s hci
    obtain ⟨f, hexec⟩ := exec_droopEvent hci mhz deep s
    refine ⟨_, hexec, ?_⟩
    rw [State.cluster_modCluster_same, State.cluster_modCluster_same]
    exact ⟨rfl, rfl, rfl, rfl, fun d hd => (State.cluster_modCluster_ne _ _ hd).trans (s.cluster_modCluster_ne _ hd)⟩

end Sys2Proof.Machine
end

section
/-! PROOF. STAGE, PROOF and COMMIT in the control lane (10 R372 to R378, R539; Table 10.7). -/

namespace Sys2Proof.Machine

/-- A control command that runs in its free lane and answers for itself leaves its answer, and then the transfers that wait may start. -/
theorem acceptAs_control_of_run {slot op : Nat} {s x : State} (hop : op ∈ controlOps) (ha : Accepts slot op s) (hl : LaneFree slot s)
    (hrun : runControl (theCmd s slot) (inLane s slot) = x) : acceptAs op slot s = .next (lanesOn x) :=
  hrun ▸ acceptAs_control hop ha hl

section

variable {s : State} {c : Cmd}

/-! ### STAGE and PROOF (R372, R374, R377) -/

/-- The set that a STAGE leaves: the entries that it reads join the staged set, or an empty one with CLEAR (R372). -/
def State.stagedBy (s : State) (c : Cmd) : List StagedEntry :=
  (s.readEntries (c.arg 0 8) (c.arg 8 4)).foldl stageEntry (if (c.arg 12 4).testBit 0 then [] else s.settings.staged)

/-- A STAGE whose set fits puts it in place, and the proof stays with a set that stays as it was (R377). -/
theorem runStage_adds (haligned : c.arg 0 8 % 64 = 0) (hrsv : bitsOf (c.arg 12 4) 31 1 = 0) (hfits : (s.stagedBy c).length ≤ 4096) :
    runStage c s = answered { s with settings := { s.settings with
      staged := s.stagedBy c, proofed := s.settings.proofed && s.stagedBy c == s.settings.staged } } c 0 0 (s.stagedBy c).length := by
  rw [runStage, if_neg (not_not_intro haligned), if_neg (not_not_intro hrsv)]
  exact if_neg (Nat.not_lt.mpr hfits)

theorem runProof_empty (hempty : s.settings.staged = []) : runProof c s = answered s c 0 0 0 :=
  if_pos hempty

/-- A set that passes every check is proofed (R374). -/
theorem runProof_passes (hset : s.settings.staged ≠ []) (hpass : s.proofFails s.settings.staged = none) :
    runProof c s = answered { s with settings := { s.settings with proofed := true } } c 0 0 0 := by
  rw [runProof, if_neg hset, hpass]
  rfl

/-! ### COMMIT (R377, R378, R539) -/

theorem runCommit_empty (hempty : s.settings.staged = []) : runCommit c s = answered s c 0 0 0 :=
  if_pos hempty

/-- A set that is proofed, or passes now, has no check left to fail at its COMMIT (R377). -/
theorem commitFails_eq_none (hpass : s.settings.proofed = true ∨ s.proofFails s.settings.staged = none) :
    (if s.settings.proofed then none else s.proofFails s.settings.staged) = none := by
  obtain hproofed | hpass := hpass
  · exact if_pos hproofed
  · rw [hpass, ite_self]

/-- Before the first frame tick a set that passes takes effect at once (R539). -/
theorem runCommit_beforeFirstTick (hset : s.settings.staged ≠ []) (hpass : s.settings.proofed = true ∨ s.proofFails s.settings.staged = none)
    (hfirst : s.boot.firstTick = false) :
    runCommit c s = answered
      (State.applySettings { s with settings := { s.settings with staged := [], proofed := false } } s.settings.staged) c 0 0 0 := by
  simp only [runCommit, if_neg hset, commitFails_eq_none hpass, if_pos hfirst]
  rfl

/-- The panel once a COMMIT has fixed its tick: the staged set is empty, and its entries take effect at the first tick at or after the later of
TICK and the earliest time (R377, R378). -/
def State.tickFixed (s : State) (c : Cmd) : State :=
  { s with settings := { s.settings with
    staged := [], proofed := false,
    pendingCommit := some {
      entries := s.settings.staged, tick := max (c.arg 0 8) (s.earliestCommit s.settings.staged), tag := some c.tag } } }

/-- A COMMIT that passes, for a time that is not too early, fixes its tick; a manager tells its group besides (R382). -/
theorem runCommit_fixesTick (hset : s.settings.staged ≠ []) (hpass : s.settings.proofed = true ∨ s.proofFails s.settings.staged = none)
    (hfirst : s.boot.firstTick = true) (htime : c.arg 0 8 = 0 ∨ s.earliestCommit s.settings.staged ≤ c.arg 0 8) :
    ∃ g, runCommit c s = { s.tickFixed c with group := g } := by
  have hintime : ¬(c.arg 0 8 ≠ 0 ∧ c.arg 0 8 < s.earliestCommit s.settings.staged) := by omega
  simp only [runCommit, if_neg hset, commitFails_eq_none hpass, hfirst, Bool.true_eq_false, if_false, if_neg hintime]
  split
  · exact ⟨_, rfl⟩
  · exact ⟨s.group, rfl⟩

end

/-! ### The statements -/

/-- Settles O31: a COMMIT runs in its lane; `runCommit_fixesTick` after the first tick, `runCommit_beforeFirstTick` before it. -/
theorem commitFixesTick : Obligations.CommitFixesTick := by
  unfold Obligations.CommitFixesTick
  intro slot s c t es ha hl hset hpass
  have hrun : runControl c t = runCommit c t := by simp [runControl, theCmd_opcode ha, c]
  refine ⟨fun hfirst htime => ?ticked, fun hfirst => ?atOnce⟩
  case ticked =>
    obtain ⟨g, hfixed⟩ := runCommit_fixesTick (s := t) (c := c) hset hpass hfirst htime
    exact ⟨_, acceptAs_control_of_run (by decide) ha hl (hrun.trans hfixed), rfl, rfl, rfl, rfl, rfl, rfl⟩
  case atOnce =>
    exact acceptAs_control_of_run (by decide) ha hl (hrun.trans (runCommit_beforeFirstTick (s := t) hset hpass hfirst))

/-- Settles O30: each command runs in its lane; what it does there is `runStage_adds`, `runProof_passes`, `runProof_empty` and `runCommit_empty`. -/
theorem stageAndProof : Obligations.StageAndProof := by
  unfold Obligations.StageAndProof
  refine ⟨?stage, ?proof, ?empty⟩
  case stage =>
    intro slot s c t ha hl haligned hrsv es hfits
    have hrun : runControl c t = runStage c t := by simp [runControl, theCmd_opcode ha, c]
    exact acceptAs_control_of_run (by decide) ha hl (hrun.trans (runStage_adds (s := t) haligned hrsv hfits))
  case proof =>
    intro slot s c t ha hl hset hpass
    have hrun : runControl c t = runProof c t := by simp [runControl, theCmd_opcode ha, c]
    exact acceptAs_control_of_run (by decide) ha hl (hrun.trans (runProof_passes (s := t) hset hpass))
  case empty =>
    intro slot s c t hl hempty
    refine ⟨fun ha => ?proof, fun ha => ?commit⟩
    case proof =>
      have hrun : runControl c t = runProof c t := by simp [runControl, theCmd_opcode ha, c]
      exact acceptAs_control_of_run (by decide) ha hl (hrun.trans (runProof_empty (s := t) hempty))
    case commit =>
      have hrun : runControl c t = runCommit c t := by simp [runControl, theCmd_opcode ha, c]
      exact acceptAs_control_of_run (by decide) ha hl (hrun.trans (runCommit_empty (s := t) hempty))

end Sys2Proof.Machine
end

section
/-! PROOF. READ, CERT_READ and ATTEST in the query lane (10 R381; 16 R502, R515, R537; Tables 16.3 and 16.9). -/

namespace Sys2Proof.Machine

/-! ### The panel's chain (R502, Table 16.3) -/

/-- Byte 0x70 of the identity certificate begins the panel's serial number. -/
theorem State.identityCert_serial (s : State) : (s.identityCert.drop 0x70).take 16 = fitBytes 16 s.fuses.panelSerial := by
  have hhead : (toLE 4 0x54524347 ++ toLE 2 1 ++ toLE 2 2 ++ toLE 8 s.fuses.certSerial ++ toLE 8 s.fuses.certFrom ++ toLE 8 s.fuses.certTo ++
      digest64 (certKey s.caCert) ++ toLE 2 (partCode s.fuses.part) ++ toLE 1 s.fuses.stepping.toNat ++ List.replicate 13 (0 : Byte)).length = 0x70 := by
    simp only [List.length_append, toLE_length, digest64_length, List.length_replicate]
  rw [State.identityCert, List.append_assoc, List.append_assoc, List.drop_left' hhead]
  exact List.take_left' (length_fitBytes _ _)

theorem State.identityCert_length (s : State) : s.identityCert.length = 5456 := by
  simp only [State.identityCert, List.length_append, toLE_length, digest64_length, length_fitBytes, List.length_replicate]

theorem State.chain_length (s : State) : s.chain.length = 10912 := by
  rw [State.chain, List.length_append, s.identityCert_length, State.caCert, length_fitBytes]

/-! ### The commands -/

section

variable {s : State} {c : Cmd}

/-- READ gives the committed value of a defined key (R381). -/
theorem runRead_answers (haligned : c.arg 8 8 % 64 = 0) (hrsv : c.arg 4 4 = 0) (hkey : keyDefined (c.arg 0 4) = true) :
    runRead c s = answered s c 0 (s.setting (c.arg 0 4)) 8 := by
  rw [runRead, if_neg (not_not_intro haligned), if_neg (not_not_intro hrsv), hkey]
  rfl

/-- CERT_READ into a buffer that holds the chain writes it there (R502). -/
theorem runCertRead_reports (haligned : c.arg 0 8 % 64 = 0) (hrsv : c.arg 12 4 = 0) (hroom : 10912 ≤ c.arg 8 4) :
    runCertRead c s = reported s c (c.arg 0 8) s.chain 10912 := by
  rw [runCertRead, if_neg (not_not_intro haligned), if_neg (not_not_intro hrsv), if_neg (Nat.not_lt.mpr hroom), State.reportTo, s.chain_length,
    State.writeHost_complete]

/-- The report of an ATTEST: the body, and the identity key's block over the body's digest (R515). -/
def State.attestReport (s : State) (c : Cmd) : List Byte :=
  s.attestBody (c.payload.take 32) ++ s.identityBlock (digest64 (s.attestBody (c.payload.take 32)))

/-- ATTEST writes its report and counts, and the signature takes one draw (R498, R515). -/
theorem runAttest_reports (haligned : c.arg 32 8 % 64 = 0) :
    runAttest c s = { reported { s with security := { s.security with attestSeq := (s.security.attestSeq + 1) % 2 ^ 32 } } c (c.arg 32 8)
      (s.attestReport c) (s.attestReport c).length with free := s.free + 1 } := by
  rw [runAttest, if_neg (not_not_intro haligned)]
  change State.takeFree { s.reportTo c (c.arg 32 8) (s.attestReport c) with security := _ } 1 = _
  generalize s.attestReport c = block
  rfl

end

/-- Settles O28: each query runs as its slot is accepted, and the chain is the two certificates. -/
theorem readCertReadAttest : Obligations.ReadCertReadAttest := by
  unfold Obligations.ReadCertReadAttest
  refine ⟨?read, ?certs, ?attest⟩
  case read =>
    intro slot s c t ha haligned hrsv hkey
    have hrun : runQuery c t = runRead c t := by simp [runQuery, theCmd_opcode ha, c]
    exact (acceptAs_query (by decide) ha).trans (congrArg Host.Outcome.next (hrun.trans (runRead_answers haligned hrsv hkey)))
  case certs =>
    intro slot s c t ha haligned hrsv hroom
    have hrun : runQuery c t = runCertRead c t := by simp [runQuery, theCmd_opcode ha, c]
    exact ⟨(acceptAs_query (by decide) ha).trans (congrArg Host.Outcome.next (hrun.trans (runCertRead_reports haligned hrsv hroom))),
      List.take_left' s.identityCert_length, List.drop_left' s.identityCert_length, s.identityCert_serial⟩
  case attest =>
    intro slot s c t ha haligned body block
    have hrun : runQuery c t = runAttest c t := by simp [runQuery, theCmd_opcode ha, c]
    exact (acceptAs_query (by decide) ha).trans (congrArg Host.Outcome.next (hrun.trans (runAttest_reports haligned)))

end Sys2Proof.Machine
end

section
/-! PROOF. Marks of the data path, probes, and the defect ledger (10 R385, R387; 14 R467, R468; 16 R501). -/

namespace Sys2Proof.Machine

section

variable {s : State} {u : Nat}

/-! ### Marks and probes (R385, R387) -/

/-- A unit that may be used becomes SUSPECT: of the units, its entry and the table's version change. -/
theorem State.setUnit_suspect_units (h : (s.unitEntry u).state ≤ 1) (source : Nat) :
    (s.setUnit u 4 source).units = { s.units with
      table := tset {} s.units.table u { state := 4, source := source, since := s.now }
      version := s.units.version + 1, versionTick := s.now, deratedAt := deratedTime s.units.deratedAt u 4 s.now } := by
  unfold State.setUnit
  extract_lets e s1 s2
  have he : e.state ≤ 1 := h
  rw [if_neg (by omega), if_neg (by omega)]
  exact State.event_units _ _ _ _

/-- The panel once a mark has been noted: the mark stands, what is bound for the unit is poisoned, and the DISAGREE record is made (R385, R387). -/
def State.markNoted (s : State) (u code reporter : Nat) : State :=
  (State.poisonBound { s with units := { s.units with marks := insertNat u s.units.marks } }).disagree u code reporter

/-- Of the units, the note of a mark leaves all but the marks and the records. -/
theorem State.markNoted_units (s : State) (u code reporter : Nat) : ∃ errors dropped raised, (s.markNoted u code reporter).units =
    { s.units with marks := insertNat u s.units.marks, errors := errors, seq := s.units.seq + 1, dropped := dropped, raised := raised } :=
  ⟨_, _, _, State.addError_units _ _⟩

/-- The panel with a unit's suspicion noted, now and with no probe yet (R387). -/
def State.suspected (s : State) (u now : Nat) : State :=
  { s with units := { s.units with suspects := s.units.suspects ++ [(u, now, none)] } }

/-- A mark of a unit that may be used, and is none of the hub's, is noted, and the unit becomes a suspect. -/
theorem State.markUnit_eq (hstate : (s.unitEntry u).state ≤ 1) (hhub : unitKind u ≠ 4) (code reporter : Nat) :
    s.markUnit u code reporter = ((s.markNoted u code reporter).setUnit u 4 3).suspected u s.now := by
  have hunit : u ≠ hubUnit := by
    rintro rfl
    exact hhub (by decide)
  have hnever : ¬(neverRetired u = true ∨ (s.unitEntry u).state = 4) := by
    simp only [neverRetired, beq_iff_eq]
    omega
  exact (if_neg (by omega)).trans ((if_neg hunit).trans (if_neg hnever))

/-- Such a mark makes its unit SUSPECT, with one more record (R385, R387). -/
theorem State.markUnit_suspect (hstate : (s.unitEntry u).state ≤ 1) (hhub : unitKind u ≠ 4) (code reporter : Nat) :
    ((s.markUnit u code reporter).unitEntry u).state = 4 ∧
      (s.markUnit u code reporter).units.suspects = s.units.suspects ++ [(u, s.now, none)] ∧
      (s.markUnit u code reporter).units.seq = s.units.seq + 1 := by
  obtain ⟨_, _, _, hnoted⟩ := s.markNoted_units u code reporter
  have hsuspect := State.setUnit_suspect_units (s := s.markNoted u code reporter) (u := u) (by rwa [State.unitEntry, hnoted]) 3
  rw [State.markUnit_eq hstate hhub]
  simp only [State.suspected, State.unitEntry, hsuspect, hnoted, tget_tset_same, and_self]

/-- A suspect may not be used. -/
theorem State.usable_of_suspect (h : (s.unitEntry u).state = 4) : s.usable u = false := by
  rw [State.usable, h]
  rfl

theorem exec_dataPathMark (hu : u < 2 ^ 32) (code reporter : Nat) :
    exec (.dataPathMark u code reporter) s = .next (s.markUnit u code reporter) :=
  if_neg (Nat.not_le.mpr hu)

/-- The unit that a probe shows to fail: the one found, where it encloses the marked one, else the marked one itself (R387). -/
def probeTarget (u found : Nat) : Nat := if (enclosing u).contains found then found else u

/-- The panel once a probe of the suspect `x` has ended: what is to be retired at the next frame tick is due. -/
def State.probed (s : State) (u found : Nat) (x : Nat × Nat × Option Nat) : State :=
  { s with units := { s.units with
    suspects := s.units.suspects.map (fun y => if y = x then (y.1, y.2.1, some (probeTarget u found)) else y),
    due := s.units.due ++ [(probeTarget u found, 2, 3)] ++ (if probeTarget u found = u then [] else [(u, 2, 3)]) } }

theorem exec_unitReprobe {x : Nat × Nat × Option Nat} (hu : u < 2 ^ 32)
    (hx : s.units.suspects.find? (fun x => x.1 == u && x.2.2 == none) = some x) (found : Nat) :
    exec (.unitReprobe u found) s = .next (s.probed u found x) := by
  show execUnitReprobe u found s = _
  rw [execUnitReprobe, if_neg (Nat.not_le.mpr hu), hx]
  rfl

/-- Whatever the probe shows, the marked unit's retirement is due. -/
theorem State.probed_due_unit (s : State) (u found : Nat) (x : Nat × Nat × Option Nat) : (u, 2, 3) ∈ (s.probed u found x).units.due := by
  by_cases h : probeTarget u found = u <;> simp [State.probed, h]

theorem State.probed_due_found {found : Nat} (h : (enclosing u).contains found = true) (x : Nat × Nat × Option Nat) :
    (found, 2, 3) ∈ (s.probed u found x).units.due := by
  have htarget : probeTarget u found = found := if_pos h
  simp [State.probed, htarget]

/-! ### The ledger (R467, R468, R501) -/

/-- Whether the ledger holds an entry for a defect. -/
def Ledger.names (l : Ledger) (u action detail : Nat) : Bool := l.entries.any (fun e => e.unit == u && e.action == action && e.detail == detail)

/-- The ledger of this start with a defect more, signed anew; its SEQUENCE stays (R468, R501). -/
def State.extendedLedger (s : State) (u action source detail : Nat) : Ledger :=
  s.signLedger { s.units.ledger with entries := s.units.ledger.entries ++
    [{ unit := u, action := action, source := source, detail := detail, start := s.units.ledger.startCount }] }

theorem exec_ledgerWrite {action source : Nat} (hu : u < 2 ^ 32) (haction : action ≤ 5) (hlow : 2 ≤ source) (hhigh : source ≤ 4) (detail : Nat) :
    exec (.ledgerWrite u action source detail) s = .next (s.addLedger u action source (detail % 2 ^ 32)) := by
  show execLedgerWrite u action source detail s = _
  rw [execLedgerWrite, if_neg (Nat.not_le.mpr hu), if_neg (by omega)]

variable {action detail : Nat}

/-- No defect is added twice. -/
theorem State.addLedger_named (h : s.units.ledger.names u action detail = true) (source : Nat) : s.addLedger u action source detail = s :=
  if_pos (.inr h)

/-- Before stage 0x05 no copy is in use. -/
theorem State.addLedger_without (h : s.units.ledger.held = false) (source : Nat) : s.addLedger u action source detail = s :=
  if_pos (.inl (by rw [h]; rfl))

section

variable (hheld : s.units.ledger.held = true) (hnew : s.units.ledger.names u action detail = false)

include hheld hnew

/-- A new defect for a copy in use gets past both. -/
theorem State.addLedger_open : ¬((!s.units.ledger.held) = true ∨ s.units.ledger.names u action detail = true) := by
  simp [hheld, hnew]

/-- A full ledger makes the record LEDGER_FULL. -/
theorem State.addLedger_full (hfull : 16384 ≤ s.units.ledger.entries.length) (source : Nat) :
    s.addLedger u action source detail = s.addError { unit := u, code := 0x1070, cls := 1, location := action } :=
  (if_neg (State.addLedger_open hheld hnew)).trans (if_pos hfull)

/-- A new defect joins the ledger, and the flash copy that is the ledger becomes the new one. -/
theorem State.addLedger_adds (hroom : s.units.ledger.entries.length < 16384) (source : Nat) :
    s.addLedger u action source detail = { s with
      units := { s.units with ledger := s.extendedLedger u action source detail },
      flash :=
        if s.flash.ledgerA = s.units.ledger then
          { s.flash with ledgerA := s.extendedLedger u action source detail, writing := some (.ledgerA, s.now) }
        else if s.flash.ledgerB = s.units.ledger then
          { s.flash with ledgerB := s.extendedLedger u action source detail, writing := some (.ledgerB, s.now) }
        else s.flash } :=
  (if_neg (State.addLedger_open hheld hnew)).trans (if_neg (Nat.not_le.mpr hroom))

end

end

end Sys2Proof.Machine
end

section
/-! PROOF. The optical engines' sideband, its firewall, and the debug port (16 R513, R516, R517, R530; 17 R527). -/

namespace Sys2Proof.Machine

/-! ### Tables written over a range of keys -/

section

variable {α : Type} [DecidableEq α] {d : α} {f : Nat → Nat} {v : Nat → α} {t : Tab α}

/-- The values `v 0`, `v 1` and so on, `n` of them, written in turn at the keys `f 0`, `f 1` and so on. -/
def tsetRange (d : α) (f : Nat → Nat) (v : Nat → α) (n : Nat) (t : Tab α) : Tab α := (List.range n).foldl (fun m i => tset d m (f i) (v i)) t

theorem tsetRange_succ (n : Nat) : tsetRange d f v (n + 1) t = tset d (tsetRange d f v n t) (f n) (v n) := by
  rw [tsetRange, List.range_succ, List.foldl_append]
  rfl

/-- A key that is none of those written reads as before. -/
theorem tget_tsetRange_of_ne {n key : Nat} (h : ∀ i < n, f i ≠ key) : tget d (tsetRange d f v n t) key = tget d t key := by
  induction n with
  | zero => rfl
  | succ n ih =>
    rw [tsetRange_succ, tget_tset_ne _ _ _ _ _ (Ne.symm (h n n.lt_succ_self))]
    exact ih fun i hi => h i (by omega)

/-- Where no two keys are one, each reads the value written there. -/
theorem tget_tsetRange_of_lt (hf : Function.Injective f) {n i : Nat} (hi : i < n) : tget d (tsetRange d f v n t) (f i) = v i := by
  induction n with
  | zero => omega
  | succ n ih =>
    rw [tsetRange_succ, tget_tset]
    by_cases hin : i = n
    · rw [hin, if_pos rfl]
    · rw [if_neg (fun h => hin (hf h)), ih (by omega)]

/-- A write of `n` values from `a` on, read at `i` through keys that are all different. -/
theorem tget_tsetRange_from {g : Nat → Nat} (hg : Function.Injective g) (a n i : Nat) :
    tget d (tsetRange d (fun j => g (a + j)) v n t) (g i) = if a ≤ i ∧ i < a + n then v (i - a) else tget d t (g i) := by
  by_cases h : a ≤ i ∧ i < a + n
  · have hread := tget_tsetRange_of_lt (d := d) (v := v) (t := t) (f := fun j => g (a + j)) (fun j k hjk => Nat.add_left_cancel (hg hjk))
      (show i - a < n by omega)
    rw [if_pos h, ← hread, show a + (i - a) = i by omega]
  · rw [if_neg h]
    exact tget_tsetRange_of_ne fun j hj hji => h (by have := hg hji; omega)

end

/-! ### Accesses of an engine (R516, R517) -/

section

variable {s : State} {e target off len : Nat} {wr : Bool}

/-- What R516 and R517 ask of an access: the sideband is not closed, and the allow-list, the length and the rate let it pass. -/
def State.admits (s : State) (e target off len : Nat) (wr : Bool) : Prop :=
  s.security.closed.contains e = false ∧ allowed target off len wr = true ∧ len ≤ 256 ∧ tget 0 s.security.transactions e < 4096

/-- The panel with one more transaction of an engine counted in its window. -/
def State.transacted (s : State) (e : Nat) : State :=
  { s with security := { s.security with
    transactions := tset 0 s.security.transactions e (tget 0 s.security.transactions e + 1) } }

theorem State.transacted_transactions (s : State) (e : Nat) :
    tget 0 (s.transacted e).security.transactions e = tget 0 s.security.transactions e + 1 := by
  rw [State.transacted, tget_tset_same]

/-- The panel once it has refused an access: counted, and a read answers zeros (R517). -/
def State.refuseAccess (s : State) (e len : Nat) (wr : Bool) : State :=
  if wr then s.refuseEngine e
  else { s.refuseEngine e with security := { (s.refuseEngine e).security with sideband := List.replicate len 0 } }

theorem State.refuseAccess_transactions (s : State) (e len : Nat) (wr : Bool) :
    (s.refuseAccess e len wr).security.transactions = s.security.transactions := by
  cases wr <;> rfl

theorem State.refuseAccess_mailbox (s : State) (e len : Nat) (wr : Bool) :
    (s.refuseAccess e len wr).security.mailbox = s.security.mailbox := by
  cases wr <;> rfl

/-- The count of refusals saturates (R517). -/
theorem State.refuseAccess_refusals (s : State) (e len : Nat) (wr : Bool) :
    tget 0 (s.refuseAccess e len wr).security.refusals e = min (2 ^ 32 - 1) (tget 0 s.security.refusals e + 1) := by
  have hcount : tget 0 (s.refuseEngine e).security.refusals e = min (2 ^ 32 - 1) (tget 0 s.security.refusals e + 1) := by
    rw [State.refuseEngine, tget_tset_same]
  cases wr <;> exact hcount

/-- What execEngineSidebandAccess asks before it refuses is that the access is not admitted. -/
theorem State.not_admits_iff : ¬s.admits e target off len wr ↔
    s.security.closed.contains e = true ∨ (!allowed target off len wr) = true ∨ len > 256 ∨ tget 0 s.security.transactions e ≥ 4096 := by
  simp only [State.admits, not_and_or, Bool.not_eq_false, Bool.not_eq_true, Bool.not_eq_true', Nat.not_le, Nat.not_lt]

theorem exec_engineSidebandAccess_admitted (he : e < 8) (h : s.firewallWindows.admits e target off len wr) (data : List Byte) :
    exec (.engineSidebandAccess e target off len wr data) s = .next ((s.firewallWindows.transacted e).serveEngine e target off len wr data) :=
  (if_neg (Nat.not_le.mpr he)).trans (if_neg (fun hrefused => State.not_admits_iff.2 hrefused h))

theorem exec_engineSidebandAccess_refused (he : e < 8) (h : ¬s.firewallWindows.admits e target off len wr) (data : List Byte) :
    exec (.engineSidebandAccess e target off len wr data) s = .next ((s.firewallWindows.transacted e).refuseAccess e len wr) :=
  (if_neg (Nat.not_le.mpr he)).trans (if_pos (State.not_admits_iff.1 h))

/-- An admitted access leaves the counts of the firewall. -/
theorem State.serveEngine_counts (s : State) (e target off len : Nat) (wr : Bool) (data : List Byte) :
    (s.serveEngine e target off len wr data).security.transactions = s.security.transactions ∧
      (s.serveEngine e target off len wr data).security.refusals = s.security.refusals := by
  unfold State.serveEngine
  split <;> exact ⟨rfl, rfl⟩

/-- A byte of the mailboxes after a write of one (R516). -/
theorem State.serveEngine_mailbox (s : State) (e off len : Nat) (data : List Byte) (i : Nat) :
    tget 0 (s.serveEngine e 1 off len true data).security.mailbox i =
      if e * 4096 + off ≤ i ∧ i < e * 4096 + off + len then (fitBytes len data).getD (i - (e * 4096 + off)) 0
      else tget 0 s.security.mailbox i :=
  tget_tsetRange_from (g := id) (v := fun j => (fitBytes len data).getD j 0) Function.injective_id (e * 4096 + off) len i

/-- A byte of an engine's lane, equalisation and optical power registers after a write of them (log entry 31). -/
theorem State.serveEngine_laneRegs (s : State) (e off len : Nat) (data : List Byte) (i : Nat) :
    tget 0 (s.serveEngine e 0 off len true data).security.laneRegs (i * 8 + e) =
      if off ≤ i ∧ i < off + len then (fitBytes len data).getD (i - off) 0 else tget 0 s.security.laneRegs (i * 8 + e) :=
  tget_tsetRange_from (g := fun j => j * 8 + e) (v := fun j => (fitBytes len data).getD j 0) (fun j k hjk => by simpa using hjk) off len i

end

/-! ### The debug port (R513, R527, R530) -/

section

variable {s : State} {a : Nat}

/-- Without AUX the port is not sampled (R527). -/
theorem exec_debugPortAccess_without_aux (haux : s.pins.aux = false) (op a : Nat) (data : List Byte) :
    exec (.debugPortAccess op a data) s = .next s :=
  if_pos (by simp [haux])

theorem exec_debugPortAccess_idcode (haux : s.pins.aux = true) (a : Nat) (data : List Byte) :
    exec (.debugPortAccess 1 a data) s = .next { s with security := { s.security with tdo := toLE 4 s.idcode } } :=
  if_neg (by simp [haux])

/-- A read without a scope does nothing (R513). -/
theorem exec_debugPortAccess_unscoped (haux : s.pins.aux = true) (hscope : s.security.debugScope = 0) (a : Nat) (data : List Byte) :
    exec (.debugPortAccess 2 a data) s = .next s :=
  (if_neg (by simp [haux])).trans (if_neg (by simp [hscope]))

/-- A read with a scope, of anything but the trace, shows what its address names (R513, R530). -/
theorem exec_debugPortAccess_read (haux : s.pins.aux = true) (hscope : 1 ≤ s.security.debugScope)
    (htrace : (debugPlace a).any (fun p => p.2.1 == 15) = false) (data : List Byte) :
    exec (.debugPortAccess 2 a data) s = .next { s with security := { s.security with tdo := s.debugRead a } } :=
  (if_neg (by simp [haux])).trans ((if_pos hscope).trans (congrArg Host.Outcome.next (if_neg (by simp [htrace]))))

theorem exec_debugPortAccess_halt (haux : s.pins.aux = true) (hscope : s.security.debugScope = 2) (a : Nat) (data : List Byte) :
    exec (.debugPortAccess 4 a data) s = .next { s with security := { s.security with halted := true } } :=
  (if_neg (by simp [haux])).trans (if_pos hscope)

/-- Below 2^48 an address is the panel's own (R217; log entry 32). -/
theorem debugPlace_memory (h : a < 2 ^ 48) : debugPlace a = none :=
  if_neg (by omega)

theorem debugPlace_greg {c i : Nat} (hc : c < 2304) (hi : i < 32) : debugPlace (2 ^ 48 + c * 2 ^ 24 + i) = some (c, 0, i) := by
  rw [debugPlace, if_pos (by omega), show (2 ^ 48 + c * 2 ^ 24 + i - 2 ^ 48) / 2 ^ 24 = c by omega,
    show (2 ^ 48 + c * 2 ^ 24 + i) / 2 ^ 20 % 16 = 0 by omega, show (2 ^ 48 + c * 2 ^ 24 + i) % 2 ^ 20 = i by omega]

theorem State.debugRead_memory (h : a < 2 ^ 48) (hserved : s.served (panelTarget s.units.gridClass a) = true) :
    s.debugRead a = s.readRow (s.cellAddr (panelTarget s.units.gridClass a)) := by
  simp only [State.debugRead, debugPlace_memory h, if_pos hserved]

theorem State.debugRead_greg {c i : Nat} (h : debugPlace a = some (c, 0, i)) (hi : i < 32) :
    s.debugRead a = toLE 8 ((s.core c).greg i).toNat := by
  simp only [State.debugRead, h, if_pos hi]

end

/-! ### The statement -/

/-- Settles O59: a mark is `State.markUnit_suspect`, a probe `State.probed`, the ledger `State.addLedger_adds` and its refusals; an access of an engine
is admitted or refused, and the debug port answers by operation and scope. -/
theorem unitsAndDebug : Obligations.UnitsAndDebug := by
  unfold Obligations.UnitsAndDebug
  refine ⟨?mark, ?probe, ?ledger, ?sideband, ?debug⟩
  case mark =>
    intro u code rep s hu hstate hhub _
    obtain ⟨hsuspect, hsuspects, hseq⟩ := State.markUnit_suspect hstate hhub code rep
    exact ⟨_, exec_dataPathMark hu code rep, hsuspect, State.usable_of_suspect hsuspect, hsuspects, hseq⟩
  case probe =>
    intro u found x s hu hx
    exact ⟨_, exec_unitReprobe hu hx found, s.probed_due_unit u found x, fun hfound => State.probed_due_found hfound x, rfl⟩
  case ledger =>
    intro u action src detail s hu haction hlow hhigh es d have_
    have hexec := exec_ledgerWrite (s := s) hu haction hlow hhigh detail
    refine ⟨fun hnamed => ?named, fun hnew hheld hroom => ?adds, fun hheld => ?without, fun hnew hheld hfull => ?full⟩
    case named => exact hexec.trans (congrArg Host.Outcome.next (State.addLedger_named hnamed src))
    case without => exact hexec.trans (congrArg Host.Outcome.next (State.addLedger_without hheld src))
    case adds =>
      refine ⟨_, hexec.trans (congrArg Host.Outcome.next (State.addLedger_adds hheld hnew hroom src)), rfl, rfl, rfl, fun hA => ?_, fun hA hB => ?_⟩
      · exact congrArg Flash.ledgerA (if_pos hA)
      · exact congrArg Flash.ledgerB ((if_neg hA).trans (if_pos hB))
    case full =>
      refine ⟨_, hexec.trans (congrArg Host.Outcome.next (State.addLedger_full hheld hnew hfull src)), ?_, State.addError_seq _ _⟩
      rw [State.addError_units]
  case sideband =>
    intro e target off len wr data s he w n admitted
    by_cases hadm : admitted
    · obtain ⟨htransactions, hrefusals⟩ := (w.transacted e).serveEngine_counts e target off len wr data
      refine ⟨_, exec_engineSidebandAccess_admitted he hadm data, ?_, ?_, fun h => absurd hadm h, ?_, ?_, ?_, ?_⟩
      · rw [htransactions]
        exact w.transacted_transactions e
      · rw [hrefusals, if_pos hadm]
        rfl
      · rintro - rfl rfl i
        exact (w.transacted e).serveEngine_mailbox e off len data i
      · rintro - rfl rfl
        rfl
      · rintro - rfl rfl i
        exact (w.transacted e).serveEngine_laneRegs e off len data i
      · rintro - rfl rfl
        rfl
    · refine ⟨_, exec_engineSidebandAccess_refused he hadm data, ?_, ?_, fun _ => ⟨?_, ?_⟩, fun h => absurd h hadm, fun h => absurd h hadm,
        fun h => absurd h hadm, fun h => absurd h hadm⟩
      · rw [State.refuseAccess_transactions]
        exact w.transacted_transactions e
      · rw [if_neg hadm]
        exact (w.transacted e).refuseAccess_refusals e len wr
      · exact (w.transacted e).refuseAccess_mailbox e len wr
      · rintro rfl
        rfl
  case debug =>
    intro a data s t
    refine ⟨fun haux op => exec_debugPortAccess_without_aux haux op a data, fun haux => ?_⟩
    refine ⟨exec_debugPortAccess_idcode haux a data, fun hscope => exec_debugPortAccess_unscoped haux hscope a data, fun hscope ha hserved => ?memory,
      fun c i hscope hc hi => ?register, fun hscope => exec_debugPortAccess_halt haux hscope a data⟩
    case memory =>
      rw [exec_debugPortAccess_read haux hscope (by rw [debugPlace_memory ha]; rfl), State.debugRead_memory ha hserved]
    case register =>
      rw [exec_debugPortAccess_read haux hscope (by rw [debugPlace_greg hc hi]; rfl), State.debugRead_greg (debugPlace_greg hc hi) hi]

end Sys2Proof.Machine
end

section
/-! PROOF. Every step answers a next state, and an idle one moves the clock alone (R397, R399; log entries 1, 2, 102 and 123). -/

namespace Sys2Proof.Machine

/-! ### One count of the timebase (R397 to R399) -/

/-- A count moves the timebase by none, one or two: the trim and the slew change it by one at most, and never both (R399). -/
theorem Clock.tick_timebase_bounds (k : Clock) : k.timebase ≤ k.tick.timebase ∧ k.tick.timebase ≤ k.timebase + 2 := by
  have hsign : -1 ≤ k.slew.sign ∧ k.slew.sign ≤ 1 := by
    rcases k.slew.sign_trichotomy with h | h | h <;> omega
  unfold Clock.tick
  dsimp only
  split_ifs <;> omega

/-- With no whole count gathered and no slew, the timebase counts 1 ns (R397). -/
theorem Clock.tick_timebase_plain {k : Clock} (hhi : k.trimAcc + k.beaconTrim < 10 ^ 9) (hlo : -(10 ^ 9) < k.trimAcc + k.beaconTrim)
    (hslew : k.slew = 0) : k.tick.timebase = k.timebase + 1 := by
  unfold Clock.tick
  dsimp only
  rw [if_neg (not_le.mpr hhi), if_neg (not_le.mpr hlo)]
  simp [hslew]

/-! ### An idle step (log entries 2 and 123) -/

/-- With no COMPUTE_RESET that waits for its routers nothing is due. -/
theorem State.resetProgress_none {s : State} (h : s.boot.resetDrain = none) : s.resetProgress = s := by
  simp [State.resetProgress, h]

theorem idle_clock {s : State} (h : s.boot.resetDrain = none) :
    idle s = { s with clock := if s.clock.counting then s.clock.tick else s.clock } := by
  unfold idle
  by_cases hc : s.clock.counting
  · rw [if_pos hc, if_pos hc]
    exact State.resetProgress_none h
  · rw [if_neg hc, if_neg hc]

/-! ### Every command answers a next state (log entries 1 and 102) -/

/-- A command answers a next state, neither a fault nor a refusal. Every meaning is a tree of tests whose leaves do, and the proofs below follow that tree. -/
def Answers (o : Out) : Prop := ∃ t, o = .next t

namespace Answers

theorem next (t : State) : Answers (.next t) := ⟨t, rfl⟩

theorem ite {p : Prop} [Decidable p] {o q : Out} (ho : Answers o) (hq : Answers q) : Answers (if p then o else q) := by
  split
  · exact ho
  · exact hq

end Answers

/-- Whatever its meaning, the issue of a word answers a next state. -/
theorem issue_answers (c : Nat) (w : BitVec 64) (s : State) (run : State → Core → Nat → State) : Answers (issue c w s run) := by
  rcases issue_cases c w s run with h | h | ⟨_, _, h⟩ | ⟨_, _, h⟩ <;> exact ⟨_, h⟩

theorem sysRead_answers (core fn : Nat) (body : BitVec 48) (s : State) (val : State → Core → Nat → BitVec 64) :
    Answers (sysRead core fn body s val) :=
  issue_answers _ _ _ _

theorem remote_answers (isGet : Bool) (core opc : Nat) (body : BitVec 56) (s : State) : Answers (remote isGet core opc body s) :=
  issue_answers _ _ _ _

theorem sendRows_answers (kind core opc : Nat) (body : BitVec 56) (s : State) : Answers (sendRows kind core opc body s) :=
  issue_answers _ _ _ _

/-- Whatever the command, a slot is accepted or left. -/
theorem acceptAs_answers (op slot : Nat) (s : State) : Answers (acceptAs op slot s) :=
  .ite (.next _) (.ite (.next _) (.ite (.next _) (.next _)))

/-! ### Core events, the fabric and DMA -/

theorem execWaitComplete_answers (core : Nat) (s : State) : Answers (execWaitComplete core s) := by
  unfold execWaitComplete
  split
  · dsimp only
    split <;> exact .next _
  · exact .next _

theorem execExternalWriteLand_answers (memory cycle : Nat) (s : State) : Answers (execExternalWriteLand memory cycle s) := by
  unfold execExternalWriteLand
  refine .ite (.next _) ?_
  split <;> exact .next _

theorem execRemoteRequestArrival_answers (pkt cycle : Nat) (s : State) : Answers (execRemoteRequestArrival pkt cycle s) := by
  unfold execRemoteRequestArrival
  split
  · exact .next _
  · refine .ite ?_ (.next _)
    split <;> exact .next _

theorem execReduceInputArrival_answers (pkt : Nat) (s : State) : Answers (execReduceInputArrival pkt s) := by
  unfold execReduceInputArrival
  split
  · exact .next _
  · split
    · exact .next _
    · exact .ite (.next _) (.ite (.next _) (.next _))

theorem execDmaLaunch_answers (pkt : Nat) (s : State) : Answers (execDmaLaunch pkt s) := by
  unfold execDmaLaunch
  split
  · exact .next _
  · refine .ite ?_ (.next _)
    dsimp only
    split <;> exact .next _

theorem execDmaTransferStart_answers (io channel : Nat) (s : State) : Answers (execDmaTransferStart io channel s) := by
  unfold execDmaTransferStart
  split
  · exact .ite (.next _) (.next _)
  · exact .next _

theorem execDmaTransferComplete_answers (io channel : Nat) (s : State) : Answers (execDmaTransferComplete io channel s) := by
  unfold execDmaTransferComplete
  split
  · exact .next _
  · exact .ite (.next _) (.next _)

theorem execRowDelivery_answers (pkt cycle : Nat) (s : State) : Answers (execRowDelivery pkt cycle s) := by
  unfold execRowDelivery
  split
  · exact .next _
  · refine .ite (.next _) (.ite (.ite (.next _) ?_) ?_)
    · split
      · exact .ite (.next _) (.next _)
      · exact .next _
    · split
      · exact .next _
      · exact .ite (.next _) (.ite (.next _) (.next _))

theorem execReplyArrival_answers (pkt cycle : Nat) (s : State) : Answers (execReplyArrival pkt cycle s) := by
  unfold execReplyArrival
  split
  · exact .next _
  · exact .ite (.ite (.next _) (.ite (.next _) (.next _))) (.next _)

theorem execFabricPacketArrival_answers (pkt cycle : Nat) (headerOk payloadOk : Bool) (lane : Option Nat) (t : State) :
    Answers (execFabricPacketArrival pkt cycle headerOk payloadOk lane t) := by
  unfold execFabricPacketArrival
  dsimp only
  split
  · exact .next _
  · exact .ite (.next _) (.ite (.next _) (.ite (.next _) (.ite (.next _) (.ite (.next _) (.next _)))))

theorem execScrubRow_answers (memory row outcome word : Nat) (s : State) : Answers (execScrubRow memory row outcome word s) := by
  unfold execScrubRow
  split
  · exact .ite (.next _) (.next _)
  · exact .ite (.next _) (.ite (.next _) (.next _))

/-! ### The host, transfers and ticks -/

theorem execHostWindowWrite_answers (isWrite : Bool) (offset : Nat) (bytes : List Byte) (s : State) :
    Answers (execHostWindowWrite isWrite offset bytes s) :=
  .ite (.next _) <| .ite (.next _) <| .ite (.ite (.next _) (.ite (.next _) (.ite (.next _) (.ite (.next _) (.next _))))) (.next _)

theorem execCompletionRecordWrite_answers (s : State) : Answers (execCompletionRecordWrite s) := by
  unfold execCompletionRecordWrite
  dsimp only
  split
  · exact .ite (.next _) (.next _)
  · exact .next _

theorem execHostPieceStart_answers (tag : Nat) (s : State) : Answers (execHostPieceStart tag s) := by
  unfold execHostPieceStart
  split
  · exact .next _
  · split
    · exact .next _
    · refine .ite (.next _) (.ite (.next _) ?_)
      split <;> exact .next _

theorem execHostPieceComplete_answers (tag piece : Nat) (s : State) : Answers (execHostPieceComplete tag piece s) := by
  unfold execHostPieceComplete
  split
  · exact .next _
  · split
    · exact .next _
    · exact .ite (.next _) (.ite (.ite (.next _) (.ite (.next _) (.next _))) (.ite (.next _) (.next _)))

theorem execFrameTick_answers (s : State) : Answers (execFrameTick s) := by
  unfold execFrameTick
  split <;> exact .next _

/-! ### Links and the group -/

theorem execPortRetryTimer_answers (port : Nat) (s : State) : Answers (execPortRetryTimer port s) := by
  unfold execPortRetryTimer
  refine .ite (.next _) ?_
  split
  · exact .next _
  · exact .ite (.next _) (.next _)

theorem execPeerVerification_answers (port : Nat) (reply : PeerReply) (s : State) : Answers (execPeerVerification port reply s) := by
  unfold execPeerVerification
  refine .ite (.next _) ?_
  dsimp only
  split
  · exact .ite (.next _) (.ite (.next _) (.next _))
  · exact .next _

theorem execIdentityReplyTimeout_answers (port : Nat) (s : State) : Answers (execIdentityReplyTimeout port s) := by
  unfold execIdentityReplyTimeout
  refine .ite (.next _) ?_
  split
  · exact .ite (.next _) (.next _)
  · exact .next _

theorem execOutboundTransferComplete_answers (io route xferId : Nat) (s : State) :
    Answers (execOutboundTransferComplete io route xferId s) := by
  unfold execOutboundTransferComplete
  refine .ite (.next _) ?_
  dsimp only
  split
  · exact .ite (.next _) (.next _)
  · exact .next _

theorem execTc3Ingress_answers (io : Nat) (s : State) : Answers (execTc3Ingress io s) := by
  unfold execTc3Ingress
  refine .ite (.next _) ?_
  split
  · exact .next _
  · refine .ite (.next _) ?_
    split
    · exact .next _
    · dsimp only
      split
      · exact .next _
      · exact .ite (.next _) (.next _)

theorem execTc3RowWrite_answers (s : State) : Answers (execTc3RowWrite s) := by
  unfold execTc3RowWrite
  split
  · exact .next _
  · exact .ite (.next _) (.ite (.next _) (.next _))

theorem execTc3TransferTimeout_answers (srcSlot xferId : Nat) (s : State) : Answers (execTc3TransferTimeout srcSlot xferId s) := by
  unfold execTc3TransferTimeout
  refine .ite ?_ ?_
  · split <;> exact .next _
  · split
    · exact .next _
    · exact .ite (.next _) (.next _)

theorem execHostLinkTraining_answers (goodLanes : BitVec 8) (s : State) : Answers (execHostLinkTraining goodLanes s) := by
  unfold execHostLinkTraining
  refine .ite (.next _) ?_
  split
  · exact .ite (.next _) (.next _)
  · exact .next _

theorem execGroupMessageReceive_answers (msg : GroupMsg) (s : State) : Answers (execGroupMessageReceive msg s) := by
  unfold execGroupMessageReceive
  refine .ite (.next _) ?_
  split
  · exact .next _
  · exact .next _
  · exact .ite (.next _) (.next _)
  · exact .ite (.next _) (.next _)
  · exact .ite (.next _) (.ite (.next _) (.next _))

theorem execTimeBeacon_answers (stamp roundTrip received : Nat) (s : State) : Answers (execTimeBeacon stamp roundTrip received s) :=
  .ite (.next _) <| .ite (.next _) <| .ite (.next _) <| .ite (.next _) <| .ite (.next _) (.next _)

theorem execManagerLost_answers (s : State) : Answers (execManagerLost s) := by
  unfold execManagerLost
  split
  · exact .ite (.next _) (.next _)
  · exact .next _

/-! ### Clocks, temperature, bring-up and units -/

theorem execReferenceLost_answers (s : State) : Answers (execReferenceLost s) := by
  unfold execReferenceLost
  split <;> exact .next _

theorem execReferenceReturned_answers (s : State) : Answers (execReferenceReturned s) := by
  unfold execReferenceReturned
  split <;> exact .next _

theorem execClockParentSwitch_answers (die : Nat) (s : State) : Answers (execClockParentSwitch die s) := by
  unfold execClockParentSwitch
  refine .ite (.next _) ?_
  dsimp only
  split <;> exact .next _

theorem execHardLimit_answers (unit : Nat) (reading : Int) (s : State) : Answers (execHardLimit unit reading s) := by
  unfold execHardLimit
  split
  · exact .next _
  · exact .ite (.next _) (.next _)

theorem execStageTimeout_answers (code : Nat) (late : List Nat) (s : State) : Answers (execStageTimeout code late s) := by
  unfold execStageTimeout
  refine .ite (.next _) ?_
  split <;> exact .next _

theorem execRecoveryBoot_answers (s : State) : Answers (execRecoveryBoot s) := by
  unfold execRecoveryBoot
  refine .ite (.next _) ?_
  dsimp only
  split <;> exact .next _

theorem execFirmwareBlockReceive_answers (site : Nat) (block digest : List Byte) (s : State) :
    Answers (execFirmwareBlockReceive site block digest s) := by
  unfold execFirmwareBlockReceive
  split
  · exact .next _
  · exact .ite (.next _) (.ite (.next _) (.ite (.next _) (.next _)))

theorem execUnitReprobe_answers (unit found : Nat) (s : State) : Answers (execUnitReprobe unit found s) := by
  unfold execUnitReprobe
  refine .ite (.next _) ?_
  split <;> exact .next _

theorem execDebugPortAccess_answers (op address : Nat) (data : List Byte) (s : State) :
    Answers (execDebugPortAccess op address data s) := by
  unfold execDebugPortAccess
  refine .ite (.next _) ?_
  split
  · exact .next _
  · exact .next _
  · exact .ite (.next _) (.next _)
  · exact .ite (.next _) (.next _)
  · exact .ite (.next _) (.next _)
  · exact .ite (.next _) (.next _)
  · exact .next _

/-! ### Every command -/

/-- A host command is accepted or left, and a core instruction issues or not. The events that only test conditions stand together by the shape of their
tests; one that also takes a value apart has its law above. -/
theorem exec_answers (i : Instr) (s : State) : Answers (exec i s) := by
  unfold exec
  cases i with
  | info _ | stage _ | proof _ | commit _ | read _ | planLoad _ | stepStart _ | stepCommit _ | stepReplay _ | dmaWrite _ | dmaRead _
  | healthErrors _ | healthCongestion _ | healthPorts _ | healthUnits _ | healthSensors _ | envelopeReport _ | attest _ | certRead _
  | keyAdd _ | debugUnlock _ | fwUpdate _ | computeReset _ | panelReset _ | zlRetrain _ | windowOpen _ | windowClose _ | groupCopy _ =>
    exact acceptAs_answers _ _ s
  | nop _ _ | loop _ _ | endf _ _ | slot _ _ | wait _ _ | scalarRegisterForm _ _ | scalarImmediateForm _ _ | clrst _ _ | twload _ _
  | tmac _ _ | tdrain _ _ | vectorFp32 _ _ | vectorBf16 _ _ | vectorInt32 _ _ | vectorFp32Functions _ _ | vred _ _ | vcvt _ _ | vld _ _
  | vst _ _ | getl _ _ | putl _ _ | rowcp _ _ | redsend _ _ | sig _ _ => exact issue_answers _ _ s _
  | rdtb _ _ | rdfi _ _ | rdcyc _ _ | rdid _ _ | rdst _ _ | rdctr _ _ => exact sysRead_answers _ _ _ s _
  | rget _ _ | rput _ _ => exact remote_answers _ _ _ _ s
  | send _ _ | mcrow _ _ | mccol _ _ => exact sendRows_answers _ _ _ _ s
  | tc0WindowStart | pmbusPoll _ | powerSecond | energyMinute | thermalDemandUpdate | thermalSecond => exact .next _
  | commandRelay _ _ _ _ _ | logEnableWrite _ | consWrite _ | interruptMessage | endfRetire _ | cycleLimitOverrun _ | arbiterWindowStart _
  | congestionMapAssemble | workerJoin | workerSilent _ | hostLinkDown | referenceHoldoverExpire | droopEvent _ _ _ | phaseLost _ _
  | zoneCurrentWarning _ | hbmTemperatureRead _ _ _ | flowPulse | pwrOkRise _ | pwrOkFall | panelResetN _ _ _ | auxFall | dataPathMark _ _ _
  | auxRise => exact .ite (.next _) (.next _)
  | identityRequest _ _ | portSignalLoss _ | healthGather | timingBeacon _ _ _ | deratedExpiry _ | sensorSample _ _ _ | ledgerWrite _ _ _ _
  | engineSidebandAccess _ _ _ _ _ _ => exact .ite (.next _) (.ite (.next _) (.next _))
  | stepInputsDone | stepOutputsDone => exact .ite (.ite (.next _) (.next _)) (.next _)
  | portTraining _ _ _ | laneRetire _ _ | coolantLossDetect _ | stageComplete _ _ _ _ =>
    exact .ite (.next _) (.ite (.next _) (.ite (.next _) (.next _)))
  | linkFlitReceive _ _ _ _ _ => exact .ite (.next _) (.ite (.ite (.next _) (.next _)) (.ite (.next _) (.next _)))
  | hostWindowWrite _ _ _ => exact execHostWindowWrite_answers _ _ _ s
  | completionRecordWrite => exact execCompletionRecordWrite_answers s
  | waitComplete _ => exact execWaitComplete_answers _ s
  | remoteRequestArrival _ _ => exact execRemoteRequestArrival_answers _ _ s
  | replyArrival _ _ => exact execReplyArrival_answers _ _ s
  | fabricPacketArrival _ _ _ _ _ => exact execFabricPacketArrival_answers _ _ _ _ _ s
  | rowDelivery _ _ => exact execRowDelivery_answers _ _ s
  | externalWriteLand _ _ => exact execExternalWriteLand_answers _ _ s
  | reduceInputArrival _ => exact execReduceInputArrival_answers _ s
  | dmaLaunch _ => exact execDmaLaunch_answers _ s
  | dmaTransferStart _ _ => exact execDmaTransferStart_answers _ _ s
  | dmaTransferComplete _ _ => exact execDmaTransferComplete_answers _ _ s
  | hostPieceStart _ => exact execHostPieceStart_answers _ s
  | hostPieceComplete _ _ => exact execHostPieceComplete_answers _ _ s
  | scrubRow _ _ _ _ => exact execScrubRow_answers _ _ _ _ s
  | frameTick => exact execFrameTick_answers s
  | portRetryTimer _ => exact execPortRetryTimer_answers _ s
  | peerVerification _ _ => exact execPeerVerification_answers _ _ s
  | tc3Ingress _ => exact execTc3Ingress_answers _ s
  | outboundTransferComplete _ _ _ => exact execOutboundTransferComplete_answers _ _ _ s
  | tc3TransferTimeout _ _ => exact execTc3TransferTimeout_answers _ _ s
  | tc3RowWrite => exact execTc3RowWrite_answers s
  | groupMessageReceive _ => exact execGroupMessageReceive_answers _ s
  | timeBeacon _ _ _ => exact execTimeBeacon_answers _ _ _ s
  | managerLost => exact execManagerLost_answers s
  | hostLinkTraining _ => exact execHostLinkTraining_answers _ s
  | referenceLost => exact execReferenceLost_answers s
  | referenceReturned => exact execReferenceReturned_answers s
  | clockParentSwitch _ => exact execClockParentSwitch_answers _ s
  | hardLimit _ _ => exact execHardLimit_answers _ _ s
  | stageTimeout _ _ => exact execStageTimeout_answers _ _ s
  | recoveryBoot => exact execRecoveryBoot_answers s
  | firmwareBlockReceive _ _ _ => exact execFirmwareBlockReceive_answers _ _ _ s
  | unitReprobe _ _ => exact execUnitReprobe_answers _ _ s
  | debugPortAccess _ _ _ => exact execDebugPortAccess_answers _ _ _ s
  | identityReplyTimeout _ => exact execIdentityReplyTimeout_answers _ s

/-- Whatever the state, its step answers a next one: the empty queue idles, and a command is run. -/
theorem stepsOn (s : State) : StepsOn s := by
  cases hp : s.pending with
  | nil => exact ⟨_, step_nil hp⟩
  | cons c rest =>
    rw [StepsOn, step_cons hp]
    exact exec_answers c _

/-! ### The statement -/

/-- Settles O2: an idle step is one count (`idle_clock`), whose bounds are those of `Clock.tick`, and every command answers a next state (`exec_answers`). -/
theorem emptyQueueIdles : Obligations.EmptyQueueIdles := by
  unfold Obligations.EmptyQueueIdles
  refine ⟨fun s hp hdrain => ?idles, fun k => ?counts, fun s _ => stepsOn s, fun _ s _ _ => stepsOn s, exec_answers⟩
  case idles => rw [step_nil hp, idle_clock hdrain]
  case counts =>
    obtain ⟨hback, hahead⟩ := k.tick_timebase_bounds
    exact ⟨hback, hahead, Clock.tick_timebase_plain⟩

end Sys2Proof.Machine
end

section
/-! PROOF. Panel memory and host memory are left alone by every function of the model that writes neither, in the model's order. -/

namespace Sys2Proof.Machine

/-- The memories of `t` are those of `s`. Reducible, so that a law of this form gives `simp` its two equations. -/
@[simp, reducible] def MemoriesKept (s t : State) : Prop := t.mem = s.mem ∧ t.hostMem = s.hostMem

theorem MemoriesKept.trans {s t u : State} (h : MemoriesKept s t) (h' : MemoriesKept t u) : MemoriesKept s u :=
  ⟨h'.1.trans h.1, h'.2.trans h.2⟩

@[simp] theorem State.mem_ite (p : Prop) [Decidable p] (s t : State) : (if p then s else t).mem = if p then s.mem else t.mem :=
  apply_ite State.mem p s t

@[simp] theorem State.hostMem_ite (p : Prop) [Decidable p] (s t : State) :
    (if p then s else t).hostMem = if p then s.hostMem else t.hostMem :=
  apply_ite State.hostMem p s t

/-- Whatever state a command answers, its memories are those before it. -/
def OutKept (s : State) (o : Out) : Prop := ∀ t, o = .next t → MemoriesKept s t

@[simp] theorem outKept_next (s t : State) : OutKept s (.next t) ↔ MemoriesKept s t := by simp [OutKept]

@[simp] theorem outKept_ite (p : Prop) [Decidable p] (s : State) (o q : Out) :
    OutKept s (if p then o else q) ↔ if p then OutKept s o else OutKept s q := by
  split <;> rfl

/-- A loop whose every turn keeps the memories keeps them. As with the fuses, the hypothesis names a turn by its result. -/
@[simp] theorem forEach_memories {β : Type} (xs : List β) (f : β → State → State) (s : State) (h : ∀ x s t, f x s = t → MemoriesKept s t) :
    MemoriesKept s (forEach xs f s) :=
  ⟨forEach_keeps State.mem xs f s fun x s => (h x s _ rfl).1, forEach_keeps State.hostMem xs f s fun x s => (h x s _ rfl).2⟩

/-! ### Functions of Machine/Ops.lean -/

@[simp] theorem State.sendHost_memories (s : State) (bytes : List Byte) : MemoriesKept s (s.sendHost bytes) := ⟨rfl, rfl⟩

@[simp] theorem State.modCore_memories (s : State) (c : Nat) (f : Core → Core) : MemoriesKept s (s.modCore c f) := by simp [State.modCore]

@[simp] theorem State.modCluster_memories (s : State) (c : Nat) (f : Cluster → Cluster) : MemoriesKept s (s.modCluster c f) := by
  simp [State.modCluster]

@[simp] theorem State.modPort_memories (s : State) (c : Nat) (f : Port → Port) : MemoriesKept s (s.modPort c f) := by simp [State.modPort]

@[simp] theorem State.modIoDie_memories (s : State) (c : Nat) (f : IoDie → IoDie) : MemoriesKept s (s.modIoDie c f) := by simp [State.modIoDie]

/-! ### Functions of Machine/Records.lean -/

@[simp] theorem State.event_memories (s : State) (code detail : Nat) (fault : Bool) : MemoriesKept s (s.event code detail fault) := by
  simp [State.event]

@[simp] theorem State.addError_memories (s : State) (e : ErrIn) : MemoriesKept s (s.addError e) := by simp [State.addError]

@[simp] theorem State.noteRefusal_memories (s : State) (status : Nat) : MemoriesKept s (s.noteRefusal status) := by simp [State.noteRefusal]

@[simp] theorem State.storeLedger_memories (s : State) (l : Ledger) : MemoriesKept s (s.storeLedger l) := ⟨rfl, rfl⟩

@[simp] theorem State.addLedger_memories (s : State) (unit action source detail : Nat) : MemoriesKept s (s.addLedger unit action source detail) := by
  simp [State.addLedger]

@[simp] theorem State.storeCount_memories (s : State) (e : CountEntry) : MemoriesKept s (s.storeCount e) := ⟨rfl, rfl⟩

@[simp] theorem State.countEvent_memories (s : State) (e : ErrIn) (failsStep : Bool) : MemoriesKept s (s.countEvent e failsStep) := by
  simp [State.countEvent]

@[simp] theorem State.countRetired_memories (s : State) (e : ErrIn) (action : Nat) (retire : State → State)
    (h : ∀ s t, retire s = t → MemoriesKept s t) :
    MemoriesKept s (s.countRetired e action retire) := by
  simp [State.countRetired, h _ _ rfl]

@[simp] theorem State.countLane_memories (s : State) (e : ErrIn) : MemoriesKept s (s.countLane e) := by simp [State.countLane]

@[simp] theorem State.failStep_memories (s : State) (frame status core detail : Nat) : MemoriesKept s (s.failStep frame status core detail) := by
  simp [State.failStep]

@[simp] theorem State.failWith_memories (s : State) (e : ErrIn) (detail : Nat) : MemoriesKept s (s.failWith e detail) := by simp [State.failWith]

@[simp] theorem State.coreFault_memories (s : State) (c : Nat) (kind : CoreFaultKind) (pc : Nat) (word : BitVec 64) (cycle reporter : Nat)
    (agent : Option Nat) :
    MemoriesKept s (s.coreFault c kind pc word cycle reporter agent) := by
  unfold State.coreFault
  split <;> simp

@[simp] theorem State.raiseCore_memories (s : State) (c : Nat) (kind : CoreFaultKind) (word : BitVec 64) (cycle : Nat) :
    MemoriesKept s (s.raiseCore c kind word cycle) := by
  simp [State.raiseCore]

@[simp] theorem State.timeout_memories (s : State) (c location route : Nat) : MemoriesKept s (s.timeout c location route) := by simp [State.timeout]

@[simp] theorem State.poisonRead_memories (s : State) (core : Nat) (e : ErrIn) : MemoriesKept s (s.poisonRead core e) := by simp [State.poisonRead]

@[simp] theorem State.consumePoison_memories (s : State) (core cycle : Nat) (t : Target) : MemoriesKept s (s.consumePoison core cycle t) := by
  simp [State.consumePoison]

@[simp] theorem State.consumeRows_memories (s : State) (ts : List Target) : MemoriesKept s (s.consumeRows ts) := by simp [State.consumeRows]

@[simp] theorem State.accRead_memories (s : State) (c cycle : Nat) (rows : List Nat) : MemoriesKept s (s.accRead c cycle rows) := by
  simp [State.accRead]

@[simp] theorem State.consumeInputs_memories (s : State) (die : Nat) (ins : List RedInput) : MemoriesKept s (s.consumeInputs die ins) := by
  simp [State.consumeInputs]

/-! ### Functions of Machine/Ports.lean -/

@[simp] theorem State.readAct_memories (s : State) (c i : Nat) (a : Act) : MemoriesKept s (s.readAct c i a) := by
  unfold State.readAct
  split <;> simp

/-! ### Functions of Machine/CoreIssue.lean -/

@[simp] theorem State.illegal_memories (s : State) (c : Nat) (w : BitVec 64) : MemoriesKept s (s.illegal c w) := by simp [State.illegal]

/-! ### Functions of Machine/Arbiters.lean -/

@[simp] theorem State.runArbiter_memories (s : State) (n kept : Nat) : MemoriesKept s (s.runArbiter n kept) := by simp [State.runArbiter]

@[simp] theorem State.request_memories (s : State) (n : Nat) (r : ArbReq) : MemoriesKept s (s.request n r) := by simp [State.request]

@[simp] theorem State.dropRequests_memories (s : State) (gone : ArbReq → Bool) : MemoriesKept s (s.dropRequests gone) := ⟨rfl, rfl⟩

theorem State.planUnit_memories (s : State) (stack : Nat) : ∀ t, s.planUnit stack = some t → MemoriesKept s t := by
  intro t h
  unfold State.planUnit at h
  dsimp only at h
  split at h <;> cases h
  exact ⟨rfl, rfl⟩

@[simp] theorem State.countEdge_memories (s : State) (n : Nat) (p : Packet) (flits : Nat) : MemoriesKept s (s.countEdge n p flits) := by
  simp [State.countEdge]

@[simp] theorem State.newWindow_memories (s : State) (n : Nat) : MemoriesKept s (s.newWindow n) := by simp [State.newWindow]

@[simp] theorem execArbiterWindowStart_memories (arbiter : Nat) (s : State) : OutKept s (execArbiterWindowStart arbiter s) := by
  simp [execArbiterWindowStart]

/-! ### Functions of Machine/Routing.lean -/

@[simp] theorem State.poisonBound_memories (s : State) : MemoriesKept s s.poisonBound := ⟨rfl, rfl⟩

/-! ### Functions of Machine/Fabric.lean -/

@[simp] theorem State.dropPacket_memories (s : State) (i : Nat) : MemoriesKept s (s.dropPacket i) := by simp [State.dropPacket]

@[simp] theorem State.lose_memories (s : State) (p : Packet) : MemoriesKept s (s.lose p) := by simp [State.lose]

@[simp] theorem State.enterLocal_memories (s : State) (p : Packet) (x : Nat) : MemoriesKept s (s.enterLocal p x) := by simp [State.enterLocal]

@[simp] theorem State.countStalls_memories (s : State) (place port plane x next : Nat) :
    MemoriesKept s (s.countStalls place port plane x next) := ⟨rfl, rfl⟩

@[simp] theorem State.countOut_memories (s : State) (p : Packet) (port x : Nat) : MemoriesKept s (s.countOut p port x) := by simp [State.countOut]

@[simp] theorem State.moveFlit_memories (s : State) (i : Nat) (p : Packet) (x : Nat) : MemoriesKept s (s.moveFlit i p x) := by simp [State.moveFlit]

@[simp] theorem State.discardHeader_memories (s : State) (i : Nat) (p : Packet) (lane : Option Nat) : MemoriesKept s (s.discardHeader i p lane) := by
  simp [State.discardHeader]

@[simp] theorem State.poisonPacket_memories (s : State) (i : Nat) (p : Packet) : MemoriesKept s (s.poisonPacket i p) := by simp [State.poisonPacket]

@[simp] theorem State.laneError_memories (s : State) (p : Packet) (lane : Option Nat) : MemoriesKept s (s.laneError p lane) := by
  unfold State.laneError
  split <;> simp

@[simp] theorem State.increment_memories (s : State) (c ctr cycle : Nat) : MemoriesKept s (s.increment c ctr cycle) := by simp [State.increment]

@[simp] theorem State.releaseIncs_memories (s : State) (cycle : Nat) : MemoriesKept s (s.releaseIncs cycle) := by simp [State.releaseIncs]

@[simp] theorem State.addInc_memories (s : State) (n : Inc) (cycle : Nat) : MemoriesKept s (s.addInc n cycle) := by simp [State.addInc]

@[simp] theorem State.senderFault_memories (s : State) (p : Packet) (kind : CoreFaultKind) : MemoriesKept s (s.senderFault p kind) := by
  simp [State.senderFault]

@[simp] theorem State.pushArrived_memories (s : State) (mem : Nat) (a : Arrived) : MemoriesKept s (s.pushArrived mem a) := ⟨rfl, rfl⟩

@[simp] theorem State.modChannel_memories (s : State) (io ch : Nat) (f : Channel → Channel) : MemoriesKept s (s.modChannel io ch f) := by
  simp [State.modChannel]

@[simp] theorem State.rowLanded_memories (s : State) (sender : Nat) : MemoriesKept s (s.rowLanded sender) := by simp [State.rowLanded]

@[simp] theorem State.agentServed_memories (s : State) (m cycle : Nat) : MemoriesKept s (s.agentServed m cycle) := ⟨rfl, rfl⟩

@[simp] theorem State.noteRead_memories (s : State) (m cycle row : Nat) : MemoriesKept s (s.noteRead m cycle row) := ⟨rfl, rfl⟩

theorem State.quota_memories (s : State) (p : Packet) : ∀ t, s.quota p = some t → MemoriesKept s t := by
  intro t h
  unfold State.quota at h
  split at h
  · split at h
    · split at h
      · split at h
        · split at h <;> cases h
          exact ⟨rfl, rfl⟩
        · exact State.planUnit_memories _ _ t h
      · cases h; exact ⟨rfl, rfl⟩
    · cases h; exact ⟨rfl, rfl⟩
  · cases h; exact ⟨rfl, rfl⟩

@[simp] theorem State.reduceInput_memories (s : State) (i die : Nat) (p : Packet) : MemoriesKept s (s.reduceInput i die p) := by
  unfold State.reduceInput
  split <;> simp

@[simp] theorem execReduceInputArrival_memories (pkt : Nat) (s : State) : OutKept s (execReduceInputArrival pkt s) := by
  unfold execReduceInputArrival
  split
  · simp
  · split <;> simp

@[simp] theorem execTc0WindowStart_memories (s : State) : OutKept s (execTc0WindowStart s) := by simp [execTc0WindowStart]

/-! ### Functions of Machine/Dma.lean -/

@[simp] theorem execDmaLaunch_memories (pkt : Nat) (s : State) : OutKept s (execDmaLaunch pkt s) := by
  unfold execDmaLaunch
  split
  · simp
  · split
    · dsimp only
      split <;> simp
    · simp

@[simp] theorem State.startDesc_memories (s : State) (io ch : Nat) (d : Desc) : MemoriesKept s (s.startDesc io ch d) := by
  unfold State.startDesc
  split
  · simp
  · split <;> simp

@[simp] theorem execDmaTransferStart_memories (io channel : Nat) (s : State) : OutKept s (execDmaTransferStart io channel s) := by
  unfold execDmaTransferStart
  split <;> simp

@[simp] theorem State.flightRead_memories (s : State) (t : Target) (reader : Nat) : MemoriesKept s (s.flightRead t reader) := by simp [State.flightRead]

@[simp] theorem State.consumeUnit_memories (s : State) (t : Target) (reader : Nat) : MemoriesKept s (s.consumeUnit t reader) := by
  simp [State.consumeUnit]

@[simp] theorem State.consumeFlight_memories (s : State) (p : Packet) : MemoriesKept s (s.consumeFlight p) := by
  unfold State.consumeFlight
  split <;> simp

@[simp] theorem State.takeData_memories (s : State) (p : Packet) : MemoriesKept s (s.takeData p) := by simp [State.takeData]

/-! ### Functions of Machine/HostPort.lean -/

@[simp] theorem State.setLogEnable_memories (s : State) (v : Bool) : MemoriesKept s (s.setLogEnable v) := ⟨rfl, rfl⟩

@[simp] theorem State.writeLog_memories (s : State) (o : Nat) (bytes : List Byte) : MemoriesKept s (s.writeLog o bytes) := by simp [State.writeLog]

@[simp] theorem State.writeIrq_memories (s : State) (o : Nat) (bytes : List Byte) : MemoriesKept s (s.writeIrq o bytes) := by simp [State.writeIrq]

@[simp] theorem State.writeStatus_memories (s : State) (o : Nat) (bytes : List Byte) : MemoriesKept s (s.writeStatus o bytes) := ⟨rfl, rfl⟩

@[simp] theorem State.writeSlot_memories (s : State) (off : Nat) (bytes : List Byte) : MemoriesKept s (s.writeSlot off bytes) := by
  simp [State.writeSlot]

@[simp] theorem State.badAccess_memories (s : State) (isWrite : Bool) (n : Nat) : MemoriesKept s (s.badAccess isWrite n) := ⟨rfl, rfl⟩

@[simp] theorem execHostWindowWrite_memories (isWrite : Bool) (offset : Nat) (bytes : List Byte) (s : State) :
    OutKept s (execHostWindowWrite isWrite offset bytes s) := by
  simp [execHostWindowWrite]

@[simp] theorem execLogEnableWrite_memories (value : Bool) (s : State) : OutKept s (execLogEnableWrite value s) := by simp [execLogEnableWrite]

@[simp] theorem execConsWrite_memories (value : BitVec 32) (s : State) : OutKept s (execConsWrite value s) := by simp [execConsWrite]

@[simp] theorem execInterruptMessage_memories (s : State) : OutKept s (execInterruptMessage s) := by simp [execInterruptMessage]

@[simp] theorem State.completeAt_memories (s : State) (c : Cmd) (t status slot detail result xferWord flags : Nat) :
    MemoriesKept s (s.completeAt c t status slot detail result xferWord flags) := by
  simp [State.completeAt]

@[simp] theorem State.complete_memories (s : State) (c : Cmd) (status detail result : Nat) : MemoriesKept s (s.complete c status detail result) := by
  simp [State.complete]

/-! ### Functions of Machine/Settings.lean -/

@[simp] theorem State.syncPorts_memories (s : State) : MemoriesKept s s.syncPorts := by simp [State.syncPorts]

@[simp] theorem State.enterProfile_memories (s : State) (p : Nat) : MemoriesKept s (s.enterProfile p) := ⟨rfl, rfl⟩

@[simp] theorem State.commitProfile_memories (s : State) (p : Nat) : MemoriesKept s (s.commitProfile p) := by simp [State.commitProfile]

@[simp] theorem State.reformGroup_memories (s : State) : MemoriesKept s s.reformGroup := ⟨rfl, rfl⟩

@[simp] theorem State.applySettings_memories (s : State) (es : List StagedEntry) : MemoriesKept s (s.applySettings es) := by simp [State.applySettings]

@[simp] theorem runStage_memories (c : Cmd) (s : State) : MemoriesKept s (runStage c s) := by simp [runStage]

@[simp] theorem runProof_memories (c : Cmd) (s : State) : MemoriesKept s (runProof c s) := by
  unfold runProof
  split
  · simp
  · split <;> simp

@[simp] theorem runCommit_memories (c : Cmd) (s : State) : MemoriesKept s (runCommit c s) := by
  unfold runCommit
  extract_lets es
  split
  · simp
  · generalize (if s.settings.proofed then none else s.proofFails es) = f
    cases f <;> simp +zetaDelta

@[simp] theorem runRead_memories (c : Cmd) (s : State) : MemoriesKept s (runRead c s) := by simp [runRead]

@[simp] theorem State.recallCommit_memories (s : State) (p : PendingCommit) : MemoriesKept s (s.recallCommit p) := by simp [State.recallCommit]

theorem State.commitOne_memories (s : State) (p : PendingCommit) : ∀ t, s.commitOne p = some t → MemoriesKept s t := by
  intro t h
  unfold State.commitOne at h
  split at h
  · cases h
  · dsimp only at h
    split at h <;> cases h <;> split <;> simp

@[simp] theorem State.joinAtTick_memories (s : State) : MemoriesKept s s.joinAtTick := by
  unfold State.joinAtTick
  split <;> simp

@[simp] theorem State.noteValues_memories (s : State) : MemoriesKept s s.noteValues := ⟨rfl, rfl⟩

/-- A pending commit that is applied or discarded keeps the memories. -/
theorem State.commitBind_memories {s t : State} {o : Option PendingCommit} (h : o.bind s.commitOne = some t) : MemoriesKept s t := by
  obtain ⟨p, -, hp⟩ := Option.bind_eq_some_iff.mp h
  exact State.commitOne_memories s p t hp

@[simp] theorem State.commitAtTick_memories (s : State) : MemoriesKept s s.commitAtTick := by
  unfold State.commitAtTick
  extract_lets s0 s1
  have h1 : MemoriesKept s0 s1 := by
    unfold s1
    split
    · exact ⟨rfl, rfl⟩
    · next t h => simp [State.commitBind_memories h]
  have h0 : MemoriesKept s s0 := State.joinAtTick_memories s
  split
  · exact h0.trans h1
  · next t h =>
    have ht : MemoriesKept s1 t := State.commitBind_memories h
    exact (h0.trans h1).trans ⟨ht.1, ht.2⟩

/-! ### Functions of Machine/Map.lean -/

@[simp] theorem State.withMap_memories (s : State) (m : GridMap) : MemoriesKept s (s.withMap m) := ⟨rfl, rfl⟩

@[simp] theorem State.noteLost_memories (s : State) : MemoriesKept s s.noteLost := by
  unfold State.noteLost
  refine forEach_memories _ _ _ ?_
  rintro e s _ rfl
  split
  · split <;> simp
  · split
    · split <;> simp
    · exact ⟨rfl, rfl⟩

@[simp] theorem State.discardPlan_memories (s : State) : MemoriesKept s s.discardPlan := by simp [State.discardPlan]

@[simp] theorem State.portState_memories (s : State) (p st : Nat) : MemoriesKept s (s.portState p st) := by simp [State.portState]

@[simp] theorem State.setUnit_memories (s : State) (u st source : Nat) : MemoriesKept s (s.setUnit u st source) := by simp [State.setUnit]

@[simp] theorem State.failUser_memories (s : State) (u : Nat) : MemoriesKept s (s.failUser u) := by simp [State.failUser]

@[simp] theorem State.markAtOnce_memories (s : State) (us : List Nat) (source : Nat) : MemoriesKept s (s.markAtOnce us source) := ⟨rfl, rfl⟩

@[simp] theorem State.spareLost_memories (s : State) (atTick : Bool) (u : Nat) : MemoriesKept s (s.spareLost atTick u) := by simp [State.spareLost]

@[simp] theorem State.disagree_memories (s : State) (unit code reporter : Nat) : MemoriesKept s (s.disagree unit code reporter) := by
  simp [State.disagree]

@[simp] theorem State.ledgerEntry_memories (s : State) (u st source : Nat) : MemoriesKept s (s.ledgerEntry u st source) := by simp [State.ledgerEntry]

/-! ### Functions of Machine/Steps.lean -/

@[simp] theorem State.distribute_memories (s : State) (imgs : List (Nat × List Byte)) : MemoriesKept s (s.distribute imgs) := by simp [State.distribute]

@[simp] theorem State.completeSlot_memories (s : State) (c : Cmd) (status slot detail : Nat) :
    MemoriesKept s (s.completeSlot c status slot detail) := by
  simp [State.completeSlot]

@[simp] theorem State.finishLoad_memories (s : State) : MemoriesKept s s.finishLoad := by
  unfold State.finishLoad
  split <;> simp

@[simp] theorem State.stopLoad_memories (s : State) : MemoriesKept s s.stopLoad := by
  unfold State.stopLoad
  split <;> simp

@[simp] theorem State.loadReport_memories (s : State) (slot status detail : Nat) : MemoriesKept s (s.loadReport slot status detail) := by
  unfold State.loadReport
  split
  · exact ⟨rfl, rfl⟩
  · extract_lets _ s1 _ _ s2
    split
    · exact ⟨rfl, rfl⟩
    · split
      · exact ⟨rfl, rfl⟩
      · exact State.completeSlot_memories _ _ _ _ _

@[simp] theorem State.dropPieces_memories (s : State) (x : Xfer) : MemoriesKept s (s.dropPieces x) := by simp [State.dropPieces]

@[simp] theorem State.openStep_memories (s : State) (write : Bool) (ds : List Descr) : MemoriesKept s (s.openStep write ds) := ⟨rfl, rfl⟩

@[simp] theorem State.dropStep_memories (s : State) : MemoriesKept s s.dropStep := by simp [State.dropStep]

@[simp] theorem State.takeGroup_memories (s : State) : MemoriesKept s s.takeGroup := by simp [State.takeGroup]

@[simp] theorem State.beginRun_memories (s : State) (c : Cmd) (st : Step) : MemoriesKept s (s.beginRun c st) := by simp [State.beginRun]

@[simp] theorem runStepStart_memories (c : Cmd) (s : State) : MemoriesKept s (runStepStart c s) := by
  unfold runStepStart
  split <;> simp

@[simp] theorem State.fixFlip_memories (s : State) (tag : Option Nat) : MemoriesKept s (s.fixFlip tag) := by simp [State.fixFlip]

@[simp] theorem runStepCommit_memories (c : Cmd) (s : State) : MemoriesKept s (runStepCommit c s) := by
  unfold runStepCommit
  split
  · simp
  · split <;> simp

@[simp] theorem runStepReplay_memories (c : Cmd) (s : State) : MemoriesKept s (runStepReplay c s) := by
  unfold runStepReplay
  split
  · simp
  · dsimp only
    split
    case h_5 | h_6 =>
      split
      · simp
      · split
        · simp
        · split <;> simp
    all_goals simp

@[simp] theorem State.judgeBudget_memories (s : State) : MemoriesKept s s.judgeBudget := by simp [State.judgeBudget]

@[simp] theorem State.holdCores_memories (s : State) : MemoriesKept s s.holdCores := ⟨rfl, rfl⟩

@[simp] theorem State.leaveGroup_memories (s : State) (t : Nat) : MemoriesKept s (s.leaveGroup t) := by simp [State.leaveGroup]

@[simp] theorem State.reportFaults_memories (s : State) : MemoriesKept s s.reportFaults := by simp [State.reportFaults]

@[simp] theorem State.orderOwnStop_memories (s : State) : MemoriesKept s s.orderOwnStop := by
  unfold State.orderOwnStop
  split <;> simp

@[simp] theorem State.countClockRuns_memories (s : State) : MemoriesKept s s.countClockRuns := ⟨rfl, rfl⟩

@[simp] theorem State.endFailed_memories (s : State) : MemoriesKept s s.endFailed := by
  unfold State.endFailed
  split
  · simp
  · dsimp only
    split
    · simp
    · split <;> simp

@[simp] theorem State.endClean_memories (s : State) : MemoriesKept s s.endClean := by
  unfold State.endClean
  dsimp only
  split
  · simp
  · split <;> simp

@[simp] theorem State.flipAtTick_memories (s : State) : MemoriesKept s s.flipAtTick := by
  unfold State.flipAtTick
  split
  · simp
  · split
    · simp
    · split
      · split <;> simp
      · split <;> simp

@[simp] theorem execStepInputsDone_memories (s : State) : OutKept s (execStepInputsDone s) := by simp [execStepInputsDone]

@[simp] theorem execStepOutputsDone_memories (s : State) : OutKept s (execStepOutputsDone s) := by simp [execStepOutputsDone]

/-! ### Functions of Machine/Transfers.lean -/

@[simp] theorem State.startXfer_memories (s : State) (c : Cmd) (write : Bool) : MemoriesKept s (s.startXfer c write) := by
  unfold State.startXfer
  split <;> simp

@[simp] theorem runDmaWrite_memories (c : Cmd) (s : State) : MemoriesKept s (runDmaWrite c s) := by simp [runDmaWrite]

@[simp] theorem runDmaRead_memories (c : Cmd) (s : State) : MemoriesKept s (runDmaRead c s) := by simp [runDmaRead]

@[simp] theorem State.setXfer_memories (s : State) (x : Xfer) : MemoriesKept s (s.setXfer x) := ⟨rfl, rfl⟩

@[simp] theorem State.endStepXfer_memories (s : State) (x : Xfer) : MemoriesKept s (s.endStepXfer x) := by simp [State.endStepXfer]

@[simp] theorem State.endXfer_memories (s : State) (x : Xfer) : MemoriesKept s (s.endXfer x) := by simp [State.endXfer]

@[simp] theorem State.hostProtection_memories (s : State) (a : Nat) : MemoriesKept s (s.hostProtection a) := by simp [State.hostProtection]

@[simp] theorem State.askUnit_memories (s : State) (x : Xfer) (p : Piece) : MemoriesKept s (s.askUnit x p).2 := by
  unfold State.askUnit
  split <;> simp

@[simp] theorem State.pieceRequests_memories (s : State) (x : Xfer) (p : Piece) (chan : Nat) : MemoriesKept s (s.pieceRequests x p chan) := by
  simp [State.pieceRequests]

@[simp] theorem State.renewUnit_memories (s : State) (x : Xfer) (p : Piece) : MemoriesKept s (s.renewUnit x p) := by
  unfold State.renewUnit
  split <;> simp

@[simp] theorem execHostPieceStart_memories (tag : Nat) (s : State) : OutKept s (execHostPieceStart tag s) := by
  unfold execHostPieceStart
  split
  · simp
  · split
    · simp
    · split
      · simp
      · split <;> simp

@[simp] theorem execHostPieceComplete_memories (tag piece : Nat) (s : State) : OutKept s (execHostPieceComplete tag piece s) := by
  unfold execHostPieceComplete
  split
  · simp
  · split <;> simp

@[simp] theorem State.abortXfer_memories (s : State) (x : Xfer) (status err : Nat) : MemoriesKept s (s.abortXfer x status err) := by
  simp [State.abortXfer]

@[simp] theorem State.sendCopy_memories (s : State) (slot src dst n : Nat) : MemoriesKept s (s.sendCopy slot src dst n).2 := by simp [State.sendCopy]

@[simp] theorem State.sendCopies_memories (c : Cmd) (ks : List Nat) (s : State) :
    MemoriesKept s (State.sendCopies c ks s).2 := by
  induction ks generalizing s with
  | nil => exact ⟨rfl, rfl⟩
  | cons k ks ih => simp [State.sendCopies, ih]

@[simp] theorem runGroupCopy_memories (c : Cmd) (s : State) : MemoriesKept s (runGroupCopy c s) := by
  unfold runGroupCopy
  split <;> simp

/-! ### Functions of Machine/Clocks.lean -/

@[simp] theorem execReferenceLost_memories (s : State) : OutKept s (execReferenceLost s) := by
  unfold execReferenceLost
  split <;> simp

@[simp] theorem execReferenceHoldoverExpire_memories (s : State) : OutKept s (execReferenceHoldoverExpire s) := by simp [execReferenceHoldoverExpire]

@[simp] theorem execReferenceReturned_memories (s : State) : OutKept s (execReferenceReturned s) := by
  unfold execReferenceReturned
  split <;> simp

@[simp] theorem State.lockClocks_memories (s : State) (bad : List Nat) : MemoriesKept s (s.lockClocks bad) := by simp [State.lockClocks]

@[simp] theorem execClockParentSwitch_memories (die : Nat) (s : State) : OutKept s (execClockParentSwitch die s) := by
  unfold execClockParentSwitch
  split
  · simp
  · dsimp only
    split
    · simp
    · exact (outKept_next _ _).mpr (forEach_memories _ _ _ (by simp))

@[simp] theorem State.setTrim_memories (s : State) (t : Int) : MemoriesKept s (s.setTrim t) := ⟨rfl, rfl⟩

@[simp] theorem State.corruptFifo_memories (s : State) (die key : Nat) : MemoriesKept s (s.corruptFifo die key) := by
  unfold State.corruptFifo
  refine (State.countLane_memories _ _).trans (forEach_memories _ _ _ ?_)
  rintro p s _ rfl
  split <;> simp

@[simp] theorem State.wander_memories (s : State) (die : Nat) (seps : List (Nat × Nat)) : MemoriesKept s (s.wander die seps) := by simp [State.wander]

@[simp] theorem execTimingBeacon_memories (die : Nat) (beacon : Nat × Nat) (seps : List (Nat × Nat)) (s : State) :
    OutKept s (execTimingBeacon die beacon seps s) := by
  simp [execTimingBeacon]

@[simp] theorem State.trainFifos_memories (s : State) : MemoriesKept s s.trainFifos := ⟨rfl, rfl⟩

@[simp] theorem State.protectiveDrop_memories (s : State) (ci mhz : Nat) : MemoriesKept s (s.protectiveDrop ci mhz) := by simp [State.protectiveDrop]

@[simp] theorem State.pointAtTick_memories (s : State) (ci : Nat) : MemoriesKept s (s.pointAtTick ci) := by simp [State.pointAtTick]

@[simp] theorem State.closeClockSecond_memories (s : State) : MemoriesKept s s.closeClockSecond := by simp [State.closeClockSecond]

/-! ### Functions of Machine/Power.lean -/

@[simp] theorem State.envelopeNotice_memories (s : State) (reason index : Nat) : MemoriesKept s (s.envelopeNotice reason index) := by
  simp [State.envelopeNotice]

@[simp] theorem State.pollOne_memories (readings : List PmbusAnswer) (key : Nat) (s : State) : MemoriesKept s (s.pollOne readings key) := by
  unfold State.pollOne
  split <;> simp

@[simp] theorem State.pollZone_memories (z : Nat) (s : State) : MemoriesKept s (s.pollZone z) := by
  unfold State.pollZone
  split <;> simp

@[simp] theorem execPmbusPoll_memories (readings : List PmbusAnswer) (s : State) : OutKept s (execPmbusPoll readings s) := by simp [execPmbusPoll]

@[simp] theorem State.requestStretch_memories (s : State) : MemoriesKept s s.requestStretch := by simp [State.requestStretch]

@[simp] theorem execPowerSecond_memories (s : State) : OutKept s (execPowerSecond s) := by simp [execPowerSecond]

@[simp] theorem State.reduceAtTick_memories (s : State) : MemoriesKept s s.reduceAtTick := by simp [State.reduceAtTick]

@[simp] theorem State.riseAtTick_memories (s : State) : MemoriesKept s s.riseAtTick := by simp [State.riseAtTick]

@[simp] theorem execEnergyMinute_memories (s : State) : OutKept s (execEnergyMinute s) := by simp [execEnergyMinute]

@[simp] theorem execZoneCurrentWarning_memories (zone : Nat) (s : State) : OutKept s (execZoneCurrentWarning zone s) := by
  simp [execZoneCurrentWarning]

@[simp] theorem State.loseFirstPhase_memories (s : State) (ci phase : Nat) : MemoriesKept s (s.loseFirstPhase ci phase) := by
  simp [State.loseFirstPhase]

@[simp] theorem execDeratedExpiry_memories (site : Nat) (s : State) : OutKept s (execDeratedExpiry site s) := by simp [execDeratedExpiry]

/-! ### Functions of Machine/Thermal.lean -/

@[simp] theorem State.thermalNotice_memories (s : State) (reason unit value : Nat) : MemoriesKept s (s.thermalNotice reason unit value) := by
  simp [State.thermalNotice]

@[simp] theorem State.noteHottest_memories (s : State) : MemoriesKept s s.noteHottest := ⟨rfl, rfl⟩

@[simp] theorem State.watchExit_memories (s : State) : MemoriesKept s s.watchExit := by simp [State.watchExit]

@[simp] theorem State.inletNotice_memories (s : State) : MemoriesKept s s.inletNotice := by simp [State.inletNotice]

@[simp] theorem State.sampleLid_memories (s : State) (a b : Int) : MemoriesKept s (s.sampleLid a b) := by simp [State.sampleLid]

@[simp] theorem State.faultRecord_memories (s : State) (k : Nat) (p : Pair) (source : Nat) : MemoriesKept s (s.faultRecord k p source) := by
  simp [State.faultRecord]

@[simp] theorem State.derateSensor_memories (s : State) (k : Nat) : MemoriesKept s (s.derateSensor k) := by simp [State.derateSensor]

@[simp] theorem State.samplePair_memories (s : State) (k : Nat) (a b : Int) : MemoriesKept s (s.samplePair k a b) := by simp [State.samplePair]

@[simp] theorem execSensorSample_memories (pair : Nat) (primary secondary : Int) (s : State) :
    OutKept s (execSensorSample pair primary secondary s) := by
  simp [execSensorSample]

@[simp] theorem execFlowPulse_memories (s : State) : OutKept s (execFlowPulse s) := by simp [execFlowPulse]

@[simp] theorem execThermalDemandUpdate_memories (s : State) : OutKept s (execThermalDemandUpdate s) := by simp [execThermalDemandUpdate]

@[simp] theorem State.throttle_memories (s : State) (ci : Nat) : MemoriesKept s (s.throttle ci) := by
  unfold State.throttle
  split
  · simp
  · dsimp only
    split
    · split <;> simp
    · simp

@[simp] theorem execThermalSecond_memories (s : State) : OutKept s (execThermalSecond s) := by
  unfold execThermalSecond
  extract_lets t s0 h n bad inSum inN rail pin ths ths theta cap flow _ s1 s2 s3 s4 s5
  clear_value theta cap flow
  have h2 : MemoriesKept s s2 := by
    unfold s2
    split
    · exact State.thermalNotice_memories _ _ _ _
    · exact ⟨rfl, rfl⟩
  have h3 : MemoriesKept s s3 := by simp [s3, h2]
  have h4 : MemoriesKept s s4 := by
    unfold s4
    split
    · split
      · exact h3.trans (State.thermalNotice_memories _ _ _ _)
      · exact h3
    · exact h3
  have h5 : MemoriesKept s s5 := by
    unfold s5
    split <;> simp [h4]
  exact (outKept_next s _).mpr (h5.trans (State.watchExit_memories s5))

@[simp] theorem State.beginResponse_memories (s : State) (condition : Nat) : MemoriesKept s (s.beginResponse condition) := by simp [State.beginResponse]

@[simp] theorem execCoolantLossDetect_memories (condition : Nat) (s : State) : OutKept s (execCoolantLossDetect condition s) := by
  simp [execCoolantLossDetect]

@[simp] theorem State.restartChallenges_memories (s : State) : MemoriesKept s s.restartChallenges := ⟨rfl, rfl⟩

@[simp] theorem State.responseAtTick_memories (s : State) : MemoriesKept s s.responseAtTick := by
  unfold State.responseAtTick
  split
  · exact ⟨rfl, rfl⟩
  · dsimp only
    split
    · split
      · split <;> simp
      · simp
    · simp

@[simp] theorem execHardLimit_memories (unit : Nat) (reading : Int) (s : State) : OutKept s (execHardLimit unit reading s) := by
  unfold execHardLimit
  split <;> simp

/-! ### Functions of Machine/Health.lean -/

@[simp] theorem State.noteOverflow_memories (s : State) : MemoriesKept s s.noteOverflow := by simp [State.noteOverflow]

@[simp] theorem execCongestionMapAssemble_memories (s : State) : OutKept s (execCongestionMapAssemble s) := by simp [execCongestionMapAssemble]

/-! ### Functions of Machine/SecurityCmds.lean -/

@[simp] theorem runFwUpdate_memories (c : Cmd) (s : State) : MemoriesKept s (runFwUpdate c s) := by
  unfold runFwUpdate
  dsimp only
  split <;> simp

@[simp] theorem State.storePolicy_memories (s : State) (p : Policy) : MemoriesKept s (s.storePolicy p) := ⟨rfl, rfl⟩

@[simp] theorem runKeyAdd_memories (c : Cmd) (s : State) : MemoriesKept s (runKeyAdd c s) := by
  unfold runKeyAdd
  split <;> simp

@[simp] theorem runDebugUnlock_memories (c : Cmd) (s : State) : MemoriesKept s (runDebugUnlock c s) := by
  unfold runDebugUnlock
  split <;> simp

/-! ### Functions of Machine/Resets.lean -/

@[simp] theorem State.beginStage_memories (s : State) (code unit : Nat) : MemoriesKept s (s.beginStage code unit) := ⟨rfl, rfl⟩

@[simp] theorem runPanelReset_memories (c : Cmd) (s : State) : MemoriesKept s (runPanelReset c s) := by simp [runPanelReset]

@[simp] theorem State.freezeEdges_memories (s : State) (v : Bool) : MemoriesKept s (s.freezeEdges v) := by
  unfold State.freezeEdges
  exact ⟨rfl, rfl⟩

@[simp] theorem runComputeReset_memories (c : Cmd) (s : State) : MemoriesKept s (runComputeReset c s) := by simp [runComputeReset]

@[simp] theorem State.endCrumbCommands_memories (s : State) : MemoriesKept s s.endCrumbCommands := by
  unfold State.endCrumbCommands
  split <;> simp

@[simp] theorem State.stopForReset_memories (s : State) : MemoriesKept s s.stopForReset := by simp [State.stopForReset]

@[simp] theorem State.resetCrumb_memories (s : State) (retain : Bool) : MemoriesKept s (s.resetCrumb retain) := ⟨rfl, rfl⟩

@[simp] theorem State.routersReset_memories (s : State) : MemoriesKept s s.routersReset := by simp [State.routersReset]

/-! ### Functions of Machine/Links.lean -/

@[simp] theorem State.relayDone_memories (s : State) (slot seq status detail result : Nat) :
    MemoriesKept s (s.relayDone slot seq status detail result) := by
  unfold State.relayDone
  split <;> simp

@[simp] theorem State.answerRelay_memories (s : State) (seq status detail result : Nat) : MemoriesKept s (s.answerRelay seq status detail result) := by
  simp [State.answerRelay]

@[simp] theorem State.answer_memories (s : State) (c : Cmd) (status detail result : Nat) : MemoriesKept s (s.answer c status detail result) := by
  simp [State.answer]

@[simp] theorem State.settleRetrains_memories (s : State) : MemoriesKept s s.settleRetrains := by
  unfold State.settleRetrains
  refine forEach_memories _ _ _ ?_
  rintro r s _ rfl
  dsimp only
  split
  · simp
  · split <;> simp

@[simp] theorem State.portTo_memories (s : State) (p st : Nat) : MemoriesKept s (s.portTo p st) := by simp [State.portTo]

@[simp] theorem State.startTraining_memories (s : State) (p : Nat) : MemoriesKept s (s.startTraining p) := by simp [State.startTraining]

@[simp] theorem State.failTraining_memories (s : State) (p : Nat) : MemoriesKept s (s.failTraining p) := by simp [State.failTraining]

@[simp] theorem execPortTraining_memories (port : Nat) (goodLanes : BitVec 8) (roundTripNs : Nat) (s : State) :
    OutKept s (execPortTraining port goodLanes roundTripNs s) := by
  simp [execPortTraining]

@[simp] theorem execPortRetryTimer_memories (port : Nat) (s : State) : OutKept s (execPortRetryTimer port s) := by
  unfold execPortRetryTimer
  split
  · simp
  · split <;> simp

@[simp] theorem State.failVerify_memories (s : State) (p : Nat) : MemoriesKept s (s.failVerify p) := by simp [State.failVerify]

@[simp] theorem execPeerVerification_memories (port : Nat) (reply : PeerReply) (s : State) : OutKept s (execPeerVerification port reply s) := by
  unfold execPeerVerification
  split
  · simp
  · dsimp only
    split <;> simp

@[simp] theorem execIdentityReplyTimeout_memories (port : Nat) (s : State) : OutKept s (execIdentityReplyTimeout port s) := by
  unfold execIdentityReplyTimeout
  split
  · simp
  · split <;> simp

@[simp] theorem execIdentityRequest_memories (port : Nat) (challenge : List Byte) (s : State) : OutKept s (execIdentityRequest port challenge s) := by
  simp [execIdentityRequest]

@[simp] theorem State.sendTx_memories (s : State) (e : Nat) (x : Tx) : MemoriesKept s (s.sendTx e x).1 := by
  unfold State.sendTx
  dsimp only
  split
  · exact ⟨rfl, rfl⟩
  · split
    · exact ⟨rfl, rfl⟩
    · split <;> simp

@[simp] theorem State.transmit_memories (s : State) (io : Nat) : MemoriesKept s (s.transmit io) := by
  unfold State.transmit
  split
  · exact ⟨rfl, rfl⟩
  · refine .trans (List.foldlRecOn _ _ (motive := fun acc : State × List Tx => MemoriesKept s acc.1) ⟨rfl, rfl⟩ ?_) (State.modIoDie_memories _ _ _)
    intro acc h w _
    dsimp only
    split <;> simp [h]

@[simp] theorem State.queueTx_memories (s : State) (io vc : Nat) (p : Packet) : MemoriesKept s (s.queueTx io vc p) := by simp [State.queueTx]

@[simp] theorem State.ingressFault_memories (s : State) (io route : Nat) : MemoriesKept s (s.ingressFault io route) := by simp [State.ingressFault]

@[simp] theorem State.ingressPacket_memories (s : State) (io : Nat) (p : Packet) : MemoriesKept s (s.ingressPacket io p) := by
  unfold State.ingressPacket
  split <;> simp

@[simp] theorem execOutboundTransferComplete_memories (io route xferId : Nat) (s : State) :
    OutKept s (execOutboundTransferComplete io route xferId s) := by
  unfold execOutboundTransferComplete
  split
  · simp
  · dsimp only
    split <;> simp

@[simp] theorem State.cross_memories (s : State) (io : Nat) (p : Packet) (to_ vc : Nat) : MemoriesKept s (s.cross io p to_ vc) := by simp [State.cross]

@[simp] theorem execTc3Ingress_memories (io : Nat) (s : State) : OutKept s (execTc3Ingress io s) := by
  unfold execTc3Ingress
  split
  · simp
  · split
    · simp
    · split
      · simp
      · split
        · simp
        · dsimp only
          split <;> simp

@[simp] theorem State.receivePacket_memories (s : State) (port vc : Nat) (p : Packet) : MemoriesKept s (s.receivePacket port vc p) := by
  unfold State.receivePacket
  split <;> simp

@[simp] theorem State.drainRx_memories (s : State) (io : Nat) : MemoriesKept s (s.drainRx io) := by simp [State.drainRx]

@[simp] theorem execPortSignalLoss_memories (port : Nat) (s : State) : OutKept s (execPortSignalLoss port s) := by simp [execPortSignalLoss]

@[simp] theorem runZlRetrain_memories (c : Cmd) (s : State) : MemoriesKept s (runZlRetrain c s) := by simp [runZlRetrain]

@[simp] theorem runWindowOpen_memories (c : Cmd) (s : State) : MemoriesKept s (runWindowOpen c s) := by
  unfold runWindowOpen
  split <;> simp

@[simp] theorem runWindowClose_memories (c : Cmd) (s : State) : MemoriesKept s (runWindowClose c s) := by simp [runWindowClose]

@[simp] theorem State.refuseTc3_memories (s : State) (p : Packet) : MemoriesKept s (s.refuseTc3 p) := by simp [State.refuseTc3]

@[simp] theorem State.setCopy_memories (s : State) (c : Copy) (ended : Option Nat) : MemoriesKept s (s.setCopy c ended) := by
  unfold State.setCopy
  split
  · split <;> simp
  · simp

@[simp] theorem State.takeAck_memories (s : State) (slot id : Nat) (inside : Bool) : MemoriesKept s (s.takeAck slot id inside) := by
  unfold State.takeAck
  split <;> simp

@[simp] theorem State.resendCopy_memories (s : State) (c : Copy) (id : Nat) : MemoriesKept s (s.resendCopy c id) := by
  unfold State.resendCopy
  split <;> simp

/-! ### Functions of Machine/HostLink.lean -/

@[simp] theorem State.linkDown_memories (s : State) : MemoriesKept s s.linkDown := by simp [State.linkDown]

@[simp] theorem State.linkTrained_memories (s : State) (m : BitVec 8) : MemoriesKept s (s.linkTrained m) := by simp [State.linkTrained]

@[simp] theorem execHostLinkDown_memories (s : State) : OutKept s (execHostLinkDown s) := by simp [execHostLinkDown]

@[simp] theorem execHostLinkTraining_memories (goodLanes : BitVec 8) (s : State) : OutKept s (execHostLinkTraining goodLanes s) := by
  unfold execHostLinkTraining
  split
  · simp
  · split <;> simp

/-! ### Functions of Machine/Delivery.lean -/

@[simp] theorem State.deliverRow_memories (s : State) (d : Nat) (p : Packet) (cycle : Nat) : MemoriesKept s (s.deliverRow d p cycle) := by
  simp [State.deliverRow]

@[simp] theorem State.egressPacket_memories (s : State) (io e : Nat) (p0 : Packet) : MemoriesKept s (s.egressPacket io e p0) := by
  unfold State.egressPacket
  dsimp only
  split <;> simp

@[simp] theorem execRowDelivery_memories (pkt cycle : Nat) (s : State) : OutKept s (execRowDelivery pkt cycle s) := by
  unfold execRowDelivery
  split
  · simp
  · split
    · simp
    · dsimp only
      split
      · split
        · simp
        · split <;> simp
      · split <;> simp

theorem State.handMsg_memories (s : State) : ∀ t, s.handMsg = some t → MemoriesKept s t := by
  intro t h
  obtain ⟨x, -, hx⟩ := Option.map_eq_some_iff.mp h
  rw [← hx]
  simp

@[simp] theorem State.sendBlock_memories (s : State) (code : Nat) : MemoriesKept s (s.sendBlock code) := by simp [State.sendBlock]

@[simp] theorem State.answerBlock_memories (s : State) (p : Packet) : MemoriesKept s (s.answerBlock p) := by
  unfold State.answerBlock
  split <;> simp

@[simp] theorem State.takeBlock_memories (s : State) (place : Nat) : MemoriesKept s (s.takeBlock place) := by simp [State.takeBlock]

@[simp] theorem State.sink_memories (s : State) (uid place : Nat) : MemoriesKept s (s.sink uid place) := by
  unfold State.sink
  split
  · simp
  · split <;> simp

@[simp] theorem State.sinkAll_memories (s : State) (hs : List (Nat × Nat × Bool)) (p : Packet) : MemoriesKept s (s.sinkAll hs p) := by
  simp [State.sinkAll]

/-! ### Functions of Machine/Mailbox.lean -/

@[simp] theorem runTransfer_memories (c : Cmd) (s : State) : MemoriesKept s (runTransfer c s) := by
  unfold runTransfer
  split <;> simp

@[simp] theorem State.runTransfers_memories (cs : List Cmd) (s : State) :
    MemoriesKept s (State.runTransfers cs s) := by
  induction cs generalizing s with
  | nil => exact ⟨rfl, rfl⟩
  | cons c cs ih => simp [State.runTransfers, ih]

@[simp] theorem State.takeSlot_memories (s : State) (slot : Nat) : MemoriesKept s (s.takeSlot slot) := ⟨rfl, rfl⟩

/-! ### Functions of Machine/Groups.lean -/

@[simp] theorem State.workerRun_memories (s : State) (tick : Nat) (st : Step) : MemoriesKept s (s.workerRun tick st) := ⟨rfl, rfl⟩

@[simp] theorem State.orderStop_memories (s : State) (slot : Nat) (f : StepFault) : MemoriesKept s (s.orderStop slot f) := by simp [State.orderStop]

@[simp] theorem State.takeFailure_memories (s : State) (slot : Nat) (f : StepFault) : MemoriesKept s (s.takeFailure slot f) := by
  simp [State.takeFailure]

@[simp] theorem State.managerTakes_memories (s : State) (m : GroupMsg) : MemoriesKept s (s.managerTakes m) := by
  unfold State.managerTakes
  split <;> simp

@[simp] theorem State.realign_memories (s : State) : MemoriesKept s s.realign := by
  unfold State.realign
  split <;> simp

@[simp] theorem State.workerStart_memories (s : State) (p : Plan) (tick : Nat) (st : Step) : MemoriesKept s (s.workerStart p tick st) := by
  simp [State.workerStart]

@[simp] theorem State.workerTakes_memories (s : State) (m : GroupMsg) : MemoriesKept s (s.workerTakes m) := by
  unfold State.workerTakes
  split
  case h_3 | h_5 => split <;> simp
  all_goals simp

@[simp] theorem State.workerHub_memories (s : State) (m : GroupMsg) : MemoriesKept s (s.workerHub m) := by simp [State.workerHub]

@[simp] theorem execCommandRelay_memories (slot seq status detail result : Nat) (s : State) :
    OutKept s (execCommandRelay slot seq status detail result s) := by
  simp [execCommandRelay]

@[simp] theorem State.moveMoments_memories (s : State) (d : Int) : MemoriesKept s (s.moveMoments d) := ⟨rfl, rfl⟩

@[simp] theorem State.stepTimebase_memories (s : State) (t : Nat) : MemoriesKept s (s.stepTimebase t) := by simp [State.stepTimebase]

@[simp] theorem execTimeBeacon_memories (stamp roundTrip received : Nat) (s : State) : OutKept s (execTimeBeacon stamp roundTrip received s) := by
  simp [execTimeBeacon]

@[simp] theorem execWorkerJoin_memories (s : State) : OutKept s (execWorkerJoin s) := by simp [execWorkerJoin]

@[simp] theorem execManagerLost_memories (s : State) : OutKept s (execManagerLost s) := by
  unfold execManagerLost
  split <;> simp

@[simp] theorem execWorkerSilent_memories (slot : Nat) (s : State) : OutKept s (execWorkerSilent slot s) := by simp [execWorkerSilent]

@[simp] theorem execHealthGather_memories (s : State) : OutKept s (execHealthGather s) := by simp [execHealthGather]

/-! ### Functions of Machine/Units.lean -/

@[simp] theorem execUnitReprobe_memories (unit found : Nat) (s : State) : OutKept s (execUnitReprobe unit found s) := by
  unfold execUnitReprobe
  split
  · simp
  · split <;> simp

@[simp] theorem execLedgerWrite_memories (unit action source detail : Nat) (s : State) : OutKept s (execLedgerWrite unit action source detail s) := by
  simp [execLedgerWrite]

@[simp] theorem State.memoryError_memories (s : State) (key location die cycle : Nat) (bad : Bool) (flags : Nat) :
    MemoriesKept s (s.memoryError key location die cycle bad flags) := by
  simp [State.memoryError]

@[simp] theorem State.coreArrayError_memories (s : State) (kind c row word : Nat) (bad : Bool) :
    MemoriesKept s (s.coreArrayError kind c row word bad) := by
  simp [State.coreArrayError]

@[simp] theorem execScrubRow_memories (memory row outcome word : Nat) (s : State) : OutKept s (execScrubRow memory row outcome word s) := by
  unfold execScrubRow
  split <;> simp

@[simp] theorem State.firewallWindows_memories (s : State) : MemoriesKept s s.firewallWindows := ⟨rfl, rfl⟩

@[simp] theorem State.refuseEngine_memories (s : State) (e : Nat) : MemoriesKept s (s.refuseEngine e) := ⟨rfl, rfl⟩

@[simp] theorem State.serveEngine_memories (s : State) (e target offset length : Nat) (isWrite : Bool) (data : List Byte) :
    MemoriesKept s (s.serveEngine e target offset length isWrite data) := by
  unfold State.serveEngine
  split <;> simp

@[simp] theorem execEngineSidebandAccess_memories (engine target offset length : Nat) (isWrite : Bool) (data : List Byte) (s : State) :
    OutKept s (execEngineSidebandAccess engine target offset length isWrite data s) := by
  simp [execEngineSidebandAccess]

/-! ### Functions of Machine/Bringup.lean -/

@[simp] theorem State.showStage_memories (s : State) : MemoriesKept s s.showStage := ⟨rfl, rfl⟩

@[simp] theorem State.stageRecord_memories (s : State) (code unit : Nat) : MemoriesKept s (s.stageRecord code unit) := by simp [State.stageRecord]

@[simp] theorem State.retireFound_memories (s : State) (u : Nat) : MemoriesKept s (s.retireFound u) := by simp [State.retireFound]

@[simp] theorem State.laneFound_memories (s : State) (u : Nat) : MemoriesKept s (s.laneFound u) := by simp [State.laneFound]

@[simp] theorem State.phaseFound_memories (s : State) (u : Nat) : MemoriesKept s (s.phaseFound u) := by
  unfold State.phaseFound
  split
  · split <;> simp
  · simp

@[simp] theorem State.sensorFound_memories (s : State) (u : Nat) : MemoriesKept s (s.sensorFound u) := by
  unfold State.sensorFound
  split <;> simp

@[simp] theorem State.repairRow_memories (s : State) (k : Nat) : MemoriesKept s (s.repairRow k) := by simp [State.repairRow]

@[simp] theorem State.rowFound_memories (s : State) (k : Nat) : MemoriesKept s (s.rowFound k) := by simp [State.rowFound]

@[simp] theorem State.stageFound_memories (s : State) (code : Nat) (found : List Nat) : MemoriesKept s (s.stageFound code found) := by
  unfold State.stageFound
  split <;> simp

@[simp] theorem State.startUnit_memories (s : State) (u st source : Nat) : MemoriesKept s (s.startUnit u st source) := by simp [State.startUnit]

@[simp] theorem State.startEntry_memories (s : State) (e : LedgerEntry) : MemoriesKept s (s.startEntry e) := by
  unfold State.startEntry
  split <;> simp

@[simp] theorem State.applyRepairs_memories (s : State) (actions : List Nat) : MemoriesKept s (s.applyRepairs actions) := by simp [State.applyRepairs]

@[simp] theorem State.spareLanes_memories (s : State) (atTick : Bool) : MemoriesKept s (s.spareLanes atTick) := by simp [State.spareLanes]

@[simp] theorem State.assignLanes_memories (s : State) : MemoriesKept s s.assignLanes := by simp [State.assignLanes]

@[simp] theorem State.startPorts_memories (s : State) : MemoriesKept s s.startPorts := by simp [State.startPorts]

@[simp] theorem State.startHostLink_memories (s : State) : MemoriesKept s s.startHostLink := by
  unfold State.startHostLink
  dsimp only
  split
  · simp
  · split <;> simp

@[simp] theorem State.beginFetch_memories (s : State) (src : BootSource) : MemoriesKept s (s.beginFetch src) := by simp [State.beginFetch]

@[simp] theorem State.beginTicks_memories (s : State) : MemoriesKept s s.beginTicks := by simp [State.beginTicks]

@[simp] theorem State.endStage_memories (s : State) (code unit : Nat) (passed : Bool) : MemoriesKept s (s.endStage code unit passed) := ⟨rfl, rfl⟩

@[simp] theorem State.acceptImage_memories (s : State) (img : Img) : MemoriesKept s (s.acceptImage img) := ⟨rfl, rfl⟩

@[simp] theorem State.retirePorts_memories (s : State) (io : Nat) : MemoriesKept s (s.retirePorts io) := by
  unfold State.retirePorts
  split <;> simp

@[simp] theorem State.verifyRecord_memories (s : State) : MemoriesKept s s.verifyRecord := by
  unfold State.verifyRecord
  split
  · exact State.addError_memories _ _
  · exact ⟨rfl, rfl⟩

@[simp] theorem State.resetProgress_memories (s : State) : MemoriesKept s s.resetProgress := by
  unfold State.resetProgress
  split <;> simp

@[simp] theorem State.resetBegun_memories (s : State) (code : Nat) : MemoriesKept s (s.resetBegun code) := by
  unfold State.resetBegun
  split <;> simp

@[simp] theorem execRecoveryBoot_memories (s : State) : OutKept s (execRecoveryBoot s) := by
  unfold execRecoveryBoot
  dsimp only
  split
  · simp
  · split <;> simp

@[simp] theorem State.keepBlock_memories (s : State) (code place : Nat) (block : List Byte) : MemoriesKept s (s.keepBlock code place block) := ⟨rfl, rfl⟩

@[simp] theorem execFirmwareBlockReceive_memories (site : Nat) (block digest : List Byte) (s : State) :
    OutKept s (execFirmwareBlockReceive site block digest s) := by
  unfold execFirmwareBlockReceive
  split <;> simp

@[simp] theorem State.stopWrite_memories (s : State) : MemoriesKept s s.stopWrite := by
  unfold State.stopWrite
  dsimp only
  split <;> simp

@[simp] theorem execAuxRise_memories (s : State) : OutKept s (execAuxRise s) := by simp [execAuxRise]

/-! ### Functions of Machine/Scalar.lean -/

@[simp] theorem State.limitOverrun_memories (s : State) (c : Nat) : MemoriesKept s (s.limitOverrun c) := by simp [State.limitOverrun]

@[simp] theorem execCycleLimitOverrun_memories (core : Nat) (s : State) : OutKept s (execCycleLimitOverrun core s) := by simp [execCycleLimitOverrun]

/-! ### Functions of Machine/Tick.lean -/

@[simp] theorem State.clearPlanned_memories (s : State) : MemoriesKept s s.clearPlanned := by simp [State.clearPlanned]

@[simp] theorem State.stallsToTick_memories (s : State) : MemoriesKept s s.stallsToTick := by simp [State.stallsToTick]

@[simp] theorem State.readStalls_memories (s : State) : MemoriesKept s s.readStalls := ⟨rfl, rfl⟩

@[simp] theorem State.recentre_memories (s : State) (p : Nat) : MemoriesKept s (s.recentre p) := by simp [State.recentre]

@[simp] theorem State.takeStretch_memories (s : State) : MemoriesKept s s.takeStretch := ⟨rfl, rfl⟩

@[simp] theorem State.groupStretch_memories (s : State) : MemoriesKept s s.groupStretch := by simp [State.groupStretch]

@[simp] theorem State.beginFrame_memories (s : State) (p : Plan) (f : Nat) (isFirst : Bool) : MemoriesKept s (s.beginFrame p f isFirst) := by
  simp [State.beginFrame]

@[simp] theorem State.runAtTick_memories (s : State) : MemoriesKept s s.runAtTick := by
  unfold State.runAtTick
  split
  · exact ⟨rfl, rfl⟩
  · split
    · simp
    · split
      · simp
      · split <;> simp

@[simp] theorem State.restCores_memories (s : State) : MemoriesKept s s.restCores := ⟨rfl, rfl⟩

@[simp] theorem State.restFabric_memories (s : State) : MemoriesKept s s.restFabric := ⟨rfl, rfl⟩

@[simp] theorem State.powerAtTick_memories (s : State) : MemoriesKept s s.powerAtTick := by simp [State.powerAtTick]

/-! ### Functions of Machine/Idle.lean -/

@[simp] theorem idle_memories (s : State) : MemoriesKept s (idle s) := by simp [idle]

end Sys2Proof.Machine
end

section
/-! PROOF. Panel memory and host memory keep their canonical form (06; log entry 4): what each function of the model that writes one of them leaves of it, in
the model's order. A function that writes neither is covered by its `_memories` law. -/

namespace Sys2Proof.MemSound

open Machine

variable {s t : State}

/-- A state with the memories of a sound one is sound. -/
theorem kept (h : MemSound s) (hk : MemoriesKept s t) : MemSound t := by
  obtain ⟨hmem, hhost⟩ := hk
  rwa [MemSound, hmem, hhost]

protected theorem ite {p : Prop} [Decidable p] (hs : MemSound s) (ht : MemSound t) : MemSound (if p then s else t) := by
  split
  · exact hs
  · exact ht

/-- A loop whose every turn keeps the canonical form keeps it. -/
theorem each {β : Type} {xs : List β} {f : β → State → State} (h : MemSound s) (hf : ∀ x t, MemSound t → MemSound (f x t)) :
    MemSound (forEach xs f s) :=
  forEach_holds MemSound xs f s h hf

/-! ### Writes of bytes and rows -/

theorem writeRow (h : MemSound s) (a : Nat) (bytes : List Byte) (p : Bool) : MemSound (s.writeRow a bytes p) :=
  ⟨Memory.wf_writeBytes _ _ h.1, h.2⟩

theorem writeHost (h : MemSound s) (a : Nat) (bytes : List Byte) : MemSound (s.writeHost a bytes) :=
  ⟨h.1, Memory.wf_writeBytes _ _ h.2⟩

/-! ### Accesses of a cluster's instructions -/

theorem writeAct (h : MemSound s) (c i : Nat) (a : Act) : MemSound (s.writeAct c i a) := by
  unfold State.writeAct
  split
  · exact h
  · exact ((h.kept (State.accRead_memories _ _ _ _)).writeRow _ _ _).kept (State.modCore_memories _ _ _)

theorem cycleAt (h : MemSound s) (ci x : Nat) : MemSound (s.cycleAt ci x) := by
  unfold State.cycleAt
  extract_lets cls s1 s2
  have h1 : MemSound s1 := h.each fun _ _ ht => ht.each fun _ _ hu => hu.kept (State.readAct_memories _ _ _ _)
  have h2 : MemSound s2 := h1.each fun _ _ ht => ht.each fun _ _ hu => hu.writeAct _ _ _
  exact h2.each fun c t ht => ht.kept (by simp)

theorem runWhile (h : MemSound s) (ci : Nat) (u : State → Nat) (n : Nat) : MemSound (State.runWhile ci u n s) := by
  induction n generalizing s with
  | zero => exact h
  | succ n ih =>
    unfold State.runWhile
    split
    · exact h
    · exact .ite (ih (h.cycleAt _ _)) h

theorem runFor (h : MemSound s) (ci : Nat) (enough : State → Bool) (n : Nat) : MemSound (State.runFor ci enough n s) := by
  induction n generalizing s with
  | zero => exact h
  | succ n ih =>
    unfold State.runFor
    refine .ite h ?_
    split
    · exact h
    · exact ih (h.cycleAt _ _)

theorem runUntil (h : MemSound s) (ci : Nat) (enough : State → Bool) : MemSound (s.runUntil ci enough) := h.runFor _ _ _

theorem runTo (h : MemSound s) (ci x : Nat) : MemSound (s.runTo ci x) := h.runWhile _ _ _

theorem runCore (h : MemSound s) (c : Nat) : MemSound (s.runCore c) := h.runWhile _ _ _

theorem firstFree (h : MemSound s) (m r : Nat) (kind : Outside) (n x : Nat) : MemSound (State.firstFree m r kind n x s).2 := by
  induction n generalizing x s with
  | zero => exact h
  | succ n ih =>
    unfold State.firstFree
    dsimp only
    split
    · exact h.runTo _ _
    · exact ih ((h.runTo _ _).cycleAt _ _) _

theorem freeFrom (h : MemSound s) (m r : Nat) (kind : Outside) (x : Nat) : MemSound (s.freeFrom m r kind x).2 := h.firstFree _ _ _ _ _

theorem atIssue (h : MemSound s) (c : Nat) (w : BitVec 64) : MemSound (s.atIssue c w) := h.runWhile _ _ _

theorem untilSlot (h : MemSound s) (c : Nat) : MemSound (s.untilSlot c) := .ite h (h.runUntil _ _)

/-! ### Rows and requests at their die -/

theorem landScan (h : MemSound s) {mem n x : Nat} {r : Nat × Nat × State} (hr : State.landScan mem n x s = some r) : MemSound r.2.2 := by
  induction n generalizing x s with
  | zero => cases hr
  | succ n ih =>
    unfold State.landScan at hr
    dsimp only at hr
    split at hr
    · cases hr
      exact h.runTo _ _
    · exact ih ((h.runTo _ _).cycleAt _ _) hr

theorem landRow (h : MemSound s) (mem cycle i : Nat) : MemSound (s.landRow mem cycle i) := by
  unfold State.landRow
  dsimp only
  split
  · exact h
  · next a _ =>
    refine (h.writeRow (memRowAddr mem a.row) a.bytes a.poison).kept ?_
    split
    · split <;> simp
    · split <;> simp

theorem serviceAt (h : MemSound s) (t : Target) (cycle : Nat) : MemSound (s.serviceAt t cycle) := by
  unfold State.serviceAt
  split
  · exact h
  · next m _ => exact (h.freeFrom m (targetRow t) .service (s.readFrom m (targetRow t) (s.agentFrom m cycle))).kept (by simp)

theorem serveRead (h : MemSound s) (p : Packet) (t : Target) (cycle : Nat) : MemSound (s.serveRead p t cycle) := by
  unfold State.serveRead
  split
  · exact h
  · next m _ => exact (h.freeFrom m (targetRow t) .dma (s.readFrom m (targetRow t) cycle)).kept (by simp)

theorem serve (h : MemSound s) (i : Nat) (p : Packet) (cycle : Nat) : MemSound (s.serve i p cycle) := by
  unfold State.serve
  extract_lets t s0 s1 a
  have h0 : MemSound s0 := h.kept (State.dropPacket_memories s i)
  have h1 : MemSound s1 := h0.serviceAt t cycle
  clear_value s0
  have hinject : ∀ ps, MemSound (s0.inject ps) := fun ps => h0.kept ⟨rfl, rfl⟩
  refine .ite (hinject _) <| .ite ?other <| .ite (h0.serveRead p t cycle) <| .ite (hinject _) <| .ite ?get <| .ite ?refused ?write
  case other =>
    refine .ite (h0.kept (State.lose_memories s0 p)) ?_
    split <;> exact hinject _
  case get => exact h1.kept (by simp)
  case refused => exact h0.kept (by simp)
  case write =>
    split
    · exact (h0.writeRow (s.cellAddr t) p.payload p.poison).kept (by simp)
    · exact h0.kept (by simp)

theorem coreReply (h : MemSound s) (pkt cycle : Nat) (p : Packet) : MemSound (s.coreReply pkt cycle p) := by
  unfold State.coreReply
  split
  · exact h
  · extract_lets c s0 s1
    split
    · exact h
    · have h0 : MemSound s0 := h.kept (State.dropPacket_memories s pkt)
      have h1 : MemSound s1 := h0.kept (State.modCore_memories _ _ _)
      exact .ite (.ite (h0.kept (State.lose_memories s0 p)) (.ite ((h0.runTo (c / 8) cycle).kept (State.modCore_memories _ _ _))
        (h1.kept (by simp)))) h

theorem writeHbm (h : MemSound s) (io ch : Nat) (r : Running) : MemSound (s.writeHbm io ch r).2 := by
  unfold State.writeHbm
  extract_lets d row n m write
  have hwrite : ∀ a us {t : State}, MemSound t → MemSound (write a us t) := fun a us t ht =>
    ht.each fun _ _ hu => .ite (hu.writeRow _ _ _) hu
  split
  · exact h
  · exact hwrite _ _ (hwrite _ _ h)

/-! ### Host memory: the log, replies and reports -/

theorem writeRecord (h : MemSound s) (r : Rec) : MemSound (s.writeRecord r) := (h.writeHost _ _).writeHost _ _

theorem writeWaiting (h : MemSound s) : MemSound s.writeWaiting := by
  unfold State.writeWaiting
  split
  · exact h
  · next r _ _ => exact .ite ((h.writeRecord r).kept ⟨rfl, rfl⟩) h

theorem takeHostReply (h : MemSound s) (p : Packet) : MemSound (s.takeHostReply p) := by
  unfold State.takeHostReply
  split
  · exact h
  · split
    · exact h
    · extract_lets unit q0 u out s1 x1 q1 q2 r
      have h1 : MemSound s1 := by
        refine .ite h (.ite ?poisoned (h.writeHost _ _))
        case poisoned =>
          have hread : MemSound (s.consumeUnit (s.unitTarget p.addr 0) hubPlace) := h.kept (State.consumeUnit_memories _ _ _)
          exact (MemSound.writeHost (.ite hread h) _ _).kept ⟨rfl, rfl⟩
      have hr : MemSound r.2 := by
        unfold r
        split
        · exact h1.kept (State.askUnit_memories _ _ _)
        · exact h1
      exact .ite (h.kept (by simp)) (hr.kept (by simp))

theorem reportTo (h : MemSound s) (c : Cmd) (a : Nat) (bytes : List Byte) : MemSound (s.reportTo c a bytes) :=
  (h.writeHost _ _).kept (State.complete_memories _ _ _ _ _)

/-- A command that is refused with a completion record alone, and otherwise goes on. -/
theorem refusal {p : Prop} [Decidable p] (h : MemSound s) (c : Cmd) (status detail : Nat) (ht : MemSound t) :
    MemSound (if p then s.complete c status detail 0 else t) :=
  .ite (h.kept (State.complete_memories _ _ _ _ _)) ht

protected theorem runHealthErrors (h : MemSound s) (c : Cmd) : MemSound (runHealthErrors c s) := by
  unfold Machine.runHealthErrors
  extract_lets es s0 _ s1
  have h1 : MemSound s1 := (h.writeHost (c.arg 0 8) (es.flatMap errBytes)).kept ⟨rfl, rfl⟩
  exact h.refusal c _ _ (h.refusal c _ _ (h1.kept (by simp)))

protected theorem runAttest (h : MemSound s) (c : Cmd) : MemSound (runAttest c s) := by
  unfold Machine.runAttest
  extract_lets body s1
  have h1 : MemSound s1 := h.reportTo _ _ _
  clear_value s1
  exact h.refusal c _ _ (h1.kept (by simp))

protected theorem runQuery (h : MemSound s) (c : Cmd) : MemSound (runQuery c s) := by
  unfold Machine.runQuery
  split
  case h_1 => exact h.refusal c _ _ (h.reportTo _ _ _)
  case h_2 => exact h.kept (runRead_memories c s)
  case h_3 => exact h.runHealthErrors c
  case h_4 | h_5 | h_6 => exact h.refusal c _ _ (h.reportTo _ _ _)
  case h_7 => exact h.refusal c _ _ ((h.writeHost _ _).kept (State.complete_memories _ _ _ _ _))
  case h_8 =>
    exact h.refusal c _ _ (h.refusal c _ _ (h.refusal c _ _ ((h.writeHost _ _).kept (State.complete_memories _ _ _ _ _))))
  case h_9 => exact h.runAttest c
  case h_10 => exact h.refusal c _ _ (h.refusal c _ _ (h.refusal c _ _ (h.reportTo _ _ _)))
  case h_11 => exact h

end Sys2Proof.MemSound
end

section
/-! PROOF. The same of the map, the plans, the phases and what comes from other panels (06; log entry 4). -/

namespace Sys2Proof.MemSound

open Machine

variable {s t : State}

/-! ### The map and retirement -/

theorem applyMap (h : MemSound s) (m : GridMap) : MemSound (s.applyMap m) := by
  unfold State.applyMap
  refine .ite h ?_
  refine MemSound.kept ?_ (State.noteLost_memories _)
  refine ⟨List.foldlRecOn _ _ (motive := fun m => Memory.wf m = true) Memory.wf_nil fun acc hacc e _ => ?_, h.2⟩
  split
  · exact tabWf_tset _ _ hacc
  · exact hacc

/-- The hub forms the map again and the plan goes. -/
theorem remap (h : MemSound s) (m : GridMap) : MemSound (s.applyMap m).discardPlan := (h.applyMap m).kept (State.discardPlan_memories _)

theorem resetDie (h : MemSound s) (d : Nat) : MemSound (s.resetDie d) := by
  unfold State.resetDie
  exact MemSound.each ⟨Memory.wf_filter _ h.1, h.2⟩ fun _ _ ht => ht.kept (State.modCluster_memories _ _ _)

theorem dieReset (h : MemSound s) (u : Nat) : MemSound (s.dieReset u) := by
  unfold State.dieReset
  split
  · exact .ite (h.resetDie _) h
  · exact h

theorem halt (h : MemSound s) (code unit : Nat) (a : Bool) : MemSound (s.halt code unit a) := by
  unfold State.halt
  extract_lets _ s1
  have h1 : MemSound s1 := h.kept ⟨rfl, rfl⟩
  exact h1.remap _

theorem haltIfCut (h : MemSound s) (code unit : Nat) : MemSound (s.haltIfCut code unit) :=
  .ite ((h.halt code unit false).kept ⟨rfl, rfl⟩) h

theorem settleMap (h : MemSound s) (atTick : Bool) (bad us : List Nat) : MemSound (s.settleMap atTick bad us) := by
  unfold State.settleMap
  extract_lets u
  have hu : MemSound u := MemSound.each (h.each fun _ _ ht => ht.kept (State.spareLost_memories _ _ _)) fun _ _ ht => ht.dieReset _
  exact .ite (hu.haltIfCut _ _) (.ite (hu.remap _) (.ite (hu.kept (State.discardPlan_memories _)) hu))

theorem markUnit (h : MemSound s) (unit code reporter : Nat) : MemSound (s.markUnit unit code reporter) := by
  unfold State.markUnit
  extract_lets st _ s1 s2 _ s3 s4
  have h2 : MemSound s2 := h.kept (by simp [s2, s1])
  clear_value s2
  have h3 : MemSound s3 := h2.kept ⟨rfl, rfl⟩
  have h4 : MemSound s4 := h2.kept (State.setUnit_memories _ _ _ _)
  exact .ite h (.ite (h3.remap _) (.ite h2 (h4.kept ⟨rfl, rfl⟩)))

theorem withdraw (h : MemSound s) (u source : Nat) : MemSound (s.withdraw u source) := by
  unfold State.withdraw
  extract_lets bad us s0 s1
  have h0 : MemSound s0 := .ite h (h.kept (State.ledgerEntry_memories _ _ _ _))
  exact settleMap (h0.each fun v t ht => ht.kept (by simp)) _ _ _

theorem retireAtOnce (h : MemSound s) (u source : Nat) : MemSound (s.retireAtOnce u source) := by
  unfold State.retireAtOnce
  exact settleMap (h.kept (by simp)) _ _ _

theorem dueChanges (h : MemSound s) : MemSound s.dueChanges := by
  unfold State.dueChanges
  extract_lets _ s1 s2
  have h1 : MemSound s1 := h.kept ⟨rfl, rfl⟩
  have h2 : MemSound s2 := h1.each fun d t ht => .ite (ht.withdraw _ _) (ht.kept (by simp))
  exact h2.kept ⟨rfl, rfl⟩

/-- An event whose unit retires with it. -/
theorem countRetired (h : MemSound s) (e : ErrIn) (action : Nat) {retire : State → State} (hr : ∀ {t}, MemSound t → MemSound (retire t)) :
    MemSound (s.countRetired e action retire) :=
  .ite (hr (h.kept (State.countEvent_memories _ _ _))) (h.kept (State.countEvent_memories _ _ _))

/-! ### Plans -/

theorem loadMap (h : MemSound s) : MemSound s.loadMap := (h.applyMap (s.formMap true)).kept ⟨rfl, rfl⟩

theorem applyPlan (h : MemSound s) (img : Img) : MemSound (s.applyPlan img) := by
  unfold State.applyPlan
  extract_lets p s1 s2
  have h2 : MemSound s2 := h.loadMap.each fun _ _ ht => ht.writeRow _ _ _
  exact h2.kept ⟨rfl, rfl⟩

theorem loadImage (h : MemSound s) (img : Img) : MemSound (s.loadImage img).2 := by
  unfold State.loadImage
  split
  · exact h.kept (State.noteRefusal_memories _ _)
  · exact h.applyPlan _

theorem groupLoad (h : MemSound s) (c : Cmd) : MemSound (s.groupLoad c) := by
  unfold State.groupLoad
  extract_lets imgs slots s1
  split
  · exact h.kept (by simp)
  · have h1 : MemSound s1 := h.applyPlan _
    clear_value s1
    exact .ite (h.kept (State.completeSlot_memories _ _ _ _ _)) (h1.kept (by simp))

protected theorem runPlanLoad (h : MemSound s) (c : Cmd) : MemSound (runPlanLoad c s) := by
  unfold Machine.runPlanLoad
  extract_lets r
  have hr : MemSound r.2 := h.loadImage _
  clear_value r
  exact h.refusal c _ _ (h.refusal c _ _ (.ite (h.groupLoad c) (.ite (hr.kept ⟨rfl, rfl⟩) (hr.kept (State.complete_memories _ _ _ _ _)))))

/-! ### Phases, stacks and expired dies -/

theorem loseSecondPhase (h : MemSound s) (ci phase : Nat) : MemSound (s.loseSecondPhase ci phase) := by
  unfold State.loseSecondPhase
  extract_lets die s1 s2 _ s3
  have h3 : MemSound s3 := h.kept (by simp [s3, s2, s1])
  exact retireAtOnce (h3.kept (State.failStep_memories _ _ _ _ _)) _ _

theorem losePhase (h : MemSound s) (ci phase : Nat) : MemSound (s.losePhase ci phase) :=
  .ite h (.ite (h.kept (State.loseFirstPhase_memories _ _ _)) (h.loseSecondPhase _ _))

theorem testPhases (h : MemSound s) (ci : Nat) (failed : List Nat) : MemSound (s.testPhases ci failed) := by
  unfold State.testPhases
  extract_lets s1
  have h1 : MemSound s1 := h.kept (State.modCluster_memories _ _ _)
  refine h1.each fun ph t ht => ?_
  extract_lets n t2 e
  have h2 : MemSound t2 := ht.kept (State.modCluster_memories _ _ _)
  exact .ite (h2.losePhase _ _) (h2.kept (State.countEvent_memories _ _ _))

theorem expireAtTick (h : MemSound s) : MemSound s.expireAtTick := by
  unfold State.expireAtTick
  exact .ite h (MemSound.each (h.kept ⟨rfl, rfl⟩) fun _ _ ht => ht.withdraw _ _)

theorem hbmError (h : MemSound s) (stack : Nat) (e : Nat × Nat) : MemSound (s.hbmError stack e) := by
  unfold State.hbmError
  split
  · exact h
  · extract_lets a x s1
    have h1 : MemSound s1 := h.kept (by simp [s1])
    exact .ite h (.ite (markUnit (h1.kept (State.addError_memories _ _)) _ _ _) h1)

/-! ### Lanes, flits and transfers between panels -/

theorem retireLane (h : MemSound s) (port lane : Nat) : MemSound (s.retireLane port lane) := by
  unfold State.retireLane
  extract_lets q rep lr w s1 s2 s3 s4
  have h2 : MemSound s2 := retireAtOnce (h.kept (by simp [s1])) _ _
  have h4 : MemSound s4 := (retireAtOnce (h2.kept (State.addError_memories _ _)) _ _).kept (State.modPort_memories _ _ _)
  exact .ite h (.ite (h2.kept (State.modPort_memories _ _ _)) (h4.kept (State.portTo_memories _ _ _)))

theorem takeFlit (h : MemSound s) (port vc lane : Nat) (payload : List Byte) : MemSound (s.takeFlit port vc lane payload) := by
  unfold State.takeFlit
  extract_lets q io bs need q1 s1
  have h1 : MemSound s1 := h.kept ⟨rfl, rfl⟩
  refine .ite h (.ite (h.kept ⟨rfl, rfl⟩) ?_)
  split
  · exact .ite (h1.kept (State.modIoDie_memories _ _ _)) (h1.kept (State.receivePacket_memories _ _ _ _))
  · exact countRetired (h1.kept (State.modPort_memories _ _ _)) _ _ fun ht => ht.retireLane _ _

theorem failFlit (h : MemSound s) (port lane seq : Nat) (idle : Bool) : MemSound (s.failFlit port lane seq idle) := by
  unfold State.failFlit
  split
  · exact h
  · extract_lets s1
    have h1 : MemSound s1 := h.kept (by simp [s1])
    exact .ite (h1.retireLane _ _) h1

theorem receiveFlit (h : MemSound s) (port : Nat) (ctl : BitVec 64) (payload : List Byte) (codewordOk : Bool) (worstLane : Nat) :
    MemSound (s.receiveFlit port ctl payload codewordOk worstLane) := by
  unfold State.receiveFlit
  extract_lets w s1 s2
  have h1 : MemSound s1 := h.kept ⟨rfl, rfl⟩
  have h2 : MemSound s2 := .ite h1 (.ite (takeFlit (h1.kept (State.modPort_memories _ _ _)) _ _ _ _) h1)
  clear_value s2
  exact .ite ((h.failFlit _ _ _ _).kept (State.modPort_memories _ _ _)) (h2.kept (by simp))

theorem landTc3 (h : MemSound s) (slot : Nat) (r : Nat × List Byte × Bool) : MemSound (s.landTc3 slot r) :=
  .ite (h.writeRow _ _ _) (h.kept (State.addError_memories _ _))

theorem finishTc3 (h : MemSound s) (slot id : Nat) (x : Tc3Rx) : MemSound (s.finishTc3 slot id x) := by
  unfold State.finishTc3
  extract_lets inside s1 s2
  have h1 : MemSound s1 := h.each fun _ _ ht => ht.landTc3 _ _
  exact h1.kept ⟨rfl, rfl⟩

theorem completeTc3 (h : MemSound s) (slot n : Nat) : MemSound (State.completeTc3 slot n s) := by
  induction n generalizing s with
  | zero => exact h
  | succ n ih =>
    unfold State.completeTc3
    dsimp only
    split
    · exact .ite (ih (h.finishTc3 _ _ _)) h
    · exact h

theorem retireHostLane (h : MemSound s) (lane : Nat) : MemSound (s.retireHostLane lane) := by
  unfold State.retireHostLane
  extract_lets used s0 m s1
  have h1 : MemSound s1 := retireAtOnce (h.kept (by simp [s0])) _ _
  clear_value s1 m
  refine .ite h (.ite h1 ?_)
  split
  · exact h1.kept (State.linkTrained_memories _ _)
  · exact h1.kept (State.linkDown_memories _)

theorem failFrame (h : MemSound s) (lane seq : Nat) (idle : Bool) : MemSound (s.failFrame lane seq idle) := by
  unfold State.failFrame
  split
  · exact h
  · extract_lets s1
    have h1 : MemSound s1 := h.kept (by simp [s1])
    exact .ite (h1.retireHostLane _) h1

theorem receiveFrame (h : MemSound s) (ctl : BitVec 64) (payload : List Byte) (codewordOk : Bool) (lane : Nat) :
    MemSound (s.receiveFrame ctl payload codewordOk lane) :=
  .ite ((h.failFrame _ _ _).kept ⟨rfl, rfl⟩) (h.kept ⟨rfl, rfl⟩)

theorem offer (h : MemSound s) (i : Nat) : MemSound (s.offer i) := by
  unfold State.offer
  refine .ite h ?_
  split
  · next ht => exact h.kept (State.handMsg_memories _ _ ht)
  · exact h
  · exact h.runUntil _ _

end Sys2Proof.MemSound
end

section
/-! PROOF. Both memories at reset (14; log entry 4). -/

namespace Sys2Proof.Machine

/-- Settles O3: nothing is listed in either memory at reset. -/
theorem resetMemorySound : Obligations.ResetMemorySound := by
  unfold Obligations.ResetMemorySound MemSound
  exact ⟨Memory.wf_nil, Memory.wf_nil⟩

end Sys2Proof.Machine
end

section
/-! PROOF. Canonical memories through the lanes, the resets, bring-up and the tick (06; log entry 4). -/

namespace Sys2Proof.MemSound

open Machine

variable {s t : State}

/-! ### The lanes -/

protected theorem runControl (h : MemSound s) (c : Cmd) : MemSound (runControl c s) := by
  unfold Machine.runControl
  split
  case h_4 => exact h.runPlanLoad c
  all_goals exact h.kept (by simp)

theorem relayOut (h : MemSound s) (c : Cmd) : MemSound (s.relayOut c) := by
  unfold State.relayOut
  extract_lets _ s1
  have h1 : MemSound s1 := h.kept ⟨rfl, rfl⟩
  exact .ite (h1.runControl _) (h1.kept ⟨rfl, rfl⟩)

theorem startControl (h : MemSound s) (c : Cmd) : MemSound (s.startControl c) := by
  unfold State.startControl
  extract_lets _ s1
  have h1 : MemSound s1 := h.kept ⟨rfl, rfl⟩
  exact .ite (h1.runControl _) (h1.relayOut _)

theorem runLane (h : MemSound s) (n : Nat) : MemSound (State.runLane n s) := by
  induction n generalizing s with
  | zero => exact h
  | succ n ih =>
    unfold State.runLane
    split
    · exact h
    · next c rest _ =>
      have hrest : MemSound { s with cmds := { s.cmds with lane := rest } } := h.kept ⟨rfl, rfl⟩
      exact .ite h (ih (hrest.startControl c))

theorem runLanes (h : MemSound s) : MemSound s.runLanes := (h.runLane s.cmds.lane.length).kept (State.runTransfers_memories _ _)

theorem dispatch (h : MemSound s) (c : Cmd) : MemSound (s.dispatch c) := by
  unfold State.dispatch
  exact .ite (h.runQuery _) (.ite (runLanes (h.kept ⟨rfl, rfl⟩)) (.ite (h.runControl _) (runLanes (h.kept ⟨rfl, rfl⟩))))

theorem acceptSlot (h : MemSound s) (slot : Nat) : MemSound (s.acceptSlot slot) := by
  unfold State.acceptSlot
  split
  · exact h.kept (by simp)
  · exact dispatch (h.kept (State.takeSlot_memories _ _)) _

/-! ### Relayed commands and plan images of the group -/

theorem runRelayed (h : MemSound s) (seq opcode flags : Nat) (payload : List Byte) : MemSound (s.runRelayed seq opcode flags payload) :=
  .ite (runLanes (h.kept ⟨rfl, rfl⟩)) h

theorem workerLoad (h : MemSound s) (bytes : List Byte) : MemSound (s.workerLoad bytes) :=
  .ite (h.kept ⟨rfl, rfl⟩) ((h.loadImage bytes).kept ⟨rfl, rfl⟩)

/-! ### The debug port -/

theorem debugWrite (h : MemSound s) (a : Nat) (data : List Byte) : MemSound (s.debugWrite a data) := by
  unfold State.debugWrite
  split
  · exact .ite (h.writeRow _ _ _) h
  · extract_lets w
    split <;> exact h.kept (by simp)

/-! ### Resets -/

theorem withPins (h : MemSound s) (p : Pins) : MemSound { s with pins := p } := h.kept ⟨rfl, rfl⟩

theorem stopWrite (h : MemSound s) : MemSound s.stopWrite := h.kept (State.stopWrite_memories s)

/-- A panel reset leaves host memory and empties panel memory (R458). -/
theorem cleared (h : MemSound s) : MemSound s.cleared := ⟨resetMemorySound.1, h.2⟩

theorem beginBringup (h : MemSound s) (straps : StrapPins) : MemSound (s.beginBringup straps) := by
  unfold State.beginBringup
  exact h.cleared.kept (by simp)

theorem panelReset (h : MemSound s) (straps : StrapPins) : MemSound (s.panelReset straps) := .ite (h.beginBringup _) h.cleared

theorem loseSram (h : MemSound s) : MemSound s.loseSram := ⟨Memory.wf_filter _ h.1, h.2⟩

theorem resetAtTick (h : MemSound s) : MemSound s.resetAtTick := by
  unfold State.resetAtTick
  split
  · next retain _ _ _ =>
    extract_lets s1 s2 s3
    have h2 : MemSound s2 := h.kept (by simp [s2, s1])
    clear_value s2
    have h3 : MemSound s3 := (MemSound.ite h2 h2.loseSram).kept (State.resetCrumb_memories _ retain)
    exact .ite h (h3.kept ⟨rfl, rfl⟩)
  · exact h

/-! ### Bring-up -/

theorem stageLedger (h : MemSound s) : MemSound s.stageLedger := by
  unfold State.stageLedger
  extract_lets _ s0 l s1 p s2 _ _ s3 s4 s5 lg s6 s7
  have h0 : MemSound s0 := by
    unfold s0
    split <;> exact h.kept (by simp)
  have h2 : MemSound s2 := h0.kept (by simp [s2, s1])
  have h3 : MemSound s3 := h2.kept ⟨rfl, rfl⟩
  have h7 : MemSound s7 := h3.kept (by simp [s7, s6, s5, s4])
  exact applyMap (h7.kept (by simp)) _

theorem stagePassed (h : MemSound s) (code unit : Nat) : MemSound (s.stagePassed code unit) := by
  unfold State.stagePassed
  split
  case h_5 => exact h.stageLedger
  case h_8 => split <;> exact h.kept (by simp)
  case h_10 => exact .ite h (h.applyMap _)
  all_goals exact h.kept (by simp)

theorem loseGrid (h : MemSound s) : MemSound s.loseGrid := by
  unfold State.loseGrid
  extract_lets _ s1
  have h1 : MemSound s1 := h.kept ⟨rfl, rfl⟩
  exact .ite h1 (h1.remap _)

theorem becomeReady (h : MemSound s) : MemSound s.becomeReady := by
  unfold State.becomeReady
  extract_lets _ s1 _ s2
  have h1 : MemSound s1 := h.kept ⟨rfl, rfl⟩
  have h2 : MemSound s2 := h1.kept ⟨rfl, rfl⟩
  refine .ite (h1.kept ?_) ?_
  · unfold State.advanceRollback
    simp
  · split
    · exact h2
    · exact runLanes (h2.kept (State.complete_memories _ _ _ _ _))

theorem afterStage (h : MemSound s) (code unit : Nat) : MemSound (s.afterStage code unit) := by
  unfold State.afterStage
  extract_lets memories links
  have hlinks : MemSound (links s) := h.kept (by simp [links])
  split
  case h_10 => exact .ite hlinks h
  case h_11 => exact .ite (h.kept ⟨rfl, rfl⟩) (.ite hlinks h)
  case h_18 => exact h.becomeReady
  all_goals exact h.kept (by simp)

theorem stageFailed (h : MemSound s) (code unit : Nat) (found : List Nat) : MemSound (s.stageFailed code unit found) := by
  unfold State.stageFailed
  extract_lets s1
  have h1 : MemSound s1 := h.kept (by simp [s1])
  clear_value s1
  split
  case h_1 | h_5 => exact h1.halt _ _ _
  case h_2 | h_3 => exact h1.kept (by simp)
  case h_4 => exact h1.stageLedger.afterStage _ _
  case h_6 => exact .ite (h1.halt _ _ _) (h1.afterStage _ _)
  case h_7 | h_8 | h_9 | h_10 | h_11 | h_12 | h_13 => exact afterStage (h1.kept (by simp)) _ _
  case h_14 => exact h1.loseGrid.afterStage _ _
  case h_15 => exact (h1.loseGrid.kept (State.beginTicks_memories _)).afterStage _ _
  case h_16 => exact h1.afterStage _ _

theorem stageLate (h : MemSound s) (code unit : Nat) (late : List Nat) : MemSound (s.stageLate code unit late) :=
  .ite (halt (h.kept (by simp)) _ _ _) (stageFailed (h.kept (State.stageFound_memories _ _ _)) _ _ _)

theorem stageEnded (h : MemSound s) (code unit : Nat) : MemSound (s.stageEnded code unit) := by
  unfold State.stageEnded
  extract_lets s1
  have h1 : MemSound s1 := (h.haltIfCut code unit).kept (State.showStage_memories _)
  exact .ite h1.runLanes h1

/-! ### The tick -/

theorem clockOverrun (h : MemSound s) (c : Nat) : MemSound (s.clockOverrun c) := by
  unfold State.clockOverrun
  extract_lets k w s1 e s2 s3
  have h2 : MemSound s2 := h.kept (by simp [s2, s1])
  have h3 : MemSound s3 := .ite (h2.markUnit _ _ _) h2
  exact h3.kept (State.failStep_memories _ _ _ _ _)

theorem overrunAt (h : MemSound s) (c : Nat) : MemSound (s.overrunAt c) :=
  .ite (.ite (h.kept (State.limitOverrun_memories _ _)) (h.clockOverrun _)) h

theorem lastAccesses (h : MemSound s) : MemSound s.lastAccesses := by
  unfold State.lastAccesses
  extract_lets busy s1
  have h1 : MemSound s1 := h.kept ⟨rfl, rfl⟩
  exact h1.each fun _ _ ht => ht.runWhile _ _ _

theorem closeFrame (h : MemSound s) : MemSound s.closeFrame := by
  unfold State.closeFrame
  extract_lets s1
  have h1 : MemSound s1 := h.each fun _ _ ht => ht.overrunAt _
  exact .ite (h1.kept (by simp)) h

theorem timeAtTick (h : MemSound s) (u : Nat) : MemSound (s.timeAtTick u) := by
  unfold State.timeAtTick
  extract_lets s1 _ _ s2 s3
  have h2 : MemSound s2 := h.kept ⟨rfl, rfl⟩
  have hclosed : MemSound s2.stallsToTick.lastAccesses.closeFrame := (lastAccesses (h2.kept (State.stallsToTick_memories _))).closeFrame
  have h3 : MemSound s3 := hclosed.kept (by simp [s3])
  exact h3.kept ⟨rfl, rfl⟩

theorem follow (h : MemSound s) (us : List Nat) : MemSound (s.follow us) := by
  unfold State.follow
  refine h.each fun u t ht => ?_
  split
  · exact .ite (ht.retireLane _ _) (.ite (ht.retireHostLane _) ht)
  · refine .ite ht ?_
    split
    · exact ht.losePhase _ _
    · exact ht
  · split
    · exact ht.kept (by simp)
    · exact ht
  · exact ht

theorem unitsAtTick (h : MemSound s) : MemSound s.unitsAtTick := by
  unfold State.unitsAtTick
  extract_lets _ s1
  have h1 : MemSound s1 := h.kept ⟨rfl, rfl⟩
  exact (h1.dueChanges.follow _).expireAtTick

end Sys2Proof.MemSound
end

section
/-! PROOF. No step takes panel memory or host memory out of its canonical form (06; log entry 4): what each command answers. -/

namespace Sys2Proof.Machine

/-- Whatever state a command answers, its memories have their canonical form. -/
def OutSound (o : Out) : Prop := ∀ t, o = .next t → MemSound t

namespace OutSound

variable {s t : State}

theorem next (h : MemSound t) : OutSound (.next t) := by
  rintro _ ⟨⟩
  exact h

theorem ite {p : Prop} [Decidable p] {o q : Out} (ho : OutSound o) (hq : OutSound q) : OutSound (if p then o else q) := by
  split
  · exact ho
  · exact hq

/-- A command that leaves the memories alone leaves them sound. -/
theorem of_kept {o : Out} (h : MemSound s) (hk : OutKept s o) : OutSound o := fun t ht => h.kept (hk t ht)

end OutSound

/-- A word that issues keeps the canonical form if its meaning leaves the memories alone: the accesses before its cycle keep it, and so does a fault that its
issue raises. -/
theorem issue_sound {c : Nat} {w : BitVec 64} {s : State} {run : State → Core → Nat → State} (h : MemSound s)
    (hrun : ∀ u k cyc t, run u k cyc = t → MemoriesKept u t) : OutSound (issue c w s run) := by
  obtain he | he | ⟨p, cyc, he⟩ | ⟨p, cyc, he⟩ := issue_cases c w s run <;> rw [he]
  · exact .next h
  · exact .next ((h.atIssue c w).kept (hrun _ _ _ _ rfl))
  · exact .next (h.kept (State.raiseCore_memories _ _ _ _ _))
  · exact .next (h.kept (by simp))

theorem sysRead_sound {core fn : Nat} {body : BitVec 48} {s : State} {val : State → Core → Nat → BitVec 64} (h : MemSound s) :
    OutSound (sysRead core fn body s val) := issue_sound h (by simp)

theorem remote_sound {isGet : Bool} {core opc : Nat} {body : BitVec 56} {s : State} (h : MemSound s) :
    OutSound (remote isGet core opc body s) := by
  refine issue_sound (h.untilSlot core) ?_
  rintro u k cyc _ rfl
  extract_lets
  split
  · simp
  · split
    · exact ⟨rfl, rfl⟩
    · split
      · simp
      · split
        · simp
        · split <;> simp

theorem sendRows_sound {kind core opc : Nat} {body : BitVec 56} {s : State} (h : MemSound s) : OutSound (sendRows kind core opc body s) := by
  refine issue_sound h ?_
  rintro u k cyc _ rfl
  extract_lets
  split
  · simp
  · split
    · simp
    · split <;> simp

theorem execSig_sound {core : Nat} {body : BitVec 56} {s : State} (h : MemSound s) : OutSound (execSig core body s) := by
  refine issue_sound h ?_
  rintro u k cyc _ rfl
  extract_lets
  split
  · simp
  · split <;> simp

theorem acceptAs_sound {op slot : Nat} {s : State} (h : MemSound s) : OutSound (acceptAs op slot s) :=
  .ite (.next h) (.ite (.next h) (.ite (.next h) (.next (h.acceptSlot slot))))

/-! ### Core events, the fabric and DMA -/

theorem execEndfRetire_sound (core : Nat) {s : State} (h : MemSound s) : OutSound (execEndfRetire core s) := by
  unfold execEndfRetire
  extract_lets s0 k0 s1
  have h0 : MemSound s0 := h.runCore core
  have h1 : MemSound s1 := .ite (h0.kept (State.limitOverrun_memories _ _)) h0
  exact .ite (.next (h1.kept (State.modCore_memories _ _ _))) (.next h)

theorem execWaitComplete_sound (core : Nat) {s : State} (h : MemSound s) : OutSound (execWaitComplete core s) := by
  unfold execWaitComplete
  split
  · extract_lets t
    have ht : MemSound t := h.runUntil _ _
    split
    · exact .next (ht.kept (State.modCore_memories _ _ _))
    · exact .next h
  · exact .next h

theorem execExternalWriteLand_sound (memory cycle : Nat) {s : State} (h : MemSound s) : OutSound (execExternalWriteLand memory cycle s) := by
  unfold execExternalWriteLand
  refine .ite (.next h) ?_
  split
  · next hr => exact .next ((h.landScan hr).landRow _ _ _)
  · exact .next h

theorem execRemoteRequestArrival_sound (pkt cycle : Nat) {s : State} (h : MemSound s) : OutSound (execRemoteRequestArrival pkt cycle s) := by
  unfold execRemoteRequestArrival
  split
  · exact .next h
  · refine .ite ?_ (.next h)
    split
    · exact .next h
    · next hq => exact .next ((h.kept (State.quota_memories _ _ _ hq)).serve _ _ _)

theorem execReplyArrival_sound (pkt cycle : Nat) {s : State} (h : MemSound s) : OutSound (execReplyArrival pkt cycle s) := by
  unfold execReplyArrival
  split
  · exact .next h
  · have h0 : MemSound (s.dropPacket pkt) := h.kept (State.dropPacket_memories s pkt)
    exact .ite (.ite (.next h) (.ite (.next (h0.takeHostReply _)) (.next (h0.kept ⟨rfl, rfl⟩)))) (.next (h.coreReply _ _ _))

theorem execFabricPacketArrival_sound (pkt cycle : Nat) (headerOk payloadOk : Bool) (lane : Option Nat) {s : State} (h : MemSound s) :
    OutSound (execFabricPacketArrival pkt cycle headerOk payloadOk lane s) := by
  unfold execFabricPacketArrival
  extract_lets s1
  have h1 : MemSound s1 := h.offer pkt
  clear_value s1
  split
  · exact .next h
  · refine .ite (.next h1) (OutSound.of_kept h1 ?_)
    simp

theorem execDmaTransferComplete_sound (io channel : Nat) {s : State} (h : MemSound s) : OutSound (execDmaTransferComplete io channel s) := by
  unfold execDmaTransferComplete
  split
  · exact .next h
  · next r _ => exact .ite (.next ((h.writeHbm io channel r).kept (by simp))) (.next h)

/-! ### The log, phases and temperature -/

theorem execCompletionRecordWrite_sound {s : State} (h : MemSound s) : OutSound (execCompletionRecordWrite s) := by
  unfold execCompletionRecordWrite
  extract_lets s1
  have h1 : MemSound s1 := h.writeWaiting
  split
  · have h2 : MemSound (s1.takeFree 1) := h1.kept ⟨rfl, rfl⟩
    exact .ite (.next (h2.panelReset _)) (.next h1)
  · exact .next h1

theorem execFrameTick_sound {s : State} (h : MemSound s) : OutSound (execFrameTick s) := by
  unfold execFrameTick
  split
  · exact .next h
  · next t _ =>
    extract_lets s1 s2 s3
    have hreset : MemSound (s.timeAtTick t).flipAtTick.resetAtTick := ((h.timeAtTick t).kept (State.flipAtTick_memories _)).resetAtTick
    have h1 : MemSound s1 := (hreset.kept (State.resetProgress_memories _)).unitsAtTick.kept (State.responseAtTick_memories _)
    have h3 : MemSound s3 := h1.kept (by simp [s3, s2])
    exact .next (MemSound.runLanes (h3.kept (by simp)))

theorem execPhaseLost_sound (cluster phase : Nat) {s : State} (h : MemSound s) : OutSound (execPhaseLost cluster phase s) :=
  .ite (.next h) (.next (h.losePhase _ _))

theorem execDroopEvent_sound (cluster : Nat) (droop : Nat × Bool) (failed : List Nat) {s : State} (h : MemSound s) :
    OutSound (execDroopEvent cluster droop failed s) :=
  .ite (.next h) (.next (MemSound.testPhases (h.kept (State.modCluster_memories _ _ _)) _ _))

theorem execHbmTemperatureRead_sound (stack : Nat) (reading : Int) (errors : List (Nat × Nat)) {s : State} (h : MemSound s) :
    OutSound (execHbmTemperatureRead stack reading errors s) := by
  unfold execHbmTemperatureRead
  refine .ite (.next h) ?_
  have he : MemSound (forEach errors (fun e s => s.hbmError stack e) s) := h.each fun _ _ ht => ht.hbmError _ _
  generalize forEach errors (fun e s => s.hbmError stack e) s = u at he ⊢
  exact .next (he.kept (by simp))

/-! ### Links and the group -/

theorem execLinkFlitReceive_sound (port : Nat) (ctl : BitVec 64) (payload : List Byte) (codewordOk : Bool) (worstLane : Nat) {s : State}
    (h : MemSound s) : OutSound (execLinkFlitReceive port ctl payload codewordOk worstLane s) :=
  .ite (.next h) (.ite (.ite (.next (h.receiveFrame _ _ _ _)) (.next h)) (.ite (.next h) (.next (h.receiveFlit _ _ _ _ _))))

theorem execLaneRetire_sound (port lane : Nat) {s : State} (h : MemSound s) : OutSound (execLaneRetire port lane s) :=
  .ite (.next h) (.ite (.next (h.retireHostLane _)) (.ite (.next h) (.next (h.retireLane _ _))))

theorem execTc3RowWrite_sound {s : State} (h : MemSound s) : OutSound (execTc3RowWrite s) := by
  unfold execTc3RowWrite
  split
  · exact .next h
  · extract_lets slot key _ s0 old x x1 _ s1
    have h1 : MemSound s1 := h.kept ⟨rfl, rfl⟩
    exact .ite (.next h) (.ite (.next (h.kept (by simp [s0]))) (.next (h1.completeTc3 _ _)))

theorem execTc3TransferTimeout_sound (srcSlot xferId : Nat) {s : State} (h : MemSound s) : OutSound (execTc3TransferTimeout srcSlot xferId s) := by
  unfold execTc3TransferTimeout
  refine .ite ?_ ?_
  · split
    · exact .next h
    · exact .next (h.kept (State.resendCopy_memories _ _ _))
  · split
    · exact .next h
    · extract_lets _ s1
      have h1 : MemSound s1 := h.kept ⟨rfl, rfl⟩
      exact .ite (.next (h1.completeTc3 _ _)) (.next h)

theorem execGroupMessageReceive_sound (msg : GroupMsg) {s : State} (h : MemSound s) : OutSound (execGroupMessageReceive msg s) := by
  unfold execGroupMessageReceive
  refine .ite (.next h) ?_
  split
  case h_2 => exact .next ((MemSound.ite (h.workerLoad _) h).kept (State.distribute_memories _ _))
  case h_3 => exact .ite (.next (h.runRelayed _ _ _ _)) (.next (h.kept ⟨rfl, rfl⟩))
  all_goals exact OutSound.of_kept h (by simp)

/-! ### Power, bring-up, units and the debug port -/

theorem execPwrOkRise_sound (straps : StrapPins) {s : State} (h : MemSound s) : OutSound (execPwrOkRise straps s) :=
  .ite (.next h) (.next ((h.withPins _).panelReset _))

theorem execPwrOkFall_sound {s : State} (h : MemSound s) : OutSound (execPwrOkFall s) :=
  .ite (.next ((h.stopWrite.withPins _).cleared)) (.next h)

theorem execPanelResetN_sound (lowNs : Nat) (released : Bool) (straps : StrapPins) {s : State} (h : MemSound s) :
    OutSound (execPanelResetN lowNs released straps s) :=
  .ite (.next h) (.next ((h.withPins _).panelReset _))

theorem execAuxFall_sound {s : State} (h : MemSound s) : OutSound (execAuxFall s) :=
  .ite (.next ((h.stopWrite.withPins _).cleared)) (.next h)

theorem execStageComplete_sound (code unit : Nat) (pass : Bool) (found : List Nat) {s : State} (h : MemSound s) :
    OutSound (execStageComplete code unit pass found s) := by
  unfold execStageComplete
  extract_lets r s1
  have hr : MemSound r := h.kept (State.resetBegun_memories _ _)
  have h1 : MemSound s1 := .ite (hr.kept (State.verifyRecord_memories _)) hr
  refine .ite (.next hr) (.ite (.next hr) (.ite (.next ?passed) (.next ?failed)))
  case passed => exact ((MemSound.stagePassed (hr.kept (by simp)) _ _).afterStage _ _).stageEnded _ _
  case failed => exact (MemSound.stageFailed (h1.kept (State.stageFound_memories _ _ _)) _ _ _).stageEnded _ _

theorem execStageTimeout_sound (code : Nat) (late : List Nat) {s : State} (h : MemSound s) : OutSound (execStageTimeout code late s) := by
  unfold execStageTimeout
  extract_lets r unit late'
  have hr : MemSound r := h.kept (State.resetBegun_memories _ _)
  refine .ite (.next hr) ?_
  split
  · exact .next hr
  · extract_lets s1
    have h1 : MemSound s1 := .ite (hr.kept ⟨rfl, rfl⟩) hr
    exact .next ((h1.stageLate _ _ _).stageEnded _ _)

theorem execDataPathMark_sound (unit code reporter : Nat) {s : State} (h : MemSound s) : OutSound (execDataPathMark unit code reporter s) :=
  .ite (.next h) (.next (h.markUnit _ _ _))

theorem execDebugPortAccess_sound (op address : Nat) (data : List Byte) {s : State} (h : MemSound s) :
    OutSound (execDebugPortAccess op address data s) := by
  unfold execDebugPortAccess
  extract_lets shown full drawn
  have hw : MemSound (s.debugWrite address data) := h.debugWrite _ _
  refine .ite (.next h) ?_
  split
  case h_4 => exact .ite (.next (hw.kept (by simp [drawn, shown]))) (.next h)
  case h_6 => exact .ite (.next hw) (.next h)
  all_goals exact OutSound.of_kept h (by simp [drawn, shown])

/-! ### Every command -/

/-- A host command is accepted or left; an instruction issues or not, and its meaning writes its core; of the events those that may write a memory have
their laws above, and the others leave both alone. -/
theorem exec_sound (i : Instr) {s : State} (h : MemSound s) : OutSound (exec i s) := by
  unfold exec
  cases i with
  | info _ | stage _ | proof _ | commit _ | read _ | planLoad _ | stepStart _ | stepCommit _ | stepReplay _ | dmaWrite _ | dmaRead _
  | healthErrors _ | healthCongestion _ | healthPorts _ | healthUnits _ | healthSensors _ | envelopeReport _ | attest _ | certRead _
  | keyAdd _ | debugUnlock _ | fwUpdate _ | computeReset _ | panelReset _ | zlRetrain _ | windowOpen _ | windowClose _ | groupCopy _ =>
    exact acceptAs_sound h
  | nop _ _ | loop _ _ | endf _ _ | slot _ _ | wait _ _ | clrst _ _ | twload _ _ | tmac _ _ | tdrain _ _ | vcvt _ _ | vld _ _ | vst _ _
  | getl _ _ | putl _ _ | rowcp _ _ | redsend _ _ => exact issue_sound h (by simp)
  | scalarRegisterForm _ _ | scalarImmediateForm _ _ | vectorFp32 _ _ | vectorBf16 _ _ | vectorInt32 _ _ | vectorFp32Functions _ _
  | vred _ _ =>
    refine issue_sound h ?_
    rintro u k cyc _ rfl
    extract_lets
    split <;> simp
  | rdtb _ _ | rdfi _ _ | rdcyc _ _ | rdid _ _ | rdst _ _ | rdctr _ _ => exact sysRead_sound h
  | rget _ _ | rput _ _ => exact remote_sound h
  | send _ _ | mcrow _ _ | mccol _ _ => exact sendRows_sound h
  | sig _ _ => exact execSig_sound h
  | endfRetire _ => exact execEndfRetire_sound _ h
  | waitComplete _ => exact execWaitComplete_sound _ h
  | externalWriteLand _ _ => exact execExternalWriteLand_sound _ _ h
  | remoteRequestArrival _ _ => exact execRemoteRequestArrival_sound _ _ h
  | replyArrival _ _ => exact execReplyArrival_sound _ _ h
  | fabricPacketArrival _ _ _ _ _ => exact execFabricPacketArrival_sound _ _ _ _ _ h
  | dmaTransferComplete _ _ => exact execDmaTransferComplete_sound _ _ h
  | completionRecordWrite => exact execCompletionRecordWrite_sound h
  | frameTick => exact execFrameTick_sound h
  | phaseLost _ _ => exact execPhaseLost_sound _ _ h
  | droopEvent _ _ _ => exact execDroopEvent_sound _ _ _ h
  | hbmTemperatureRead _ _ _ => exact execHbmTemperatureRead_sound _ _ _ h
  | linkFlitReceive _ _ _ _ _ => exact execLinkFlitReceive_sound _ _ _ _ _ h
  | laneRetire _ _ => exact execLaneRetire_sound _ _ h
  | tc3RowWrite => exact execTc3RowWrite_sound h
  | tc3TransferTimeout _ _ => exact execTc3TransferTimeout_sound _ _ h
  | groupMessageReceive _ => exact execGroupMessageReceive_sound _ h
  | pwrOkRise _ => exact execPwrOkRise_sound _ h
  | pwrOkFall => exact execPwrOkFall_sound h
  | panelResetN _ _ _ => exact execPanelResetN_sound _ _ _ h
  | auxFall => exact execAuxFall_sound h
  | stageComplete _ _ _ _ => exact execStageComplete_sound _ _ _ _ h
  | stageTimeout _ _ => exact execStageTimeout_sound _ _ h
  | dataPathMark _ _ _ => exact execDataPathMark_sound _ _ _ h
  | debugPortAccess _ _ _ => exact execDebugPortAccess_sound _ _ _ h
  | commandRelay _ _ _ _ _ | logEnableWrite _ | consWrite _ | hostWindowWrite _ _ _ | interruptMessage | cycleLimitOverrun _ | rowDelivery _ _
  | reduceInputArrival _ | tc0WindowStart | arbiterWindowStart _ | dmaLaunch _ | dmaTransferStart _ _ | hostPieceStart _ | hostPieceComplete _ _
  | scrubRow _ _ _ _ | stepInputsDone | stepOutputsDone | congestionMapAssemble | portTraining _ _ _ | portRetryTimer _ | peerVerification _ _
  | identityRequest _ _ | portSignalLoss _ | tc3Ingress _ | outboundTransferComplete _ _ _ | timeBeacon _ _ _ | workerJoin | managerLost
  | workerSilent _ | healthGather | hostLinkTraining _ | hostLinkDown | referenceLost | referenceHoldoverExpire | referenceReturned
  | clockParentSwitch _ | timingBeacon _ _ _ | deratedExpiry _ | pmbusPoll _ | powerSecond | zoneCurrentWarning _ | energyMinute
  | sensorSample _ _ _ | flowPulse | thermalDemandUpdate | thermalSecond | coolantLossDetect _ | hardLimit _ _ | recoveryBoot
  | firmwareBlockReceive _ _ _ | unitReprobe _ _ | ledgerWrite _ _ _ _ | engineSidebandAccess _ _ _ _ _ _ | auxRise | identityReplyTimeout _ =>
    exact OutSound.of_kept h (by simp)

/-- Settles O4: the empty queue leaves the memories alone, and every command keeps their canonical form (`exec_sound`). -/
theorem stepKeepsMemorySound : Obligations.StepKeepsMemorySound := by
  unfold Obligations.StepKeepsMemorySound
  intro s t h hstep
  cases hp : s.pending with
  | nil =>
    rw [step_nil hp] at hstep
    cases hstep
    exact h.kept (idle_memories s)
  | cons c rest =>
    rw [step_cons hp] at hstep
    have hrest : MemSound { s with pending := rest } := h.kept ⟨rfl, rfl⟩
    exact exec_sound c hrest t hstep

/-- Settles O1: the step of a queue with a command at its front. -/
theorem stepRunsFront : Obligations.StepRunsFront := by
  unfold Obligations.StepRunsFront
  exact fun _ _ _ hp => step_cons hp

end Sys2Proof.Machine
end

section
/-! PROOF. HEALTH_ERRORS and ENVELOPE_REPORT in the query lane (09 R353, Table 9.10; 12 R433; 15 R487). -/

namespace Sys2Proof.Machine

section

variable {c : Cmd} (h : c.arg 0 8 % 64 = 0) (s : State)

include h

/-- HEALTH_ERRORS reports the oldest records, and takes them off the log where it consumes (R353, R487). -/
theorem runHealthErrors_reports (hrsv : bitsOf (c.arg 12 4) 31 1 = 0) :
    runHealthErrors c s = (reported { s with units := { s.units with
        raised := false
        errors := if (c.arg 12 4).testBit 0 then s.units.errors.drop (c.arg 8 4) else s.units.errors } } c (c.arg 0 8)
      ((s.units.errors.take (c.arg 8 4)).flatMap errBytes) (s.units.errors.take (c.arg 8 4)).length).noteOverflow := by
  rw [runHealthErrors, if_neg (not_not_intro h), if_neg (not_not_intro hrsv)]
  rfl

/-- ENVELOPE_REPORT reports the newest records (R433). -/
theorem runEnvelopeReport_reports (hmax : c.arg 8 4 ≤ 1440) (hrsv : c.arg 12 4 = 0) :
    runEnvelopeReport c s = reported s c (c.arg 0 8) ((s.power.records.reverse.take (c.arg 8 4)).flatMap energyBytes)
      (s.power.records.reverse.take (c.arg 8 4)).length := by
  rw [runEnvelopeReport, if_neg (not_not_intro h), if_neg (Nat.not_lt.mpr hmax), if_neg (not_not_intro hrsv), State.writeHost_complete]

end

/-- Settles O27: each query runs as its slot is accepted, and reports its records. -/
theorem recordQueries : Obligations.RecordQueries := by
  unfold Obligations.RecordQueries
  intro slot s c t a n haligned
  refine ⟨fun ha hrsv => ?errors, fun ha hmax hrsv => ?energy⟩
  case errors =>
    have hrun : runQuery c t = runHealthErrors c t := by simp [runQuery, theCmd_opcode ha, c]
    exact (acceptAs_query (by decide) ha).trans (congrArg Host.Outcome.next (hrun.trans (runHealthErrors_reports haligned t hrsv)))
  case energy =>
    have hrun : runQuery c t = runEnvelopeReport c t := by simp [runQuery, theCmd_opcode ha, c]
    exact (acceptAs_query (by decide) ha).trans (congrArg Host.Outcome.next (hrun.trans (runEnvelopeReport_reports haligned t hmax hrsv)))

end Sys2Proof.Machine
end

section
/-! PROOF. KEY_ADD, DEBUG_UNLOCK and FW_UPDATE in the control lane (16 R507 to R514), and the record of a security refusal (15 R482). -/

namespace Sys2Proof.Machine

section

variable {s : State} {c : Cmd}

/-! ### KEY_ADD (R509, R511) -/

/-- A KEY_ADD that the required signer signed stores the policy that it asks for. -/
theorem runKeyAdd_signed (hbad : keyAddBad c.payload = none) (hsig : s.keyAddSigned c.payload = true) :
    runKeyAdd c s = answered (s.storePolicy { s.security.policy.apply c.payload with
      policyCounter := ((s.security.policy.apply c.payload).policyCounter + 1) % 2 ^ 64 }) c 0 0 0 := by
  simp only [runKeyAdd, hbad, hsig, if_true]
  rfl

theorem runKeyAdd_refused (hbad : keyAddBad c.payload = none) (hsig : s.keyAddSigned c.payload = false) :
    runKeyAdd c s = answered (s.noteRefusal 0x503) c 0x503 0 0 := by
  simp only [runKeyAdd, hbad, hsig, Bool.false_eq_true, if_false]
  rfl

/-! ### DEBUG_UNLOCK (R513, R514) -/

/-- SCOPE 0 locks the port and ends a debug halt (log entry 115). -/
theorem runDebugUnlock_locks (hbad : unlockBad c = none) (hscope : c.arg 0 1 = 0) :
    runDebugUnlock c s = answered { s with security := { s.security with debugScope := 0, halted := false } } c 0 0 0 := by
  simp only [runDebugUnlock, hbad, if_pos hscope]
  rfl

/-- The panel with its port opened to a scope by a signed DEBUG_UNLOCK: the policy counts it. -/
def State.unlocked (s : State) (scope : Nat) : State :=
  let s1 := s.storePolicy { s.security.policy with debugCounter := (s.security.policy.debugCounter + 1) % 2 ^ 64 }
  { s1 with security := { s1.security with
    debugScope := scope, halted := s1.security.halted && scope == 2, factoryOpen := s1.security.factoryOpen || scope == 2 } }

theorem runDebugUnlock_opens (hbad : unlockBad c = none) (hscope : c.arg 0 1 ≠ 0) (hsig : s.unlockSigned c = true) :
    runDebugUnlock c s = answered (s.unlocked (c.arg 0 1)) c 0 0 0 := by
  simp only [runDebugUnlock, hbad, if_neg hscope, hsig, if_true]
  rfl

theorem runDebugUnlock_refused (hbad : unlockBad c = none) (hscope : c.arg 0 1 ≠ 0) (hsig : s.unlockSigned c = false) :
    runDebugUnlock c s = answered (s.noteRefusal 0x503) c 0x503 0 0 := by
  simp only [runDebugUnlock, hbad, if_neg hscope, hsig, Bool.false_eq_true, if_false]
  rfl

/-! ### FW_UPDATE (R506, R507) -/

/-- An image that fails no check takes copy A, and what stood there takes copy B. -/
theorem runFwUpdate_copies {img : Img} (himg : s.hostBytes (c.arg 0 8) (c.arg 8 8) = img) (hpass : s.imageFail img = none) :
    runFwUpdate c s = answered { s with flash := { s.flash with
      tolniB := s.flash.tolniA, tolniA := img, writing := some (.tolniA, s.now) } } c 0 0 0 := by
  unfold runFwUpdate
  rw [himg]
  dsimp only
  split
  · next h => cases hpass.symm.trans h
  · rfl

theorem runFwUpdate_refused {f : Nat} (hfail : s.imageFail (s.hostBytes (c.arg 0 8) (c.arg 8 8)) = some f) :
    runFwUpdate c s = answered (s.noteRefusal f) c f (if f = 0x101 then c.at 0 else 0) 0 := by
  unfold runFwUpdate
  dsimp only
  split
  · next h =>
    cases hfail.symm.trans h
    rfl
  · next h => cases hfail.symm.trans h

end

/-! ### Refusals (R482) -/

/-- The newest record of the log of errors is the one that is added. -/
theorem State.addError_newest (s : State) (e : ErrIn) : (s.addError e).units.errors.getLast? = some (s.errRec e) := by
  unfold State.addError
  dsimp only
  split
  · simp
  · simp [State.event_units]

/-- A security refusal makes a record of CLASS 2; any other status makes none. -/
theorem State.noteRefusal_records (s : State) (status : Nat) :
    (status / 256 ≠ 5 → s.noteRefusal status = s) ∧
      (status / 256 = 5 → (s.noteRefusal status).units.errors.getLast?.map (fun e => (e.code, e.cls)) = some (status, 2)) := by
  refine ⟨fun h => if_neg h, fun h => ?_⟩
  rw [State.noteRefusal, if_pos h, State.addError_newest]
  rfl

/-- Settles O35: each command runs in its lane, by its laws above. -/
theorem signedCommands : Obligations.SignedCommands := by
  unfold Obligations.SignedCommands
  refine ⟨?keyAdd, ?unlock, ?update, fun status s => s.noteRefusal_records status⟩
  case keyAdd =>
    intro slot s c t p ha hl hbad
    have hrun : runControl c t = runKeyAdd c t := by simp [runControl, theCmd_opcode ha, c]
    refine ⟨runKeyAdd c t, acceptAs_control_of_run (by decide) ha hl hrun, fun hsig => ?_, runKeyAdd_refused hbad⟩
    rw [runKeyAdd_signed hbad hsig]
    exact ⟨rfl, rfl, rfl, rfl⟩
  case unlock =>
    intro slot s c t ha hl hbad
    have hrun : runControl c t = runDebugUnlock c t := by simp [runControl, theCmd_opcode ha, c]
    refine ⟨runDebugUnlock c t, acceptAs_control_of_run (by decide) ha hl hrun, runDebugUnlock_locks hbad, fun hscope hsig => ?_,
      runDebugUnlock_refused hbad⟩
    rw [runDebugUnlock_opens hbad hscope hsig]
    exact ⟨rfl, rfl, rfl, rfl⟩
  case update =>
    intro slot s c t img ha hl
    have hrun : runControl c t = runFwUpdate c t := by simp [runControl, theCmd_opcode ha, c]
    refine acceptAs_control_of_run (by decide) ha hl (hrun.trans ?_)
    cases hfail : t.imageFail img with
    | none => exact runFwUpdate_copies rfl hfail
    | some f => exact runFwUpdate_refused hfail

end Sys2Proof.Machine
end

section
/-! PROOF. Power and reset pins (14 R449, R454, R457, R458, R474; 16 R527): each pin either clears the panel or begins stage 0x01. -/

namespace Sys2Proof.Machine

/-! ### A copy of flash being written (log entry 83) -/

/-- Power lost during a write changes flash and nothing else. -/
theorem State.stopWrite_flashOnly (s : State) : ∃ f, s.stopWrite = { s with flash := f } := by
  unfold State.stopWrite
  dsimp only
  split
  · exact ⟨_, rfl⟩
  · split <;> exact ⟨_, rfl⟩

theorem State.stopWrite_pins (s : State) : s.stopWrite.pins = s.pins := by
  obtain ⟨f, h⟩ := s.stopWrite_flashOnly
  rw [h]

theorem State.stopWrite_hostMem (s : State) : s.stopWrite.hostMem = s.hostMem := by
  obtain ⟨f, h⟩ := s.stopWrite_flashOnly
  rw [h]

theorem State.stopWrite_idle {s : State} (h : s.flash.writing = none) : s.stopWrite = s := by
  simp only [State.stopWrite, h]

/-! ### A cleared panel (R458) -/

/-- Clearing the panel under other pins leaves what power-off leaves. -/
theorem State.cleared_onlyAuxLeft (s : State) (p : Pins) (h : p.shutdown = s.pins.shutdown) :
    OnlyAuxLeft s (State.cleared { s with pins := p }) := ⟨rfl, h⟩

theorem State.cleared_flash_idle {s : State} (h : s.flash.writing = none) : s.cleared.flash = s.flash := by
  show { s.flash with writing := none } = s.flash
  rw [← h]

/-! ### Stage 0x01 or a panel held (R457, Table 17.9) -/

theorem State.panelReset_begins {s : State} {straps : StrapPins} (h : s.pins.pwrOk = true ∧ s.pins.resetN = true ∧ s.pins.shdnN = true) :
    s.panelReset straps = s.beginBringup straps := if_pos h

theorem State.panelReset_holds {s : State} {straps : StrapPins} (h : ¬(s.pins.pwrOk = true ∧ s.pins.resetN = true ∧ s.pins.shdnN = true)) :
    s.panelReset straps = s.cleared := if_neg h

theorem State.beginBringup_pins (s : State) (straps : StrapPins) : (s.beginBringup straps).pins = s.pins := by
  obtain ⟨u, hu, h⟩ := s.beginBringup_eq straps
  obtain ⟨_, _, _, _, _, _, rfl⟩ := hu
  rw [h]
  rfl

theorem State.beginBringup_profile (s : State) (straps : StrapPins) : (s.beginBringup straps).power.profile = straps.profile.toNat := by
  obtain ⟨u, hu, h⟩ := s.beginBringup_eq straps
  obtain ⟨_, _, _, _, _, _, rfl⟩ := hu
  rw [h]
  rfl

/-! ### The pins -/

theorem exec_pwrOkFall {s : State} (h : s.pins.pwrOk = true) :
    exec .pwrOkFall s = .next (State.cleared { s.stopWrite with pins := { s.pins with pwrOk := false } }) := if_pos h

theorem exec_pwrOkRise {s : State} (straps : StrapPins) (hoff : s.pins.pwrOk = false) (haux : s.pins.aux = true) :
    exec (.pwrOkRise straps) s = .next (State.panelReset { s with pins := { s.pins with pwrOk := true } } straps) :=
  if_neg (by simp [hoff, haux])

theorem exec_panelResetN {s : State} {n : Nat} (released : Bool) (straps : StrapPins) (haux : s.pins.aux = true)
    (hlow : 1000 ≤ n ∨ s.pins.resetN = false) : exec (.panelResetN n released straps) s =
      .next (State.panelReset { s with pins := { s.pins with shdnN := true, resetN := released } } straps) :=
  if_neg fun h => by
    rcases h with hoff | ⟨hshort, hhigh⟩
    · simp [haux] at hoff
    · exact hlow.elim (Nat.not_le_of_lt hshort) (by simp [hhigh])

theorem exec_panelResetN_short {s : State} {n : Nat} (released : Bool) (straps : StrapPins) (hshort : n < 1000) (hhigh : s.pins.resetN = true) :
    exec (.panelResetN n released straps) s = .next s := if_pos (.inr ⟨hshort, hhigh⟩)

theorem exec_auxFall {s : State} (h : s.pins.aux = true) : exec .auxFall s =
    .next (State.cleared { s.stopWrite with pins := { s.pins with aux := false, pwrOk := false, shdnN := true, shutdown := none } }) := if_pos h

theorem exec_auxRise {s : State} (h : s.pins.aux = false) :
    exec .auxRise s = .next { s with pins := { s.pins with aux := true, shdnN := true } } := if_neg (by simp [h])

/-- Settles O57: each pin's clause is what its command does, and what a cleared panel or one in bring-up keeps. -/
theorem powerPins : Obligations.PowerPins := by
  unfold Obligations.PowerPins
  refine ⟨?off, ?begins, ?blocked, ?reset, ?short, ?auxOff, ?auxOn⟩
  case off =>
    intro s hon
    refine ⟨_, exec_pwrOkFall hon, State.cleared_onlyAuxLeft _ _ (by rw [State.stopWrite_pins]), fun hidle => ?_, rfl⟩
    have hnone : s.flash.writing = none := Option.eq_none_iff_forall_ne_some.mpr hidle
    rw [State.stopWrite_idle hnone]
    exact State.cleared_flash_idle hnone
  case begins =>
    intro st s hoff haux hreset hshdn
    have hexec := (exec_pwrOkRise st hoff haux).trans (congrArg _ (State.panelReset_begins ⟨rfl, hreset, hshdn⟩))
    obtain ⟨hhost, hrunning, hstraps, hmem, hfuses, hflash⟩ := State.beginBringup_leaves { s with pins := { s.pins with pwrOk := true } } st
    exact ⟨_, hexec, hrunning, hstraps, State.beginBringup_pins _ _, hfuses, hflash, hhost, hmem, State.beginBringup_profile _ _⟩
  case blocked =>
    intro st s hoff haux hlow
    have hheld : ¬(true = true ∧ s.pins.resetN = true ∧ s.pins.shdnN = true) := fun ⟨_, hreset, hshdn⟩ =>
      hlow.elim (by simp [hreset]) (by simp [hshdn])
    have hexec := (exec_pwrOkRise st hoff haux).trans (congrArg _ (State.panelReset_holds hheld))
    exact ⟨_, hexec, State.cleared_onlyAuxLeft _ _ rfl, rfl⟩
  case reset =>
    intro n st s hlow haux
    refine ⟨fun hon => ?_, ?_⟩
    · have hexec := (exec_panelResetN true st haux hlow).trans (congrArg _ (State.panelReset_begins ⟨hon, rfl, rfl⟩))
      obtain ⟨hhost, hrunning, hstraps, hmem, hfuses, hflash⟩ :=
        State.beginBringup_leaves { s with pins := { s.pins with shdnN := true, resetN := true } } st
      exact ⟨_, hexec, hrunning, hstraps, State.beginBringup_pins _ _, hfuses, hflash, hhost, hmem⟩
    · have hheld : ¬(s.pins.pwrOk = true ∧ false = true ∧ true = true) := fun ⟨_, hreset, _⟩ => Bool.noConfusion hreset
      have hexec := (exec_panelResetN false st haux hlow).trans (congrArg _ (State.panelReset_holds hheld))
      exact ⟨_, hexec, State.cleared_onlyAuxLeft _ _ rfl, rfl⟩
  case short =>
    intro n b st s hshort hhigh
    exact exec_panelResetN_short b st hshort hhigh
  case auxOff =>
    intro s haux
    exact ⟨_, exec_auxFall haux, rfl, s.stopWrite_fuses, rfl, s.stopWrite_hostMem, rfl⟩
  case auxOn =>
    intro s haux
    exact exec_auxRise haux

end Sys2Proof.Machine
end

section
/-! PROOF. Bring-up (14 R459, R463 to R465, Table 14.8): what a stage that passes, fails or waits leaves, recovery, and firmware blocks. -/

namespace Sys2Proof.Machine

/-! ### The end of a stage -/

theorem State.resetBegun_other (s : State) {code : Nat} (h : code ≠ 0x30) : s.resetBegun code = s := by
  unfold State.resetBegun
  split
  · contradiction
  · rfl

theorem State.waitsReference_holdover {s : State} {code : Nat} (hcode : code ≤ 6) (href : s.clock.ref = .holdover) :
    s.waitsReference code = true := by
  simp [State.waitsReference, hcode, href]

theorem State.waitsReference_locked {s : State} (code : Nat) (href : s.clock.ref = .locked) : s.waitsReference code = false := by
  simp [State.waitsReference, href]

theorem State.hubCut_of_units {s t : State} (h : t.units = s.units) : t.hubCut = s.hubCut := by
  simp only [State.hubCut, State.hubLinkLost, State.retired, State.unitEntry, h]

theorem State.endStage_running {s : State} {code unit : Nat} (h : s.boot.running = [(code, unit)]) (passed : Bool) :
    (s.endStage code unit passed).boot.running = [] := by
  simp [State.endStage, h]

/-- While Tolni is in the cluster the end of a stage shows what runs. -/
theorem State.stageEnded_joined {s : State} {code : Nat} (unit : Nat) (hcode : code ≠ 0x23) (hjoined : s.hubCut = false) :
    s.stageEnded code unit = s.showStage := by
  simp [State.stageEnded, State.haltIfCut, hjoined, hcode]

/-- A panel that has halted is not halted again. -/
theorem State.stageEnded_halted {s : State} {code c : Nat} (unit : Nat) (hcode : code ≠ 0x23) (hhalt : s.boot.halt = some c) :
    s.stageEnded code unit = s.showStage := by
  simp [State.stageEnded, State.haltIfCut, hhalt, hcode]

/-- One stage of Tolni's own under way is what the panel shows. -/
theorem State.showStage_running {s : State} {code : Nat} (hhalt : s.boot.halt = none) (hready : s.boot.ready = false)
    (hrun : s.boot.running = [(code, 0)]) (hio : ioStage code = false) :
    s.showStage = { s with boot := { s.boot with shown := (code, 4, 0, 0) } } := by
  simp [State.showStage, hhalt, hready, hrun, hio]

theorem State.showStage_ready {s : State} (hhalt : s.boot.halt = none) (hready : s.boot.ready = true) :
    s.showStage = { s with boot := { s.boot with shown := (0xFF, 4, 0, 3) } } := by
  simp [State.showStage, hhalt, hready]

theorem State.showStage_halted {s : State} {code : Nat} (hhalt : s.boot.halt = some code) (hio : ioStage code = false) :
    s.showStage = { s with boot := { s.boot with shown := (code, 4, s.boot.haltUnit, 2) } } := by
  simp [State.showStage, hhalt, hio]

/-- After a stage that passed alone, the one begun is shown. -/
theorem State.stageEnded_begun {s : State} {code next : Nat} (hcode : code ≠ 0x23) (hjoined : s.hubCut = false)
    (hhalt : s.boot.halt = none) (hready : s.boot.ready = false) (hrun : s.boot.running = [(next, 0)]) (hio : ioStage next = false) :
    s.stageEnded code 0 = { s with boot := { s.boot with shown := (next, 4, 0, 0) } } := by
  rw [State.stageEnded_joined 0 hcode hjoined, State.showStage_running hhalt hready hrun hio]

/-! ### A stage's report -/

section

variable {s : State} {code : Nat} {found : List Nat}

/-- A stage of Tolni's own that reports a pass ends, and what follows it begins. -/
theorem exec_stageComplete_passes (hcode : code ≠ 3 ∧ code ≠ 0x30) (hrun : s.boot.running = [(code, 0)])
    (hpass : s.mayPass code found = true) (hwaits : s.waitsReference code = false) :
    exec (.stageComplete code 0 true found) s =
      .next (((((s.stageFound code found).endStage code 0 true).stagePassed code 0).afterStage code 0).stageEnded code 0) := by
  show execStageComplete code 0 true found s = _
  simp [execStageComplete, s.resetBegun_other hcode.2, hrun, hcode.1, hpass, hwaits]

/-- A report of a pass that does not meet the stage's condition fails it. -/
theorem exec_stageComplete_fails (hcode : code ≠ 3 ∧ code ≠ 4 ∧ code ≠ 0x30 ∧ code ≠ 0x35) (hrun : s.boot.running = [(code, 0)])
    (hpass : s.mayPass code found = false) (hwaits : s.waitsReference code = false) :
    exec (.stageComplete code 0 true found) s = .next (((s.stageFound code found).stageFailed code 0 found).stageEnded code 0) := by
  obtain ⟨h3, h4, h30, h35⟩ := hcode
  show execStageComplete code 0 true found s = _
  simp [execStageComplete, s.resetBegun_other h30, hrun, h3, h4, h35, hpass, hwaits]

/-- While the reference is lost a management stage's pass is waited past (Table 14.8). -/
theorem exec_stageComplete_waits (hcode : code ≤ 6) (href : s.clock.ref = .holdover) :
    exec (.stageComplete code 0 true found) s = .next s := by
  show execStageComplete code 0 true found s = _
  simp [execStageComplete, s.resetBegun_other (by omega : code ≠ 0x30), State.waitsReference_holdover hcode href]

end

/-! ### A halted panel -/

theorem State.discardPlan_boot (s : State) : s.discardPlan.boot = s.boot := by
  simp [State.discardPlan, State.send]

theorem State.discardPlan_units (s : State) : s.discardPlan.units = s.units := by
  unfold State.discardPlan
  dsimp only
  split <;> rfl

theorem State.noteLost_units (s : State) : s.noteLost.units = s.units := by
  refine forEach_holds (fun t => t.units = s.units) _ _ _ rfl fun e t ht => ?_
  split
  · split <;> exact ht
  · split
    · split
      · split <;> exact ht
      · exact ht
    · exact ht

theorem MapOnly.boot {s t : State} (h : MapOnly s t) : t.boot = s.boot := by obtain ⟨_, _, _, _, _, rfl⟩ := h; rfl

/-- Of the units, a new map writes where the dies are alone. -/
theorem State.applyMap_units (s : State) (m : GridMap) :
    (s.applyMap m).units = { s.units with gridClass := m.grid, mapCols := m.cols, mapRows := m.rows } := by
  unfold State.applyMap
  split
  · next h => rw [h]
  · exact State.noteLost_units _

/-- Halting leaves no stage under way and no map of the grid. -/
theorem State.halt_boot (s : State) (code unit : Nat) (a : Bool) : (s.halt code unit a).boot = { s.boot with
    halt := some code, haltUnit := unit, haltA := a, running := [], tolniReady := !a, ready := false, noGrid := true } := by
  unfold State.halt
  exact (State.discardPlan_boot _).trans (State.applyMap_mapOnly _ _).boot

theorem State.halt_errors (s : State) (code unit : Nat) (a : Bool) : (s.halt code unit a).units.errors = s.units.errors := by
  unfold State.halt
  dsimp only
  rw [State.discardPlan_units, State.applyMap_units]

theorem State.halt_seq (s : State) (code unit : Nat) (a : Bool) : (s.halt code unit a).units.seq = s.units.seq := by
  unfold State.halt
  dsimp only
  rw [State.discardPlan_units, State.applyMap_units]

theorem State.addError_mem_errors (s : State) (e : ErrIn) : s.errRec e ∈ (s.addError e).units.errors :=
  List.mem_of_getLast? (s.addError_newest e)

/-- What a stage of Tolni's own leaves that fails and halts the panel: its record, and nothing under way (R459, Table 14.8). -/
def HaltedBy (code : Nat) (a : Bool) (s t : State) : Prop :=
  (∃ e ∈ t.units.errors, e.unit = hubUnit ∧ e.code = code ∧ e.cls = 1) ∧ t.units.seq = s.units.seq + 1 ∧
    t.boot.halt = some code ∧ t.boot.haltA = a ∧ t.boot.running = [] ∧ t.boot.shown = (code, 4, 0, 2)

theorem State.stageRecord_halts (s : State) {code : Nat} (hio : ioStage code = false) (a : Bool) :
    HaltedBy code a s ((((s.stageRecord code 0).endStage code 0 false).halt code 0 a).stageEnded code 0) := by
  have hcode : code ≠ 0x23 := by rintro rfl; exact absurd hio (by decide)
  generalize hu : ((s.stageRecord code 0).endStage code 0 false) = u
  have hboot := u.halt_boot code 0 a
  have hhalt : (u.halt code 0 a).boot.halt = some code := by rw [hboot]
  have hseq : u.units.seq = s.units.seq + 1 := by rw [← hu]; exact s.addError_seq _
  have hrec : ∃ e ∈ u.units.errors, e.unit = hubUnit ∧ e.code = code ∧ e.cls = 1 := by
    rw [← hu]
    exact ⟨_, s.addError_mem_errors _, by simp [State.errRec, stageUnit, hio], rfl, rfl⟩
  rw [State.stageEnded_halted 0 hcode hhalt, State.showStage_halted hhalt hio]
  refine ⟨?_, (u.halt_seq code 0 a).trans hseq, hhalt, ?_, ?_, ?_⟩
  · show ∃ e ∈ (u.halt code 0 a).units.errors, _
    rw [u.halt_errors]
    exact hrec
  all_goals simp [hboot]

/-- Stage 0x06 that fails halts the panel, and leaves the management port (R459). -/
theorem State.stageFailed_tolni (s : State) (found : List Nat) :
    s.stageFailed 6 0 found = ((s.stageRecord 6 0).endStage 6 0 false).halt 6 0 false := rfl

/-- A management stage over its limit while the reference is lost halts the panel (Table 14.8). -/
theorem State.stageLate_holdover {s : State} {code : Nat} (h : s.waitsReference code = true) (late : List Nat) :
    s.stageLate code 0 late = ((s.stageRecord code 0).endStage code 0 false).halt code 0 (code == 1) := if_pos h

/-- Stage 0x01 over its limit halts the panel, whatever the reference is (R459). -/
theorem State.stageLate_first (s : State) : s.stageLate 1 0 [] = ((s.stageRecord 1 0).endStage 1 0 false).halt 1 0 true :=
  (apply_ite (fun t => t) _ _ _).trans (ite_self _)

/-! ### What begins after a stage -/

theorem State.beginTicks_writes (s : State) : ∃ c g, s.beginTicks = { s with clock := c, group := g } ∧ c.nextTick.isSome = true := by
  unfold State.beginTicks
  dsimp only
  split
  · next h => exact ⟨_, _, rfl, h⟩
  · split <;> exact ⟨_, _, rfl, rfl⟩

/-- With no COMPUTE_RESET begun the panel is READY, and its rollback index may rise. -/
theorem State.becomeReady_started {s : State} (h : s.boot.resetTag = none) :
    ∃ f, s.becomeReady = { s with boot := { s.boot with ready := true }, fuses := f } := by
  have hno : s.resetRuns = false := by simp [State.resetRuns, h]
  unfold State.becomeReady State.advanceRollback
  simp only [hno]
  dsimp
  split <;> exact ⟨_, rfl⟩

/-- Stage 0x36 that finds nothing retires nothing. -/
theorem State.stageFound_none (s : State) : s.stageFound 0x36 [] = s := rfl

/-- Stage 0x36 that passes makes the panel READY, with its ticks begun (R463). -/
theorem State.stagePassed_ready {s : State} (h : s.boot.resetTag = none) :
    let t := (s.stagePassed 0x36 0).afterStage 0x36 0
    t.boot = { s.boot with ready := true } ∧ t.units = s.units ∧ t.clock.nextTick.isSome = true := by
  obtain ⟨c, g, hticks, hnext⟩ := (s.noteLost.enterProfile s.power.profile).beginTicks_writes
  have hboot : s.noteLost.boot = s.boot := s.noteLost_mapOnly.boot
  obtain ⟨f, hready⟩ := State.becomeReady_started (s := { s.noteLost.enterProfile s.power.profile with clock := c, group := g })
    (show s.noteLost.boot.resetTag = none by rw [hboot, h])
  have hbegun : (s.stagePassed 0x36 0).afterStage 0x36 0 = (s.noteLost.enterProfile s.power.profile).beginTicks.becomeReady := rfl
  dsimp only
  rw [hbegun, hticks, hready]
  exact ⟨congrArg (fun b : Boot => { b with ready := true }) hboot, s.noteLost_units, hnext⟩

theorem exec_stageComplete_ready {s : State} (hrun : s.boot.running = [(0x36, 0)]) (htag : s.boot.resetTag = none) (hhalt : s.boot.halt = none)
    (hjoined : s.hubCut = false) : ∃ t, exec (.stageComplete 0x36 0 true []) s = .next t ∧
      t.boot = { (s.endStage 0x36 0 true).boot with ready := true, shown := (0xFF, 4, 0, 3) } ∧ t.clock.nextTick.isSome = true := by
  have hexec := exec_stageComplete_passes (s := s) (found := []) (by decide) hrun rfl rfl
  rw [State.stageFound_none] at hexec
  obtain ⟨hboot, hunits, hticks⟩ := State.stagePassed_ready (s := s.endStage 0x36 0 true) htag
  generalize ((s.endStage 0x36 0 true).stagePassed 0x36 0).afterStage 0x36 0 = u at hexec hboot hunits hticks
  rw [State.stageEnded_joined 0 (by decide) ((State.hubCut_of_units hunits).trans hjoined),
    State.showStage_ready (by rw [hboot]; exact hhalt) (by rw [hboot])] at hexec
  exact ⟨_, hexec, by rw [hboot], hticks⟩

/-! ### A stage over its limit -/

/-- Time passes to a stage's limit where the timebase counts. -/
def State.toLimit (s : State) (code ms : Nat) : State :=
  if s.clock.counting then s.advanceTo (tget 0 s.boot.began (code * 16) + ms * 10 ^ 6) else s

theorem State.toLimit_writes (s : State) (code ms : Nat) :
    ∃ c, s.toLimit code ms = { s with clock := c } ∧ c.ref = s.clock.ref := by
  unfold State.toLimit
  split <;> exact ⟨_, rfl, rfl⟩

theorem exec_stageTimeout {s : State} {code ms : Nat} (hcode : code ≠ 0x30) (hio : ioStage code = false)
    (hrun : s.boot.running = [(code, 0)]) (hlimit : s.stageLimit code = some ms) :
    exec (.stageTimeout code []) s = .next (((s.toLimit code ms).stageLate code 0 []).stageEnded code 0) := by
  show execStageTimeout code [] s = _
  simp [execStageTimeout, State.toLimit, s.resetBegun_other hcode, hio, hrun, hlimit]

theorem exec_stageTimeout_tolni {s : State} (hrun : s.boot.running = [(6, 0)]) (href : s.clock.ref = .holdover) :
    ∃ t, exec (.stageTimeout 6 []) s = .next t ∧ HaltedBy 6 false s t := by
  have hexec := exec_stageTimeout (s := s) (ms := 200) (by decide) rfl hrun rfl
  obtain ⟨c, hlimit, hkept⟩ := s.toLimit_writes 6 200
  rw [hlimit, State.stageLate_holdover (State.waitsReference_holdover (by decide) (hkept.trans href))] at hexec
  exact ⟨_, hexec, State.stageRecord_halts { s with clock := c } rfl (6 == 1)⟩

theorem exec_stageTimeout_first {s : State} (hrun : s.boot.running = [(1, 0)]) (hstill : s.clock.counting = false) :
    ∃ t, exec (.stageTimeout 1 []) s = .next t ∧ HaltedBy 1 true s t := by
  have hexec := exec_stageTimeout (s := s) (ms := 50) (by decide) rfl hrun rfl
  rw [State.toLimit, if_neg (by simp [hstill]), State.stageLate_first] at hexec
  exact ⟨_, hexec, s.stageRecord_halts rfl true⟩

/-! ### Recovery (R464) -/

/-- The image that FW_UPDATE names in slot 0. -/
def State.recoveryImage (s : State) : Img :=
  let p := (s.started (s.slotCmd 0)).payload
  s.hostBytes (field p 0 8) (field p 8 8)

/-- The image `img` runs, and stage 0x05 begins. -/
def State.recoveryRuns (s : State) (img : Img) : State :=
  let s1 := (s.endStage 3 0 true).acceptImage img
  (State.beginStage { s1 with boot := { s1.boot with done := s1.boot.done ++ [(4, 0)] } } 5 0).showStage

/-- An image that fails check `f` leaves its two records, and is not read again before the slot is rewritten. -/
def State.recoveryRefused (s : State) (f : Nat) : State :=
  let s1 := (s.stageRecord 4 0).addError { unit := hubUnit, code := f, cls := 2 }
  { s1 with boot := { s1.boot with shown := (4, 4, 0, 2), reread := false } }

theorem exec_recoveryBoot {s : State} (hrec : s.boot.recovery = true) (hrun : s.boot.running.contains (3, 0) = true) (hlink : s.host.linkUp = true)
    (hown : s.ownBit 0 = true) (hop : (s.slotCmd 0).opcode = 0x605) (href : s.clock.ref = .locked) (hreread : s.boot.reread = true) :
    exec .recoveryBoot s = .next ((s.imageFail s.recoveryImage).elim (s.recoveryRuns s.recoveryImage) s.recoveryRefused) := by
  show execRecoveryBoot s = _
  have hopen : execRecoveryBoot s = match s.imageFail s.recoveryImage with
      | none => .next (s.recoveryRuns s.recoveryImage)
      | some f => .next (s.recoveryRefused f) :=
    if_neg (by simp [hrec, List.contains_iff_mem.mp hrun, hlink, hown, hop, hreread, State.waitsReference_locked 3 href])
  rw [hopen]
  cases s.imageFail s.recoveryImage <;> rfl

theorem FailuresOnly.flash {s t : State} (h : FailuresOnly s t) : t.flash = s.flash := by obtain ⟨_, _, _, _, _, _, rfl⟩ := h; rfl
theorem FailuresOnly.boot {s t : State} (h : FailuresOnly s t) : t.boot = s.boot := by obtain ⟨_, _, _, _, _, _, rfl⟩ := h; rfl

theorem State.recoveryRefused_keeps (s : State) (f : Nat) :
    (s.recoveryRefused f).flash = s.flash ∧ (s.recoveryRefused f).boot.running = s.boot.running := by
  have hrecords : FailuresOnly s ((s.stageRecord 4 0).addError { unit := hubUnit, code := f, cls := 2 }) :=
    .trans (s.addError_failuresOnly _) (State.addError_failuresOnly _ _)
  have hrunning := congrArg Boot.running hrecords.boot
  exact ⟨hrecords.flash, hrunning⟩

theorem exec_recoveryBoot_waits {s : State} (h : s.boot.reread = false) : exec .recoveryBoot s = .next s :=
  if_pos (.inl (by simp [h]))

/-! ### Firmware blocks (R465, R506) -/

theorem forEach_boot {β : Type} (xs : List β) (f : β → State → State) (s : State) (h : ∀ x t, (f x t).boot = t.boot) :
    (forEach xs f s).boot = s.boot := forEach_keeps State.boot xs f s h

/-- `t` holds the firmware blocks that `s` holds, and the tries for each site. -/
def BlocksKept (s t : State) : Prop := t.boot.blockTries = s.boot.blockTries ∧ t.boot.agentFw = s.boot.agentFw

theorem BlocksKept.of_boot {s t : State} (h : t.boot = s.boot) : BlocksKept s t := ⟨congrArg _ h, congrArg _ h⟩

theorem BlocksKept.trans {s t u : State} (h : BlocksKept s t) (h' : BlocksKept t u) : BlocksKept s u :=
  ⟨h'.1.trans h.1, h'.2.trans h.2⟩

theorem State.spareLost_blocksKept (s : State) (atTick : Bool) (u : Nat) : BlocksKept s (s.spareLost atTick u) := by
  unfold State.spareLost
  dsimp only
  split
  · split
    · exact .of_boot (s.setUnit_boot _ _ _)
    · split
      · exact .of_boot rfl
      · exact .of_boot (by simp [State.markAtOnce])
  · split
    · exact .of_boot rfl
    · exact ⟨rfl, rfl⟩

theorem State.retireFound_blocksKept (s : State) (u : Nat) : BlocksKept s (s.retireFound u) := by
  have hledger := fun action => s.addLedger_boot u action 2 0
  unfold State.retireFound
  dsimp only
  split
  · exact .of_boot rfl
  · split
    · exact .of_boot (hledger _)
    · have hunits := fun action =>
        (forEach_boot (withContained u) (fun v s => s.setUnit v 2 2) _ fun v t => t.setUnit_boot v 2 2).trans (hledger action)
      split
      · exact (BlocksKept.of_boot (hunits _)).trans (State.spareLost_blocksKept _ _ _)
      · exact .of_boot (hunits _)

theorem RecordsOnly.boot {s t : State} (h : RecordsOnly s t) : t.boot = s.boot := by obtain ⟨_, _, _, rfl⟩ := h; rfl

theorem State.countRetired_blocksKept (s : State) (e : ErrIn) (action u : Nat) :
    BlocksKept s (s.countRetired e action (fun s => s.retireFound u)) := by
  unfold State.countRetired
  split
  · exact .trans (.of_boot (s.countEvent_recordsOnly _ _).boot) (State.retireFound_blocksKept _ _)
  · exact .of_boot (s.countEvent_recordsOnly _ _).boot

/-- The first repaired event at a place is counted, and retires nothing (R489). -/
theorem State.countRetired_first {s : State} (h : s.units.counts = []) {e : ErrIn} (hcls : e.cls = 0) (action : Nat) (retire : State → State) :
    s.countRetired e action retire = s.countEvent e false := by
  have hfew : s.turnsPermanent e = false := by simp [State.turnsPermanent, State.countEntry, h, hcls]
  simp [State.countRetired, hfew]

/-- A request enters the fabric as it is, but for what its place gives it. -/
theorem State.entering_request (s : State) (n : Nat) {p : Packet} (h : p.typ ≠ 7) :
    s.entering n [p] = [{ p with uid := n, fromPort := 0, gone := 0, isLocal := false, wait := [] }] := by
  simp [State.entering, h]

/-- The blocks of a site are taken, and its tries stand at `n`. -/
def State.blockTaken (s : State) (site n : Nat) : State :=
  let t := s.takeBlock site
  { t with boot := { t.boot with blockTries := tset 0 t.boot.blockTries site n } }

/-- A site whose block is bad has one more try behind it, and asks for the block again (R465). -/
def State.blockAsked (s : State) (site : Nat) : State :=
  (s.blockTaken site (tget 0 s.boot.blockTries site + 1)).inject [s.blockRequest site]

/-- What a bad block leaves: the request, and one more event of its die (R465, R489). -/
def State.blockRefused (s : State) (site : Nat) : State :=
  (s.blockAsked site).countRetired { unit := unitId 2 site 0, code := 0x501, cls := 0, reporter := s.reporterAt site }
    (if s.resetRuns then 5 else 0) (fun s => s.retireFound (unitId 2 site 0))

/-- A site whose fifth block is bad has failed its stage, and is retired (R465). -/
def State.blockExhausted (s : State) (site : Nat) : State :=
  let u := unitId 2 site 0
  let flags := flRetired + s.ledgerFlag u (if s.resetRuns then 5 else 0) 0
  ((s.blockTaken site 0).addError { unit := u, code := 0x12, cls := 1, flags := flags, reporter := s.reporterAt site }).retireFound u

theorem State.blockAsked_blockTries (s : State) (site : Nat) :
    (s.blockAsked site).boot.blockTries = tset 0 s.boot.blockTries site (tget 0 s.boot.blockTries site + 1) := rfl

theorem State.blockAsked_agentFw (s : State) (site : Nat) : (s.blockAsked site).boot.agentFw = s.boot.agentFw := rfl

theorem State.blockAsked_counts (s : State) (site : Nat) : (s.blockAsked site).units.counts = s.units.counts := rfl

theorem State.blockAsked_packets (s : State) (site : Nat) : ∃ q ∈ (s.blockAsked site).fabric.packets,
    q.typ = 9 ∧ q.src = s.reporterAt site ∧ q.dst = hubPlace ∧ q.msg = site + 1 := by
  have hkind : (s.blockRequest site).typ ≠ 7 := show 9 ≠ 7 by decide
  have hentered := (s.blockTaken site (tget 0 s.boot.blockTries site + 1)).entering_request s.fabric.nextUid hkind
  exact ⟨_, List.mem_append_right _ (hentered ▸ List.mem_singleton.mpr rfl), rfl, rfl, rfl, rfl⟩

theorem State.blockRefused_blocksKept (s : State) (site : Nat) : BlocksKept (s.blockAsked site) (s.blockRefused site) :=
  State.countRetired_blocksKept _ _ _ _

theorem State.blockRefused_keeps (s : State) (site : Nat) :
    tget 0 (s.blockRefused site).boot.blockTries site = tget 0 s.boot.blockTries site + 1 ∧
      tget [] (s.blockRefused site).boot.agentFw site = tget [] s.boot.agentFw site := by
  obtain ⟨htries, hfw⟩ := s.blockRefused_blocksKept site
  rw [htries, hfw, State.blockAsked_blockTries, State.blockAsked_agentFw]
  exact ⟨tget_tset_same _ _ _ _, rfl⟩

theorem State.blockRefused_asks {s : State} (site : Nat) (h : s.units.counts = []) :
    ∃ q ∈ (s.blockRefused site).fabric.packets, q.typ = 9 ∧ q.src = s.reporterAt site ∧ q.dst = hubPlace ∧ q.msg = site + 1 := by
  have hnone : (s.blockAsked site).units.counts = [] := (s.blockAsked_counts site).trans h
  rw [State.blockRefused, State.countRetired_first hnone rfl, (State.countEvent_recordsOnly _ _ _).fabric]
  exact s.blockAsked_packets site

section

variable {s : State} {site : Nat} (block digest : List Byte) (hsite : site < 156) (hrun : s.boot.running.contains (0x12, 0) = true)

include hrun

theorem exec_firmwareBlockReceive_waits (h : s.blockCame 0x12 site = false) :
    exec (.firmwareBlockReceive site block digest) s = .next s := by
  show execFirmwareBlockReceive site block digest s = _
  have hstage : s.blockStage = some 0x12 := if_pos hrun
  simp [execFirmwareBlockReceive, hstage, h]

include hsite

theorem exec_firmwareBlockReceive_good (hcame : s.blockCame 0x12 site = true) (hgood : digest = digest64 (s.block 0x12) ∧ digest64 block = digest) :
    exec (.firmwareBlockReceive site block digest) s = .next ((s.blockTaken site 0).keepBlock 0x12 site block) := by
  show execFirmwareBlockReceive site block digest s = _
  have hstage : s.blockStage = some 0x12 := if_pos hrun
  have hdie : diePlace site = true := by simp [diePlace, hsite]
  unfold execFirmwareBlockReceive
  simp only [hstage, hcame, hdie, if_pos hgood]
  rfl

theorem exec_firmwareBlockReceive_bad (hcame : s.blockCame 0x12 site = true) (hbad : ¬(digest = digest64 (s.block 0x12) ∧ digest64 block = digest))
    (hfew : tget 0 s.boot.blockTries site < 4) :
    exec (.firmwareBlockReceive site block digest) s = .next (s.blockRefused site) := by
  show execFirmwareBlockReceive site block digest s = _
  have hstage : s.blockStage = some 0x12 := if_pos hrun
  have hdie : diePlace site = true := by simp [diePlace, hsite]
  have hlogic : site < 0x100 := by omega
  unfold execFirmwareBlockReceive
  simp only [hstage, hcame, hdie, if_neg hbad, if_pos hfew, if_pos hlogic]
  rfl

/-- After the fourth try the die is retired. -/
theorem exec_firmwareBlockReceive_last (hcame : s.blockCame 0x12 site = true)
    (hbad : ¬(digest = digest64 (s.block 0x12) ∧ digest64 block = digest)) (hmany : ¬tget 0 s.boot.blockTries site < 4) :
    exec (.firmwareBlockReceive site block digest) s =
      .next (s.blockExhausted site) := by
  show execFirmwareBlockReceive site block digest s = _
  have hstage : s.blockStage = some 0x12 := if_pos hrun
  have hdie : diePlace site = true := by simp [diePlace, hsite]
  have hlogic : site < 0x100 := by omega
  unfold execFirmwareBlockReceive
  simp only [hstage, hcame, hdie, if_neg hbad, if_neg hmany, if_pos hlogic]
  rfl

end

/-! ### The statement -/

/-- Settles O58: each stage's clause is its report or its limit, each by the law of what follows; recovery and the blocks by their own. -/
theorem bringUp : Obligations.BringUp := by
  unfold Obligations.BringUp
  refine ⟨?first, ?tolni, ?ready, ?waits, ?lateTolni, ?lateFirst, ?recovery, ?block⟩
  case first =>
    intro s hrun hready hhalt href hrom hjoined
    have hbegun : (s.endStage 1 0 true).boot.running ++ [(2, 0)] = [(2, 0)] := by rw [State.endStage_running hrun]; rfl
    have hended := State.stageEnded_begun (s := ((s.endStage 1 0 true).stagePassed 1 0).afterStage 1 0) (code := 1) (next := 2) (by decide)
      ((State.hubCut_of_units rfl).trans hjoined) hhalt hready hbegun rfl
    exact ⟨_, (exec_stageComplete_passes (by decide) hrun hrom (State.waitsReference_locked 1 href)).trans (congrArg _ hended),
      hbegun, rfl, rfl, rfl, rfl⟩
  case tolni =>
    intro s found hrun hready hhalt href hjoined
    have hwaits := State.waitsReference_locked 6 href
    refine ⟨fun hall => ?_, fun hmissing => ?_⟩
    · have hbegun : (s.endStage 6 0 true).boot.running ++ [(0x10, 0)] = [(0x10, 0)] := by rw [State.endStage_running hrun]; rfl
      have hended := State.stageEnded_begun (s := (((s.stageFound 6 found).endStage 6 0 true).stagePassed 6 0).afterStage 6 0) (code := 6)
        (next := 0x10) (by decide) ((State.hubCut_of_units rfl).trans hjoined) hhalt hready hbegun rfl
      exact ⟨_, (exec_stageComplete_passes (by decide) hrun hall hwaits).trans (congrArg _ hended), hbegun, rfl, rfl, rfl⟩
    · have hexec := exec_stageComplete_fails (by decide) hrun hmissing hwaits
      rw [State.stageFailed_tolni] at hexec
      obtain ⟨_, _, hstop⟩ := State.stageRecord_halts (s.stageFound 6 found) (code := 6) rfl false
      exact ⟨_, hexec, hstop⟩
  case ready =>
    intro s hrun htag hhalt hjoined
    obtain ⟨u, hexec, hboot, hticks⟩ := exec_stageComplete_ready hrun htag hhalt hjoined
    exact ⟨u, hexec, by rw [hboot], by rw [hboot], hticks⟩
  case waits =>
    intro code found s hcode href
    exact exec_stageComplete_waits hcode href
  case lateTolni =>
    intro s hrun href
    exact exec_stageTimeout_tolni hrun href
  case lateFirst =>
    intro s hrun hstill
    exact exec_stageTimeout_first hrun hstill
  case recovery =>
    intro s c p img hrec hrun hlink hown hop href
    refine ⟨exec_recoveryBoot_waits, fun hreread => ?_⟩
    refine ⟨_, exec_recoveryBoot hrec hrun hlink hown hop href hreread, ?_⟩
    change _ ∧ (s.imageFail s.recoveryImage = none → _) ∧ (s.imageFail s.recoveryImage ≠ none → _)
    cases s.imageFail s.recoveryImage with
    | none => exact ⟨rfl, fun _ => ⟨rfl, List.mem_append_right _ (List.mem_singleton.mpr rfl), rfl⟩, fun h => absurd rfl h⟩
    | some f =>
      obtain ⟨hflash, hrunning⟩ := s.recoveryRefused_keeps f
      exact ⟨hflash, fun h => absurd h (Option.some_ne_none f), fun _ => ⟨rfl, hrunning, rfl⟩⟩
  case block =>
    intro site block digest s hsite hrun good
    refine ⟨exec_firmwareBlockReceive_waits block digest hrun, fun hcame => ?_⟩
    by_cases hgood : good
    · refine ⟨_, exec_firmwareBlockReceive_good block digest hsite hrun hcame hgood, fun _ => ⟨?_, ?_, rfl⟩, fun h => absurd hgood h⟩
      · exact tget_tset_same 0 s.boot.blockTries site 0
      · exact tget_tset_same [] s.boot.agentFw site _
    · by_cases hfew : tget 0 s.boot.blockTries site < 4
      · obtain ⟨htries, hfw⟩ := s.blockRefused_keeps site
        exact ⟨_, exec_firmwareBlockReceive_bad block digest hsite hrun hcame hgood hfew, fun h => absurd h hgood,
          fun _ _ => ⟨htries, hfw, State.blockRefused_asks site⟩⟩
      · exact ⟨_, exec_firmwareBlockReceive_last block digest hsite hrun hcame hgood hfew, fun h => absurd h hgood,
          fun _ h => absurd h hfew⟩

end Sys2Proof.Machine
end
